-- ==== Sys2Proof/Word.lean ====
section
/-! DEFINITION. The plainest types of the model: bytes, 32-bit words, addresses, and the access codes of R575. -/

namespace Sys2Proof

/-- One byte. -/
abbrev Byte := BitVec 8

/-- One register or one sequencer register: 32 bits (R12). -/
abbrev Word := BitVec 32

/-- A 40-bit device address, as a natural number (R255). -/
abbrev Addr := Nat

/-- The access codes of R575. -/
inductive Access where
  | rw | ro | wo | w1c | w1s | rc
  deriving DecidableEq, Repr

/-- One register field: the address of its register, its lowest bit, its width and its reset value. -/
structure Fld where
  addr : Addr
  lo : Nat
  width : Nat
  reset : Nat
  deriving DecidableEq, Repr

/-- The key under which a field is stored: no two fields of R548 share one. -/
abbrev Fld.key (f : Fld) : Nat := f.addr * 32 + f.lo

/-- One field of the register table: access code, whether it is Kept, whether its change is epoch-breaking. -/
structure FieldRow where
  fld : Fld
  acc : Access
  kept : Bool
  epoch : Bool
  deriving DecidableEq, Repr

/-- The owner of an access or a plan entry, by the codes of R23. -/
abbrev Owner := Nat

end Sys2Proof
end

