-- ==== Sys2Proof/Syntax.lean ====
section
/-! DEFINITION. The commands of the block: one constructor for each row of the table of operations and events, with the
operands the step needs from outside (a register value, an event's unit number, what an analog or remote side shows). -/

namespace Sys2Proof

/-- What one slot of the plan meets from outside the block: the MR4 readings of the two Boulevard channels (R42), bit errors
that appear in the memories (address of the 64-bit word, of the 32-bit word in ITCM and DTCM, whether uncorrectable, and the bytes
the word now holds; R262, R279, R331), the places of the slot, claims 0 to 7 or 8 for the Boulevard entry, at which the plan store
shows an uncorrectable and a corrected error (R54), the crosswalks that slip: domain number, and whether it was written when full
(R495), the places at which a staged line allocated to a Roundabout write is missing (R284), and the units whose result due in this
slot is not ready, by their code in R32 and their number (R54, kind 3). -/
structure SlotEnv where
  mr4 : List Nat
  upsets : List (Nat × Bool × List Nat)
  storeBad : List Nat
  storeFixed : List Nat
  slips : List (Nat × Bool)
  missing : List Nat
  late : List (Nat × Nat)
  deriving DecidableEq, Repr

/-- A file in the flash or in the download area: its bytes (R73, R82). -/
abbrev Image := List Byte

/-- An SP1 transaction with a host frame (R396, R405): the low four bits of byte 0 (CLASS and FLAGS), ALIVE, L, ADDR, the payload words that
came before SP1_CS_N rose, whether the CRC was right, the control byte, the clocks after the write phase, whether SP1_CS_N rose within a
transfer there (R400), and the slot in which SP1_CS_N fell. -/
structure FrameIn where
  flags : Nat
  alive : Nat
  len : Nat
  addr : Nat
  payload : List Nat
  crcOk : Bool
  control : Nat
  clocks : Nat
  cut : Bool
  since : Nat
  deriving DecidableEq, Repr

/-- A received packet of VC1 to VC3 (R468): sequence number, address, tag, status, data. -/
structure PacketIn where
  seq : Nat
  addr : Nat
  tag : Nat
  status : Nat
  data : List Nat
  deriving DecidableEq, Repr

/-- A received VC0 message (R478): HOP, LSLOT, bytes 2 to 5, bytes 6 to 7, and the instant of its arrival in 1/256 tick of the unit's
count (R475). -/
structure TimingIn where
  hop : Nat
  lslot : Nat
  tick : Nat
  frac : Nat
  stamp : Int
  deriving DecidableEq, Repr

/-- A received beacon (R472). -/
structure BeaconIn where
  id : Nat
  master : Nat
  hops : Nat
  upstream : Nat
  conflict : Bool
  deriving DecidableEq, Repr

/-- The commands. Sequencer rows carry register numbers and the immediate field as R326 places it. DESIGN CHOICE: log entry 100. -/
inductive Instr where
  | modeChangeRequest (value : Nat)
  | planSlot (env : SlotEnv)
  | marginStopLeave
  | verify (slot : Nat)
  | verifyComplete
  | swap (slot : Nat)
  | invalidate (slot : Nat)
  | planSwapped
  | psDataWrite (value : Nat)
  | psDataRead
  | resetRelease (straps : Nat)
  | bootRefCheck (edges : Nat)
  | scsFirstLock (elapsed : Nat)
  | headerRead (slot : Nat) (bytes : Image)
  | octalEntry (bytes : Image)
  | go
  | imageStreamed (image : Image)
  | bootPlansVerified
  | bootDone
  | ledgerWriteDone
  | ledgerClear
  | otpProg (value : Nat)
  | otpProgDone
  | hostAbsent
  | presNRise
  | presNFall
  | sp1Ungate
  | beat (codes ahead : List Nat)
  | handoverAttempt (q : Nat)
  | handoverSwitch (q : Nat)
  | calibrationCycleEnd (sc sumLow sumHigh noiseLow noiseHigh : Nat)
  | skewWindowEnd (sc : Nat)
  | stuckWatch (sc : Nat)
  | forceFail (sc : Nat)
  | mapoutWrite (sc : Nat) (value : Nat)
  | reinstate (sc : Nat)
  | trimWrite (addr : Nat) (value : Nat)
  | broadcastWrite (addr : Nat) (value : Nat)
  | broadcastRead (addr : Nat)
  | etPhaseAdvance
  | triggerDecision
  | candidateHorizon (unit : Nat)
  | fieldResult
  | trigInEdge (rising : Bool) (time : Int)
  | timerInstant
  | trgSw (value : Nat)
  | holdoffEnd (unit : Nat)
  | trgAbort (value : Nat)
  | fireDelivery
  | trigOutPulseStart
  | trigOutPulseEnd
  | start
  | stop
  | rearm
  | recordArm
  | recordEnd
  | headerReady
  | recordCommit
  | recRelease (value : Nat)
  | pop
  | commit (value : Nat)
  | reductionValueDelivery (out : Nat)
  | restart (au : Nat)
  | persistencePassStart
  | persistencePassEnd
  | take
  | boulevardTrainingEnd (ok : Bool) (density : List Nat)
  | dmaStart (ch : Nat)
  | descriptorLoaded (ch : Nat)
  | dmaLineArrival (ch : Nat)
  | dmaPortLineOut (ch : Nat)
  | dmaDescriptorComplete (ch : Nat)
  | dmaAbort (ch : Nat)
  | dmaAbortComplete (ch : Nat)
  | dmaChRegWrite (addr : Nat) (value : Nat)
  | eventDelivery
  | stopTask (stop : Nat)
  | clr (value : Nat)
  | evtSw (value : Nat)
  | evtLineSrcWrite (n : Nat) (value : Nat)
  | evtPinInputEdge (pin : Nat) (rising : Bool)
  | evtPinPulseStart (pin : Nat)
  | evtPinPulseEnd (pin : Nat)
  | add (d a b : Fin 16)
  | sub (d a b : Fin 16)
  | and (d a b : Fin 16)
  | or (d a b : Fin 16)
  | xor (d a b : Fin 16)
  | nor (d a b : Fin 16)
  | sll (d a b : Fin 16)
  | srl (d a b : Fin 16)
  | sra (d a b : Fin 16)
  | slt (d a b : Fin 16)
  | sltu (d a b : Fin 16)
  | min (d a b : Fin 16)
  | max (d a b : Fin 16)
  | mul (d a b : Fin 16)
  | mulh (d a b : Fin 16)
  | mulhu (d a b : Fin 16)
  | div (d a b : Fin 16)
  | divu (d a b : Fin 16)
  | rem (d a b : Fin 16)
  | remu (d a b : Fin 16)
  | clz (d a : Fin 16)
  | popc (d a : Fin 16)
  | addi (d a : Fin 16) (imm : BitVec 14)
  | andi (d a : Fin 16) (imm : BitVec 14)
  | ori (d a : Fin 16) (imm : BitVec 14)
  | xori (d a : Fin 16) (imm : BitVec 14)
  | slti (d a : Fin 16) (imm : BitVec 14)
  | sltiu (d a : Fin 16) (imm : BitVec 14)
  | slli (d a : Fin 16) (amount : BitVec 5)
  | srli (d a : Fin 16) (amount : BitVec 5)
  | srai (d a : Fin 16) (amount : BitVec 5)
  | bext (d a : Fin 16) (p n1 : BitVec 5)
  | bins (d a : Fin 16) (p n1 : BitVec 5)
  | lui (d : Fin 16) (imm : BitVec 18)
  | auipc (d : Fin 16) (imm : BitVec 18)
  | lb (d a : Fin 16) (imm : BitVec 14)
  | lbu (d a : Fin 16) (imm : BitVec 14)
  | lh (d a : Fin 16) (imm : BitVec 14)
  | lhu (d a : Fin 16) (imm : BitVec 14)
  | lw (d a : Fin 16) (imm : BitVec 14)
  | sb (d a : Fin 16) (imm : BitVec 14)
  | sh (d a : Fin 16) (imm : BitVec 14)
  | sw (d a : Fin 16) (imm : BitVec 14)
  | beq (a b : Fin 16) (off : BitVec 14)
  | bne (a b : Fin 16) (off : BitVec 14)
  | blt (a b : Fin 16) (off : BitVec 14)
  | bge (a b : Fin 16) (off : BitVec 14)
  | bltu (a b : Fin 16) (off : BitVec 14)
  | bgeu (a b : Fin 16) (off : BitVec 14)
  | jal (d : Fin 16) (imm : BitVec 18)
  | jalr (d a : Fin 16) (imm : BitVec 14)
  | sysrd (d : Fin 16) (num : BitVec 14)
  | syswr (a : Fin 16) (num : BitVec 14)
  | eret
  | waitev (n : BitVec 4)
  | pollev (d : Fin 16) (n : BitVec 4)
  | setev (n : BitVec 4)
  | fence
  | iflush
  | trap (imm : BitVec 14)
  | brk
  | storeErr
  | interruptEntry
  | tcmpReached
  | sequencerAbortRequest
  | sequencerAbort
  | storeDrain
  | loadReturn
  | xipLineRead
  | xipLineFill (data : List Nat)
  | spnCmd (port : Nat) (value : Nat)
  | spnRxd (port : Nat)
  | serialEntryStart (port : Nat)
  | serialEntryEnd (port : Nat) (rx : List Nat)
  | sp2SelectRise (rx : List Nat)
  | serialAbort (port : Nat)
  | windowEnable (n : Nat) (value : Nat)
  | templateWrite (value : Nat)
  | sp1TransactionMalformed (since : Nat)
  | frameNop (f : FrameIn)
  | sync (f : FrameIn)
  | frameRead (f : FrameIn)
  | frameWrite (f : FrameIn)
  | rmw (f : FrameIn)
  | bulk (f : FrameIn)
  | req (f : FrameIn)
  | abortFrame (f : FrameIn)
  | frameComplete
  | done (value : Nat)
  | apply (value : Nat)
  | dspFrame
  | displayLine
  | teEdge
  | teTimeout
  | dspCmdGo (value : Nat)
  | dspCmdSend
  | panelInitEntry
  | panelAck (error : Bool)
  | ackTimeout
  | stimulusPulseEnd
  | kerbJudgement (sample : Int)
  | kerbSelfCheck (zero reference : Int)
  | kerbClear
  | krbUnlock (value : Nat)
  | krbOvr (value : Nat)
  | kerbProtectedWrite (addr : Nat) (value : Nat)
  | audioTick
  | audioTableFeed
  | stmTonePush (value : Nat)
  | stmSpkPush (value : Nat)
  | stmPairPush (value : Nat)
  | stmAudioSrcWrite (value : Nat)
  | toneEnWrite (value : Nat)
  | stimulusAbort (value : Nat)
  | ampEnableWrite (value : Nat)
  | ampTrip
  | ampRetry
  | ampSoftEnd
  | ampPlayStable
  | ampClear
  | thermal
  | thermalClear
  | uvlo
  | uvloClear
  | erostPortEnable (port : Nat) (value : Nat)
  | erostUp (port : Nat) (partner : Nat) (delay : Nat)
  | trainingTimeout (port : Nat)
  | erostRetry (port : Nat)
  | crcIntervalEnd (port : Nat) (errors vc0Lost : Nat)
  | lockLost (port : Nat)
  | beaconSend
  | beaconReceive (port : Nat) (b : BeaconIn)
  | beaconForget (port : Nat)
  | arm (port : Nat) (m : TimingIn)
  | disarm (port : Nat) (m : TimingIn)
  | fire (port : Nat) (m : TimingIn)
  | treq (port : Nat) (m : TimingIn)
  | trsp (port : Nat) (m : TimingIn)
  | armTick
  | postedWrite (port : Nat) (p : PacketIn)
  | readRequest (port : Nat) (p : PacketIn)
  | completion (port : Nat) (p : PacketIn)
  | linkAck (port : Nat) (vc seq credits : Nat)
  | nak (port : Nat) (vc seq : Nat)
  | replayTimeout (port : Nat)
  | remoteReadTimeout (port : Nat)
  | rateInterval
  | erostRestart
  | erostPortAbort (port : Nat)
  | tickStep
  | clkTimeGo (value : Nat)
  | scsUnlock
  | scsRelock
  | refWindowEnd (counts : List Nat)
  | refLoss (ref : Nat)
  | glideEnd
  | forceGo (value : Nat)
  | ppsEdge (time : Int)
  | runDemand
  | restDrop
  | target (value : Nat)
  | ladderEntryComplete
  | wakeN
  | sp1CsWake
  | wakeTimer
  | pwrGoodRise
  | ladderExitComplete (periods cycles : Nat)
  | pwrGoodLate
  | pwrGoodLoss
  | avsEvaluation (margins : List Int)
  | avsLimWrite (value : Nat)
  | logEntryWrite
  | logPop
  | logClear
  | reqGlobalAbort
  | abortN
  | globalAbort
  | globalAbortComplete
  | railLoss (rail : Nat)
  | vddAoReset
  | regacc (addr : Nat) (write : Bool) (value : Nat)
  | registerWrite (addr : Nat) (value : Nat)
  | illegal (word : BitVec 32)
  | fetch (addr : BitVec 32) (bad : Bool)
  | reservedFrameType (type : Nat) (f : FrameIn)
  | sp2Sel0Fall
  | vdda1v8Loss
  | testInstruction (code : Nat)
  deriving DecidableEq, Repr

end Sys2Proof
end

