-- ==== Sys2Proof/Decode.lean ====
section
/-! DEFINITION. Decoding. No row of the command table gives a command bits, so no word spells a command by the table. The words of the
core's instructions are those of R326 and R328. -/

namespace Sys2Proof

/-- The command that a word spells by the table's bits: none, since every row's list of bit fields is empty. -/
def decodeTableWord (_nbits _w : Nat) : Option Instr := none

/-! ## The core's instruction words (R326 to R328) -/

/-- A register field. -/
def regBits (d : Fin 16) : BitVec 4 := BitVec.ofNat 4 d.val

/-- The register that a field names. -/
def regOf (v : BitVec 4) : Fin 16 := ⟨v.toNat, v.isLt⟩

/-- A word from its major opcode, the three register fields and the low 14 bits (R326). -/
def word5 (major : BitVec 6) (d a b : Fin 16) (low : BitVec 14) : BitVec 32 :=
  major ++ regBits d ++ regBits a ++ regBits b ++ low

/-- A word of form U (R326), with zeros in bits [21:18], to which the form gives no field. -/
def wordU (major : BitVec 6) (d : Fin 16) (imm : BitVec 18) : BitVec 32 := major ++ regBits d ++ 0#4 ++ imm

/-- The low 14 bits of form R: zero above the function code. -/
def funcBits (f : BitVec 6) : BitVec 14 := 0#8 ++ f

/-- The word of an instruction of the core; none for any other command. -/
def encodeCore (i : Instr) : Option (BitVec 32) :=
  let r := fun (f : BitVec 6) (d a b : Fin 16) => some (word5 0x00 d a b (funcBits f))
  let i14 := fun (m : BitVec 6) (d a : Fin 16) (imm : BitVec 14) => some (word5 m d a 0 imm)
  let ev := fun (m : BitVec 6) (d : Fin 16) (n : BitVec 4) => some (word5 m d 0 0 (0#10 ++ n))
  match i with
  | .add d a b => r 0x01 d a b
  | .sub d a b => r 0x02 d a b
  | .and d a b => r 0x03 d a b
  | .or d a b => r 0x04 d a b
  | .xor d a b => r 0x05 d a b
  | .nor d a b => r 0x06 d a b
  | .sll d a b => r 0x08 d a b
  | .srl d a b => r 0x09 d a b
  | .sra d a b => r 0x0A d a b
  | .slt d a b => r 0x0C d a b
  | .sltu d a b => r 0x0D d a b
  | .min d a b => r 0x0E d a b
  | .max d a b => r 0x0F d a b
  | .mul d a b => r 0x10 d a b
  | .mulh d a b => r 0x11 d a b
  | .mulhu d a b => r 0x12 d a b
  | .div d a b => r 0x14 d a b
  | .divu d a b => r 0x15 d a b
  | .rem d a b => r 0x16 d a b
  | .remu d a b => r 0x17 d a b
  | .clz d a => r 0x18 d a 0
  | .popc d a => r 0x19 d a 0
  | .addi d a m => i14 0x01 d a m
  | .andi d a m => i14 0x02 d a m
  | .ori d a m => i14 0x03 d a m
  | .xori d a m => i14 0x04 d a m
  | .slti d a m => i14 0x05 d a m
  | .sltiu d a m => i14 0x06 d a m
  | .slli d a n => i14 0x07 d a (0#9 ++ n)
  | .srli d a n => i14 0x08 d a (0#9 ++ n)
  | .srai d a n => i14 0x09 d a (0#9 ++ n)
  | .bext d a p n => i14 0x0A d a (0#4 ++ n ++ p)
  | .bins d a p n => i14 0x0B d a (0#4 ++ n ++ p)
  | .lui d m => some (wordU 0x0C d m)
  | .auipc d m => some (wordU 0x0D d m)
  | .lb d a m => i14 0x10 d a m
  | .lbu d a m => i14 0x11 d a m
  | .lh d a m => i14 0x12 d a m
  | .lhu d a m => i14 0x13 d a m
  | .lw d a m => i14 0x14 d a m
  | .sb d a m => i14 0x18 d a m
  | .sh d a m => i14 0x19 d a m
  | .sw d a m => i14 0x1A d a m
  | .beq a b o => some (word5 0x20 0 a b o)
  | .bne a b o => some (word5 0x21 0 a b o)
  | .blt a b o => some (word5 0x22 0 a b o)
  | .bge a b o => some (word5 0x23 0 a b o)
  | .bltu a b o => some (word5 0x24 0 a b o)
  | .bgeu a b o => some (word5 0x25 0 a b o)
  | .jal d m => some (wordU 0x28 d m)
  | .jalr d a m => i14 0x29 d a m
  | .sysrd d n => i14 0x30 d 0 n
  | .syswr a n => i14 0x31 0 a n
  | .eret => i14 0x32 0 0 0
  | .waitev n => ev 0x33 0 n
  | .pollev d n => ev 0x34 d n
  | .setev n => ev 0x35 0 n
  | .fence => i14 0x36 0 0 0
  | .iflush => i14 0x37 0 0 0
  | .trap m => i14 0x38 0 0 m
  | .brk => i14 0x39 0 0 0
  | _ => none

/-- The instruction of form R with a function code; none where the code is reserved or b is not zero where it must be (R328). -/
def decodeFunc (f : BitVec 6) (d a b : Fin 16) : Option Instr :=
  match f.toNat with
  | 0x01 => some (.add d a b)
  | 0x02 => some (.sub d a b)
  | 0x03 => some (.and d a b)
  | 0x04 => some (.or d a b)
  | 0x05 => some (.xor d a b)
  | 0x06 => some (.nor d a b)
  | 0x08 => some (.sll d a b)
  | 0x09 => some (.srl d a b)
  | 0x0A => some (.sra d a b)
  | 0x0C => some (.slt d a b)
  | 0x0D => some (.sltu d a b)
  | 0x0E => some (.min d a b)
  | 0x0F => some (.max d a b)
  | 0x10 => some (.mul d a b)
  | 0x11 => some (.mulh d a b)
  | 0x12 => some (.mulhu d a b)
  | 0x14 => some (.div d a b)
  | 0x15 => some (.divu d a b)
  | 0x16 => some (.rem d a b)
  | 0x17 => some (.remu d a b)
  | 0x18 => if b = 0 then some (.clz d a) else none
  | 0x19 => if b = 0 then some (.popc d a) else none
  | _ => none

/-- An instruction whose fields marked zero are zero. -/
def ifZero (zero : Bool) (i : Instr) : Option Instr := if zero then some i else none

/-- The instruction that a word of the core spells; none for a word that raises ILLEGAL by its encoding (R326). A bit-field instruction whose
field passes bit 31 is decoded, and raises ILLEGAL when it is executed (R328). Bits [21:18] of form U, which no table marks zero, are not looked
at (DEDUCED, log entry 60). -/
def decodeCore (w : BitVec 32) : Option Instr :=
  let d := regOf (w.extractLsb' 22 4)
  let a := regOf (w.extractLsb' 18 4)
  let b := regOf (w.extractLsb' 14 4)
  let m := w.extractLsb' 0 14
  let u := w.extractLsb' 0 18
  let n5 := w.extractLsb' 0 5
  let k5 := w.extractLsb' 5 5
  let e4 := w.extractLsb' 0 4
  let bz := b = 0
  let shz := bz ∧ w.extractLsb' 5 9 = 0
  let bfz := bz ∧ w.extractLsb' 10 4 = 0
  let evz := a = 0 ∧ bz ∧ w.extractLsb' 4 10 = 0
  let none5 := d = 0 ∧ a = 0 ∧ bz ∧ m = 0
  match (w.extractLsb' 26 6).toNat with
  | 0x00 => if w.extractLsb' 6 8 = 0 then decodeFunc (w.extractLsb' 0 6) d a b else none
  | 0x01 => ifZero bz (.addi d a m)
  | 0x02 => ifZero bz (.andi d a m)
  | 0x03 => ifZero bz (.ori d a m)
  | 0x04 => ifZero bz (.xori d a m)
  | 0x05 => ifZero bz (.slti d a m)
  | 0x06 => ifZero bz (.sltiu d a m)
  | 0x07 => ifZero shz (.slli d a n5)
  | 0x08 => ifZero shz (.srli d a n5)
  | 0x09 => ifZero shz (.srai d a n5)
  | 0x0A => ifZero bfz (.bext d a n5 k5)
  | 0x0B => ifZero bfz (.bins d a n5 k5)
  | 0x0C => some (.lui d u)
  | 0x0D => some (.auipc d u)
  | 0x10 => ifZero bz (.lb d a m)
  | 0x11 => ifZero bz (.lbu d a m)
  | 0x12 => ifZero bz (.lh d a m)
  | 0x13 => ifZero bz (.lhu d a m)
  | 0x14 => ifZero bz (.lw d a m)
  | 0x18 => ifZero bz (.sb d a m)
  | 0x19 => ifZero bz (.sh d a m)
  | 0x1A => ifZero bz (.sw d a m)
  | 0x20 => ifZero (d = 0) (.beq a b m)
  | 0x21 => ifZero (d = 0) (.bne a b m)
  | 0x22 => ifZero (d = 0) (.blt a b m)
  | 0x23 => ifZero (d = 0) (.bge a b m)
  | 0x24 => ifZero (d = 0) (.bltu a b m)
  | 0x25 => ifZero (d = 0) (.bgeu a b m)
  | 0x28 => some (.jal d u)
  | 0x29 => ifZero bz (.jalr d a m)
  | 0x30 => ifZero (a = 0 ∧ bz) (.sysrd d m)
  | 0x31 => ifZero (d = 0 ∧ bz) (.syswr a m)
  | 0x32 => ifZero (decide none5) .eret
  | 0x33 => ifZero (d = 0 ∧ evz) (.waitev e4)
  | 0x34 => ifZero evz (.pollev d e4)
  | 0x35 => ifZero (d = 0 ∧ evz) (.setev e4)
  | 0x36 => ifZero none5 .fence
  | 0x37 => ifZero none5 .iflush
  | 0x38 => ifZero (d = 0 ∧ a = 0 ∧ bz) (.trap m)
  | 0x39 => ifZero none5 .brk
  | _ => none

end Sys2Proof
end

