-- ==== Sys2Proof/Config.lean ====
section
/-! DEFINITION. What one implementation fixes and the free values of the model: constants without a body, so that no proof can see
what they are. Each has an entry in the assumption log. -/

namespace Sys2Proof.Config

/-- What a Boulevard byte holds that nothing has written since its contents became undefined (R274): by the count of such
losses and the 40-bit address. Log entry 2. UNVERIFIED: log entry 2. -/
opaque boulevardByte : Nat → Nat → Byte

/-- What a byte of the download area holds that nothing has written since a boot from it, which retains nothing of it (R69): by the count of
such boots since the Square was zeroed and the address. Log entry 24. UNVERIFIED: log entry 24. -/
opaque downloadByte : Nat → Nat → Byte

/-- The refresh multiplier of an MR4 refresh-rate code as JESD209-5B assigns it, in classes: 0 is a multiplier of 1 or less, 1
above 1 and at most 2, 2 above 2 (R275 fixes how limit codes count). The standard's table is not in the spec. Log entry 5. UNVERIFIED: log entry 5. -/
opaque mr4Class : Nat → Fin 3

/-- A fresh value where the spec leaves one open: the argument is the state's counter of draws. Log entry 6. DESIGN CHOICE: log entry 6. -/
opaque freeNat : Nat → Nat

/-- The contents of the OTP word that the factory programmed (R83), by word number. Log entry 7. UNVERIFIED: log entry 7. -/
opaque otpWord : Nat → Nat

/-- The factory mid-level correction of a sub-converter, in 1/65536 LSB, and the factory span of its reference, in 1/65536 LSB (R117).
The factory tables have no layout in the spec (R77). Log entry 10. UNVERIFIED: log entry 10. -/
opaque factoryMid : Nat → Int
opaque factorySpan : Nat → Nat

/-- The position u - 1 (0 to 255) of a crossing in the reserved interpolation code 3, by the four samples (R150, R181). Log entry 16.
UNVERIFIED: log entry 16. -/
opaque interpReserved : List Int → Fin 256

/-- The steps of 15.625 fs into which a skew detector converts its ratio (R118), from CONFIG, twice the sum of e·s and the sum of s². The spec
states no formula. Log entry 108. UNVERIFIED: log entry 108. -/
opaque skewSteps : Nat → Int → Nat → Int

end Sys2Proof.Config
end

