-- ==== Sys2Proof/Machine/Regs.lean ====
section
/-! DEFINITION. Every register of R548, field by field, with addresses (R547, R548), bit places, access codes (R575),
reset values and Kept marks as the chapters' field tables give them. An instance register takes its instance number n. -/

namespace Sys2Proof.Machine

/-- The watermark resets of queues 0 to 15 (R318). -/
def evtQWmReset (q : Nat) : Nat :=
  match q with
  | 0 => 128 | 1 => 32 | 2 => 32 | 3 => 32 | 4 => 32 | 5 => 24 | 6 => 16 | 7 => 8 | 8 => 8
  | 9 => 4 | 10 => 4 | 11 => 8 | 12 => 8 | 13 => 16 | 14 => 16 | _ => 1

namespace SYS_ID
/-- Address of SYS_ID (R548). -/
abbrev addr : Nat := 0x40000000
/-- SYS_ID.MINOR, R15. -/
abbrev MINOR : Fld := ⟨0x40000000, 0, 4, 0⟩
/-- SYS_ID.MAJOR, R15. -/
abbrev MAJOR : Fld := ⟨0x40000000, 4, 4, 12⟩
/-- SYS_ID.PART, R15. -/
abbrev PART : Fld := ⟨0x40000000, 16, 16, 1664⟩
end SYS_ID
namespace SYS_UID_LO
/-- Address of SYS_UID_LO (R548). -/
abbrev addr : Nat := 0x40000004
/-- SYS_UID_LO.ID, R16. -/
abbrev ID : Fld := ⟨0x40000004, 0, 32, 0⟩
end SYS_UID_LO
namespace SYS_UID_HI
/-- Address of SYS_UID_HI (R548). -/
abbrev addr : Nat := 0x40000008
/-- SYS_UID_HI.ID, R16. -/
abbrev ID : Fld := ⟨0x40000008, 0, 32, 0⟩
end SYS_UID_HI
namespace SYS_MODE
/-- Address of SYS_MODE (R548). -/
abbrev addr : Nat := 0x40000010
/-- SYS_MODE.MODE, R17. -/
abbrev MODE : Fld := ⟨0x40000010, 0, 3, 0⟩
/-- SYS_MODE.ACTIVE, R17. -/
abbrev ACTIVE : Fld := ⟨0x40000010, 8, 3, 0⟩
/-- SYS_MODE.MODE_REFUSED, R17. -/
abbrev MODE_REFUSED : Fld := ⟨0x40000010, 16, 1, 0⟩
/-- SYS_MODE.REFUSE_CAUSE, R17. -/
abbrev REFUSE_CAUSE : Fld := ⟨0x40000010, 17, 3, 0⟩
/-- SYS_MODE.SWAP_PENDING, R17. -/
abbrev SWAP_PENDING : Fld := ⟨0x40000010, 20, 1, 0⟩
end SYS_MODE
namespace SYS_BOOT_STAT
/-- Address of SYS_BOOT_STAT (R548). -/
abbrev addr : Nat := 0x40000020
/-- SYS_BOOT_STAT.PATH, R101. -/
abbrev PATH : Fld := ⟨0x40000020, 0, 2, 0⟩
/-- SYS_BOOT_STAT.SLOT, R101. -/
abbrev SLOT : Fld := ⟨0x40000020, 2, 2, 3⟩
/-- SYS_BOOT_STAT.FALLBACK, R101. -/
abbrev FALLBACK : Fld := ⟨0x40000020, 4, 1, 0⟩
/-- SYS_BOOT_STAT.OCT_FALLBACK, R101. -/
abbrev OCT_FALLBACK : Fld := ⟨0x40000020, 5, 1, 0⟩
/-- SYS_BOOT_STAT.AUTH_OK, R101. -/
abbrev AUTH_OK : Fld := ⟨0x40000020, 6, 1, 0⟩
/-- SYS_BOOT_STAT.AUTH_EN, R101. -/
abbrev AUTH_EN : Fld := ⟨0x40000020, 7, 1, 0⟩
/-- SYS_BOOT_STAT.DONE, R101. -/
abbrev DONE : Fld := ⟨0x40000020, 8, 1, 0⟩
/-- SYS_BOOT_STAT.HOST_WAIT, R101. -/
abbrev HOST_WAIT : Fld := ⟨0x40000020, 9, 1, 0⟩
/-- SYS_BOOT_STAT.FAIL_A, R101. -/
abbrev FAIL_A : Fld := ⟨0x40000020, 16, 8, 0⟩
/-- SYS_BOOT_STAT.FAIL_B, R101. -/
abbrev FAIL_B : Fld := ⟨0x40000020, 24, 8, 0⟩
end SYS_BOOT_STAT
namespace SYS_BOOT_CTRL
/-- Address of SYS_BOOT_CTRL (R548). -/
abbrev addr : Nat := 0x40000024
/-- SYS_BOOT_CTRL.TRY_SLOT, R102. -/
abbrev TRY_SLOT : Fld := ⟨0x40000024, 0, 2, 0⟩
/-- SYS_BOOT_CTRL.GO, R102. -/
abbrev GO : Fld := ⟨0x40000024, 8, 1, 0⟩
end SYS_BOOT_CTRL
namespace SYS_BOOT_CFG
/-- Address of SYS_BOOT_CFG (R548). -/
abbrev addr : Nat := 0x40000028
/-- SYS_BOOT_CFG.AUTOSTART, R103. -/
abbrev AUTOSTART : Fld := ⟨0x40000028, 0, 1, 0⟩
/-- SYS_BOOT_CFG.ABSENT_POLICY, R103. -/
abbrev ABSENT_POLICY : Fld := ⟨0x40000028, 1, 2, 0⟩
end SYS_BOOT_CFG
namespace SYS_IMG_TAG
/-- Address of SYS_IMG_TAG (R548). -/
abbrev addr : Nat := 0x4000002C
/-- SYS_IMG_TAG.TAG, R104. -/
abbrev TAG : Fld := ⟨0x4000002C, 0, 32, 0⟩
end SYS_IMG_TAG
namespace SYS_IMG_SEQ
/-- Address of SYS_IMG_SEQ (R548). -/
abbrev addr : Nat := 0x40000030
/-- SYS_IMG_SEQ.SEQ, R104. -/
abbrev SEQ : Fld := ⟨0x40000030, 0, 32, 0⟩
end SYS_IMG_SEQ
namespace SYS_LEDGER
/-- Address of SYS_LEDGER (R548). -/
abbrev addr : Nat := 0x40000034
/-- SYS_LEDGER.STATE, R105. -/
abbrev STATE : Fld := ⟨0x40000034, 0, 2, 0⟩
/-- SYS_LEDGER.COPY, R105. -/
abbrev COPY : Fld := ⟨0x40000034, 2, 1, 0⟩
/-- SYS_LEDGER.WRITING, R105. -/
abbrev WRITING : Fld := ⟨0x40000034, 3, 1, 0⟩
/-- SYS_LEDGER.CLEAR, R105. -/
abbrev CLEAR : Fld := ⟨0x40000034, 4, 1, 0⟩
/-- SYS_LEDGER.REVERTED, R105. -/
abbrev REVERTED : Fld := ⟨0x40000034, 5, 6, 0⟩
/-- SYS_LEDGER.GEN, R105. -/
abbrev GEN : Fld := ⟨0x40000034, 16, 16, 0⟩
end SYS_LEDGER
namespace SYS_SEQ_CTRL
/-- Address of SYS_SEQ_CTRL (R548). -/
abbrev addr : Nat := 0x40000040
/-- SYS_SEQ_CTRL.ABORT, R353. -/
abbrev ABORT : Fld := ⟨0x40000040, 0, 1, 0⟩
end SYS_SEQ_CTRL
namespace SYS_SEQ_STAT
/-- Address of SYS_SEQ_STAT (R548). -/
abbrev addr : Nat := 0x40000044
/-- SYS_SEQ_STAT.STATE, R353. -/
abbrev STATE : Fld := ⟨0x40000044, 0, 3, 0⟩
/-- SYS_SEQ_STAT.LVL, R353. -/
abbrev LVL : Fld := ⟨0x40000044, 4, 3, 0⟩
/-- SYS_SEQ_STAT.ABORTS, R353. -/
abbrev ABORTS : Fld := ⟨0x40000044, 8, 8, 0⟩
/-- SYS_SEQ_STAT.CODE, R353. -/
abbrev CODE : Fld := ⟨0x40000044, 16, 5, 0⟩
end SYS_SEQ_STAT
namespace SYS_SEQ_PC
/-- Address of SYS_SEQ_PC (R548). -/
abbrev addr : Nat := 0x40000048
/-- SYS_SEQ_PC.PC, R353. -/
abbrev PC : Fld := ⟨0x40000048, 0, 32, 0⟩
end SYS_SEQ_PC
namespace SYS_SEQ_COV_RD_LO
/-- Address of SYS_SEQ_COV_RD_LO (R548). -/
abbrev addr : Nat := 0x40000050
/-- SYS_SEQ_COV_RD_LO.BANKS, R374. -/
abbrev BANKS : Fld := ⟨0x40000050, 0, 32, 0⟩
end SYS_SEQ_COV_RD_LO
namespace SYS_SEQ_COV_RD_HI
/-- Address of SYS_SEQ_COV_RD_HI (R548). -/
abbrev addr : Nat := 0x40000054
/-- SYS_SEQ_COV_RD_HI.BANKS, R374. -/
abbrev BANKS : Fld := ⟨0x40000054, 0, 32, 0⟩
end SYS_SEQ_COV_RD_HI
namespace SYS_SEQ_COV_MW_LO
/-- Address of SYS_SEQ_COV_MW_LO (R548). -/
abbrev addr : Nat := 0x40000058
/-- SYS_SEQ_COV_MW_LO.BANKS, R374. -/
abbrev BANKS : Fld := ⟨0x40000058, 0, 32, 0⟩
end SYS_SEQ_COV_MW_LO
namespace SYS_SEQ_COV_MW_HI
/-- Address of SYS_SEQ_COV_MW_HI (R548). -/
abbrev addr : Nat := 0x4000005C
/-- SYS_SEQ_COV_MW_HI.BANKS, R374. -/
abbrev BANKS : Fld := ⟨0x4000005C, 0, 32, 0⟩
end SYS_SEQ_COV_MW_HI
namespace SYS_SEQ_COV
/-- Address of SYS_SEQ_COV (R548). -/
abbrev addr : Nat := 0x40000060
/-- SYS_SEQ_COV.BLV, R374. -/
abbrev BLV : Fld := ⟨0x40000060, 0, 2, 0⟩
/-- SYS_SEQ_COV.WAIT, R374. -/
abbrev WAIT : Fld := ⟨0x40000060, 8, 1, 0⟩
/-- SYS_SEQ_COV.LOST, R374. -/
abbrev LOST : Fld := ⟨0x40000060, 9, 1, 0⟩
/-- SYS_SEQ_COV.DIRTY, R374. -/
abbrev DIRTY : Fld := ⟨0x40000060, 10, 1, 0⟩
end SYS_SEQ_COV
namespace SYS_SEQ_XIP
/-- Address of SYS_SEQ_XIP (R548). -/
abbrev addr : Nat := 0x40000064
/-- SYS_SEQ_XIP.HITS, R374. -/
abbrev HITS : Fld := ⟨0x40000064, 0, 16, 0⟩
/-- SYS_SEQ_XIP.MISSES, R374. -/
abbrev MISSES : Fld := ⟨0x40000064, 16, 16, 0⟩
end SYS_SEQ_XIP
namespace PWR_CTRL
/-- Address of PWR_CTRL (R548). -/
abbrev addr : Nat := 0x40010000
/-- PWR_CTRL.TARGET, R527. -/
abbrev TARGET : Fld := ⟨0x40010000, 0, 3, 0⟩
/-- PWR_CTRL.REST, R527. -/
abbrev REST : Fld := ⟨0x40010000, 4, 3, 1⟩
/-- PWR_CTRL.HOLD_RUN, R527. -/
abbrev HOLD_RUN : Fld := ⟨0x40010000, 8, 1, 0⟩
end PWR_CTRL
namespace PWR_STAT
/-- Address of PWR_STAT (R548). -/
abbrev addr : Nat := 0x40010004
/-- PWR_STAT.RUNG, R527. -/
abbrev RUNG : Fld := ⟨0x40010004, 0, 3, 2⟩
/-- PWR_STAT.MOVING, R527. -/
abbrev MOVING : Fld := ⟨0x40010004, 3, 1, 0⟩
/-- PWR_STAT.REFUSED, R527. -/
abbrev REFUSED : Fld := ⟨0x40010004, 4, 1, 0⟩
/-- PWR_STAT.CAUSE, R527. -/
abbrev CAUSE : Fld := ⟨0x40010004, 5, 3, 0⟩
/-- PWR_STAT.WAKE_CAUSE, R527. -/
abbrev WAKE_CAUSE : Fld := ⟨0x40010004, 8, 4, 0⟩
/-- PWR_STAT.BLV_WAIT, R527. -/
abbrev BLV_WAIT : Fld := ⟨0x40010004, 12, 1, 0⟩
/-- PWR_STAT.PG, R527. -/
abbrev PG : Fld := ⟨0x40010004, 16, 1, 0⟩
end PWR_STAT
namespace PWR_WAKE_EN
/-- Address of PWR_WAKE_EN (R548). -/
abbrev addr : Nat := 0x40010008
/-- PWR_WAKE_EN.EN, R527. -/
abbrev EN : Fld := ⟨0x40010008, 0, 8, 7⟩
end PWR_WAKE_EN
namespace PWR_WAKE_TMR
/-- Address of PWR_WAKE_TMR (R548). -/
abbrev addr : Nat := 0x4001000C
/-- PWR_WAKE_TMR.CYCLES, R527. -/
abbrev CYCLES : Fld := ⟨0x4001000C, 0, 32, 0⟩
end PWR_WAKE_TMR
namespace PWR_AVS_LIM
/-- Address of PWR_AVS_LIM (R548). -/
abbrev addr : Nat := 0x40010010
/-- PWR_AVS_LIM.FLOOR, R527. -/
abbrev FLOOR : Fld := ⟨0x40010010, 0, 6, 0⟩
/-- PWR_AVS_LIM.CEIL, R527. -/
abbrev CEIL : Fld := ⟨0x40010010, 8, 6, 40⟩
end PWR_AVS_LIM
namespace PWR_AVS_CFG
/-- Address of PWR_AVS_CFG (R548). -/
abbrev addr : Nat := 0x40010014
/-- PWR_AVS_CFG.TGT, R527. -/
abbrev TGT : Fld := ⟨0x40010014, 0, 8, 40⟩
/-- PWR_AVS_CFG.HYST, R527. -/
abbrev HYST : Fld := ⟨0x40010014, 8, 8, 20⟩
end PWR_AVS_CFG
namespace PWR_AVS_STAT
/-- Address of PWR_AVS_STAT (R548). -/
abbrev addr : Nat := 0x40010018
/-- PWR_AVS_STAT.VID, R527. -/
abbrev VID : Fld := ⟨0x40010018, 0, 6, 30⟩
/-- PWR_AVS_STAT.PINNED, R527. -/
abbrev PINNED : Fld := ⟨0x40010018, 8, 1, 0⟩
/-- PWR_AVS_STAT.NEG, R527. -/
abbrev NEG : Fld := ⟨0x40010018, 9, 1, 0⟩
/-- PWR_AVS_STAT.MARGIN, R527. -/
abbrev MARGIN : Fld := ⟨0x40010018, 16, 16, 0⟩
end PWR_AVS_STAT
namespace PWR_CNT
/-- Address of PWR_CNT (R548). -/
abbrev addr : Nat := 0x4001001C
/-- PWR_CNT.PINS, R527. -/
abbrev PINS : Fld := ⟨0x4001001C, 0, 16, 0⟩
/-- PWR_CNT.MOVES, R527. -/
abbrev MOVES : Fld := ⟨0x4001001C, 16, 16, 0⟩
end PWR_CNT
namespace CLK_STAT
/-- Address of CLK_STAT (R548). -/
abbrev addr : Nat := 0x40020000
/-- CLK_STAT.IN_USE, R509. -/
abbrev IN_USE : Fld := ⟨0x40020000, 0, 3, 0⟩
/-- CLK_STAT.HOLDOVER, R509. -/
abbrev HOLDOVER : Fld := ⟨0x40020000, 4, 1, 0⟩
/-- CLK_STAT.INUSE_NOTGOOD, R509. -/
abbrev INUSE_NOTGOOD : Fld := ⟨0x40020000, 5, 1, 0⟩
/-- CLK_STAT.GLIDE, R509. -/
abbrev GLIDE : Fld := ⟨0x40020000, 6, 1, 0⟩
/-- CLK_STAT.LOCK, R509. -/
abbrev LOCK : Fld := ⟨0x40020000, 7, 1, 0⟩
/-- CLK_STAT.TIME_REFUSED, R509. -/
abbrev TIME_REFUSED : Fld := ⟨0x40020000, 8, 1, 0⟩
/-- CLK_STAT.SWITCHES, R509. -/
abbrev SWITCHES : Fld := ⟨0x40020000, 16, 16, 0⟩
end CLK_STAT
namespace CLK_REF_CTRL
/-- Address of CLK_REF_CTRL (R548). -/
abbrev addr : Nat := 0x40020004
/-- CLK_REF_CTRL.EN, R509. -/
abbrev EN : Fld := ⟨0x40020004, 0, 5, 31⟩
/-- CLK_REF_CTRL.EXT_FREQ, R509. -/
abbrev EXT_FREQ : Fld := ⟨0x40020004, 8, 1, 0⟩
/-- CLK_REF_CTRL.PREFER, R509. -/
abbrev PREFER : Fld := ⟨0x40020004, 9, 1, 0⟩
/-- CLK_REF_CTRL.REVERT, R509. -/
abbrev REVERT : Fld := ⟨0x40020004, 10, 1, 1⟩
/-- CLK_REF_CTRL.FORCE, R509. -/
abbrev FORCE : Fld := ⟨0x40020004, 12, 3, 0⟩
/-- CLK_REF_CTRL.FORCE_GO, R509. -/
abbrev FORCE_GO : Fld := ⟨0x40020004, 15, 1, 0⟩
/-- CLK_REF_CTRL.FORCE_REFUSED, R509. -/
abbrev FORCE_REFUSED : Fld := ⟨0x40020004, 16, 1, 0⟩
end CLK_REF_CTRL
namespace CLK_REF_THR
/-- Address of CLK_REF_THR (R548). -/
abbrev addr : Nat := 0x40020008
/-- CLK_REF_THR.WARN, R509. -/
abbrev WARN : Fld := ⟨0x40020008, 0, 8, 20⟩
/-- CLK_REF_THR.FAIL, R509. -/
abbrev FAIL : Fld := ⟨0x40020008, 16, 7, 10⟩
end CLK_REF_THR
namespace CLK_REF_CLASS
/-- Address of CLK_REF_CLASS (R548). -/
abbrev addr : Nat := 0x4002000C
/-- CLK_REF_CLASS.CLASS, R509. -/
abbrev CLASS : Fld := ⟨0x4002000C, 0, 20, 0⟩
end CLK_REF_CLASS
namespace CLK_REF_ERR1
/-- Address of CLK_REF_ERR1 of instance n (R548). -/
abbrev addr (n : Nat) : Nat := 0x40020010 + 0x4 * n
/-- CLK_REF_ERR1.E of instance n, R509. -/
abbrev E (n : Nat) : Fld := ⟨0x40020010 + 0x4 * n, 0, 32, 0⟩
end CLK_REF_ERR1
namespace CLK_REF_ERR10
/-- Address of CLK_REF_ERR10 of instance n (R548). -/
abbrev addr (n : Nat) : Nat := 0x40020030 + 0x4 * n
/-- CLK_REF_ERR10.E of instance n, R509. -/
abbrev E (n : Nat) : Fld := ⟨0x40020030 + 0x4 * n, 0, 32, 0⟩
end CLK_REF_ERR10
namespace CLK_XTAL_ERR
/-- Address of CLK_XTAL_ERR (R548). -/
abbrev addr : Nat := 0x40020050
/-- CLK_XTAL_ERR.X, R509. -/
abbrev X : Fld := ⟨0x40020050, 0, 32, 0⟩
end CLK_XTAL_ERR
namespace CLK_PPS_CTRL
/-- Address of CLK_PPS_CTRL (R548). -/
abbrev addr : Nat := 0x40020060
/-- CLK_PPS_CTRL.DISC, R509. -/
abbrev DISC : Fld := ⟨0x40020060, 0, 1, 0⟩
/-- CLK_PPS_CTRL.POL, R509. -/
abbrev POL : Fld := ⟨0x40020060, 1, 1, 0⟩
end CLK_PPS_CTRL
namespace CLK_PPS_OFS
/-- Address of CLK_PPS_OFS (R548). -/
abbrev addr : Nat := 0x40020064
/-- CLK_PPS_OFS.OFS, R509. -/
abbrev OFS : Fld := ⟨0x40020064, 0, 32, 0⟩
end CLK_PPS_OFS
namespace CLK_PPS_RES
/-- Address of CLK_PPS_RES (R548). -/
abbrev addr : Nat := 0x40020068
/-- CLK_PPS_RES.R, R509. -/
abbrev R : Fld := ⟨0x40020068, 0, 32, 0⟩
end CLK_PPS_RES
namespace CLK_PPS_CNT
/-- Address of CLK_PPS_CNT (R548). -/
abbrev addr : Nat := 0x4002006C
/-- CLK_PPS_CNT.ACCEPT, R509. -/
abbrev ACCEPT : Fld := ⟨0x4002006C, 0, 16, 0⟩
/-- CLK_PPS_CNT.REJECT, R509. -/
abbrev REJECT : Fld := ⟨0x4002006C, 16, 16, 0⟩
end CLK_PPS_CNT
namespace CLK_TIME_SET_LO
/-- Address of CLK_TIME_SET_LO (R548). -/
abbrev addr : Nat := 0x40020070
/-- CLK_TIME_SET_LO.TICK, R509. -/
abbrev TICK : Fld := ⟨0x40020070, 0, 32, 0⟩
end CLK_TIME_SET_LO
namespace CLK_TIME_SET_HI
/-- Address of CLK_TIME_SET_HI (R548). -/
abbrev addr : Nat := 0x40020074
/-- CLK_TIME_SET_HI.TICK, R509. -/
abbrev TICK : Fld := ⟨0x40020074, 0, 32, 0⟩
end CLK_TIME_SET_HI
namespace CLK_TIME_CMD
/-- Address of CLK_TIME_CMD (R548). -/
abbrev addr : Nat := 0x40020078
/-- CLK_TIME_CMD.GO, R509. -/
abbrev GO : Fld := ⟨0x40020078, 0, 1, 0⟩
end CLK_TIME_CMD
namespace CLK_GATE
/-- Address of CLK_GATE of instance n (R548). -/
abbrev addr (n : Nat) : Nat := 0x40020080 + 0x4 * n
/-- CLK_GATE.RUN of instance n, R509. -/
abbrev RUN (n : Nat) : Fld := ⟨0x40020080 + 0x4 * n, 0, 32, 0⟩
end CLK_GATE
namespace CLK_XW_STAT
/-- Address of CLK_XW_STAT (R548). -/
abbrev addr : Nat := 0x400200A0
/-- CLK_XW_STAT.SLIPS, R509. -/
abbrev SLIPS : Fld := ⟨0x400200A0, 0, 16, 0⟩
/-- CLK_XW_STAT.DOMAIN, R509. -/
abbrev DOMAIN : Fld := ⟨0x400200A0, 16, 8, 0⟩
end CLK_XW_STAT
namespace AVE_SC_CTRL
/-- Address of AVE_SC_CTRL of instance n (R548). -/
abbrev addr (n : Nat) : Nat := 0x40100000 + 0x100 * n
/-- AVE_SC_CTRL.MAPOUT of instance n, R135. -/
abbrev MAPOUT (n : Nat) : Fld := ⟨0x40100000 + 0x100 * n, 0, 1, 0⟩
/-- AVE_SC_CTRL.REINSTATE of instance n, R135. -/
abbrev REINSTATE (n : Nat) : Fld := ⟨0x40100000 + 0x100 * n, 1, 1, 0⟩
/-- AVE_SC_CTRL.FORCE_FAIL of instance n, R135. -/
abbrev FORCE_FAIL (n : Nat) : Fld := ⟨0x40100000 + 0x100 * n, 2, 1, 0⟩
end AVE_SC_CTRL
namespace AVE_SC_STAT
/-- Address of AVE_SC_STAT of instance n (R548). -/
abbrev addr (n : Nat) : Nat := 0x40100004 + 0x100 * n
/-- AVE_SC_STAT.STATE of instance n, R136. -/
abbrev STATE (n : Nat) : Fld := ⟨0x40100004 + 0x100 * n, 0, 3, if n % 17 = 16 then 1 else 0⟩
/-- AVE_SC_STAT.POS of instance n, R136. -/
abbrev POS (n : Nat) : Fld := ⟨0x40100004 + 0x100 * n, 4, 4, if n % 17 = 16 then 0 else n % 17⟩
/-- AVE_SC_STAT.CAUSE of instance n, R136. -/
abbrev CAUSE (n : Nat) : Fld := ⟨0x40100004 + 0x100 * n, 8, 3, 0⟩
/-- AVE_SC_STAT.MISMATCH of instance n, R136. -/
abbrev MISMATCH (n : Nat) : Fld := ⟨0x40100004 + 0x100 * n, 11, 2, 0⟩
end AVE_SC_STAT
namespace AVE_SC_OFFSET
/-- Address of AVE_SC_OFFSET of instance n (R548). -/
abbrev addr (n : Nat) : Nat := 0x40100008 + 0x100 * n
/-- AVE_SC_OFFSET.OFFSET of instance n, R137. -/
abbrev OFFSET (n : Nat) : Fld := ⟨0x40100008 + 0x100 * n, 0, 16, 0⟩
end AVE_SC_OFFSET
namespace AVE_SC_GAIN
/-- Address of AVE_SC_GAIN of instance n (R548). -/
abbrev addr (n : Nat) : Nat := 0x4010000C + 0x100 * n
/-- AVE_SC_GAIN.GAIN of instance n, R137. -/
abbrev GAIN (n : Nat) : Fld := ⟨0x4010000C + 0x100 * n, 0, 16, 32768⟩
end AVE_SC_GAIN
namespace AVE_SC_SKEW
/-- Address of AVE_SC_SKEW of instance n (R548). -/
abbrev addr (n : Nat) : Nat := 0x40100010 + 0x100 * n
/-- AVE_SC_SKEW.SKEW of instance n, R137. -/
abbrev SKEW (n : Nat) : Fld := ⟨0x40100010 + 0x100 * n, 0, 10, 0⟩
end AVE_SC_SKEW
namespace AVE_SC_SKEW_EST
/-- Address of AVE_SC_SKEW_EST of instance n (R548). -/
abbrev addr (n : Nat) : Nat := 0x40100014 + 0x100 * n
/-- AVE_SC_SKEW_EST.EST of instance n, R137. -/
abbrev EST (n : Nat) : Fld := ⟨0x40100014 + 0x100 * n, 0, 10, 0⟩
/-- AVE_SC_SKEW_EST.VALID of instance n, R137. -/
abbrev VALID (n : Nat) : Fld := ⟨0x40100014 + 0x100 * n, 16, 1, 0⟩
end AVE_SC_SKEW_EST
namespace AVE_SC_NOISE
/-- Address of AVE_SC_NOISE of instance n (R548). -/
abbrev addr (n : Nat) : Nat := 0x40100018 + 0x100 * n
/-- AVE_SC_NOISE.NOISE of instance n, R137. -/
abbrev NOISE (n : Nat) : Fld := ⟨0x40100018 + 0x100 * n, 0, 8, 0⟩
end AVE_SC_NOISE
namespace AVE_CFG
/-- Address of AVE_CFG (R548). -/
abbrev addr : Nat := 0x40108000
/-- AVE_CFG.QSEL, R138. -/
abbrev QSEL : Fld := ⟨0x40108000, 0, 8, 228⟩
/-- AVE_CFG.CONFIG, R138. -/
abbrev CONFIG : Fld := ⟨0x40108000, 8, 2, 0⟩
end AVE_CFG
namespace AVE_CH_UTRIM
/-- Address of AVE_CH_UTRIM of instance n (R548). -/
abbrev addr (n : Nat) : Nat := 0x40108010 + 0x4 * n
/-- AVE_CH_UTRIM.UTRIM of instance n, R139. -/
abbrev UTRIM (n : Nat) : Fld := ⟨0x40108010 + 0x4 * n, 0, 16, 0⟩
end AVE_CH_UTRIM
namespace AVE_ROT_CTRL
/-- Address of AVE_ROT_CTRL (R548). -/
abbrev addr : Nat := 0x40108020
/-- AVE_ROT_CTRL.INTERVAL, R140. -/
abbrev INTERVAL : Fld := ⟨0x40108020, 0, 16, 32⟩
/-- AVE_ROT_CTRL.ROT_HOLD, R140. -/
abbrev ROT_HOLD : Fld := ⟨0x40108020, 16, 1, 0⟩
end AVE_ROT_CTRL
namespace AVE_ROT_STAT
/-- Address of AVE_ROT_STAT (R548). -/
abbrev addr : Nat := 0x40108024
/-- AVE_ROT_STAT.TARGET, R140. -/
abbrev TARGET : Fld := ⟨0x40108024, 0, 16, 0⟩
/-- AVE_ROT_STAT.CANCELS, R140. -/
abbrev CANCELS : Fld := ⟨0x40108024, 16, 16, 0⟩
end AVE_ROT_STAT
namespace AVE_FAIL_POLICY
/-- Address of AVE_FAIL_POLICY (R548). -/
abbrev addr : Nat := 0x40108028
/-- AVE_FAIL_POLICY.POLICY, R141. -/
abbrev POLICY : Fld := ⟨0x40108028, 0, 1, 0⟩
/-- AVE_FAIL_POLICY.STUCK_LEN, R141. -/
abbrev STUCK_LEN : Fld := ⟨0x40108028, 2, 11, 32⟩
/-- AVE_FAIL_POLICY.MATCH_LIM, R141. -/
abbrev MATCH_LIM : Fld := ⟨0x40108028, 16, 8, 4⟩
/-- AVE_FAIL_POLICY.NOISE_LIM, R141. -/
abbrev NOISE_LIM : Fld := ⟨0x40108028, 24, 8, 16⟩
end AVE_FAIL_POLICY
namespace AVE_Q_STAT
/-- Address of AVE_Q_STAT (R548). -/
abbrev addr : Nat := 0x4010802C
/-- AVE_Q_STAT.STATE0, R142. -/
abbrev STATE0 : Fld := ⟨0x4010802C, 0, 2, 0⟩
/-- AVE_Q_STAT.HOLES0, R142. -/
abbrev HOLES0 : Fld := ⟨0x4010802C, 2, 2, 0⟩
/-- AVE_Q_STAT.INTERP_ON0, R142. -/
abbrev INTERP_ON0 : Fld := ⟨0x4010802C, 4, 1, 0⟩
/-- AVE_Q_STAT.STATE1, R142. -/
abbrev STATE1 : Fld := ⟨0x4010802C, 8, 2, 0⟩
/-- AVE_Q_STAT.HOLES1, R142. -/
abbrev HOLES1 : Fld := ⟨0x4010802C, 10, 2, 0⟩
/-- AVE_Q_STAT.INTERP_ON1, R142. -/
abbrev INTERP_ON1 : Fld := ⟨0x4010802C, 12, 1, 0⟩
/-- AVE_Q_STAT.STATE2, R142. -/
abbrev STATE2 : Fld := ⟨0x4010802C, 16, 2, 0⟩
/-- AVE_Q_STAT.HOLES2, R142. -/
abbrev HOLES2 : Fld := ⟨0x4010802C, 18, 2, 0⟩
/-- AVE_Q_STAT.INTERP_ON2, R142. -/
abbrev INTERP_ON2 : Fld := ⟨0x4010802C, 20, 1, 0⟩
/-- AVE_Q_STAT.STATE3, R142. -/
abbrev STATE3 : Fld := ⟨0x4010802C, 24, 2, 0⟩
/-- AVE_Q_STAT.HOLES3, R142. -/
abbrev HOLES3 : Fld := ⟨0x4010802C, 26, 2, 0⟩
/-- AVE_Q_STAT.INTERP_ON3, R142. -/
abbrev INTERP_ON3 : Fld := ⟨0x4010802C, 28, 1, 0⟩
end AVE_Q_STAT
namespace AVE_ET_CTRL
/-- Address of AVE_ET_CTRL (R548). -/
abbrev addr : Nat := 0x40108030
/-- AVE_ET_CTRL.PHASE, R143. -/
abbrev PHASE : Fld := ⟨0x40108030, 0, 8, 0⟩
/-- AVE_ET_CTRL.STEP, R143. -/
abbrev STEP : Fld := ⟨0x40108030, 8, 8, 1⟩
/-- AVE_ET_CTRL.PER, R143. -/
abbrev PER : Fld := ⟨0x40108030, 16, 12, 1⟩
/-- AVE_ET_CTRL.AUTO, R143. -/
abbrev AUTO : Fld := ⟨0x40108030, 28, 1, 0⟩
end AVE_ET_CTRL
namespace AVE_ET_STAT
/-- Address of AVE_ET_STAT (R548). -/
abbrev addr : Nat := 0x40108034
/-- AVE_ET_STAT.CUR, R143. -/
abbrev CUR : Fld := ⟨0x40108034, 0, 8, 0⟩
/-- AVE_ET_STAT.COUNT, R143. -/
abbrev COUNT : Fld := ⟨0x40108034, 8, 12, 0⟩
end AVE_ET_STAT
namespace AVE_IS_CTRL
/-- Address of AVE_IS_CTRL of instance n (R548). -/
abbrev addr (n : Nat) : Nat := 0x40108040 + 0x4 * n
/-- AVE_IS_CTRL.CH of instance n, R144. -/
abbrev CH (n : Nat) : Fld := ⟨0x40108040 + 0x4 * n, 0, 2, n % 4⟩
/-- AVE_IS_CTRL.RED of instance n, R144. -/
abbrev RED (n : Nat) : Fld := ⟨0x40108040 + 0x4 * n, 2, 1, 0⟩
/-- AVE_IS_CTRL.FMT of instance n, R144. -/
abbrev FMT (n : Nat) : Fld := ⟨0x40108040 + 0x4 * n, 4, 2, 0⟩
end AVE_IS_CTRL
namespace AVE_BCAST_GROUP
/-- Address of AVE_BCAST_GROUP (R548). -/
abbrev addr : Nat := 0x40108060
/-- AVE_BCAST_GROUP.GROUP, R145. -/
abbrev GROUP : Fld := ⟨0x40108060, 0, 4, 0⟩
end AVE_BCAST_GROUP
namespace AVE_STAT
/-- Address of AVE_STAT (R548). -/
abbrev addr : Nat := 0x40108064
/-- AVE_STAT.BCAST_MISMATCH, R145. -/
abbrev BCAST_MISMATCH : Fld := ⟨0x40108064, 0, 1, 0⟩
/-- AVE_STAT.TRIM_REFUSED, R145. -/
abbrev TRIM_REFUSED : Fld := ⟨0x40108064, 1, 1, 0⟩
end AVE_STAT
namespace TRG_CTRL
/-- Address of TRG_CTRL of instance n (R548). -/
abbrev addr (n : Nat) : Nat := 0x40200000 + 0x40 * n
/-- TRG_CTRL.ENABLE of instance n, R181. -/
abbrev ENABLE (n : Nat) : Fld := ⟨0x40200000 + 0x40 * n, 0, 1, 0⟩
/-- TRG_CTRL.ABORT of instance n, R181. -/
abbrev ABORT (n : Nat) : Fld := ⟨0x40200000 + 0x40 * n, 1, 1, 0⟩
/-- TRG_CTRL.ROLE of instance n, R181. -/
abbrev ROLE (n : Nat) : Fld := ⟨0x40200000 + 0x40 * n, 2, 1, 0⟩
/-- TRG_CTRL.SPEC of instance n, R181. -/
abbrev SPEC (n : Nat) : Fld := ⟨0x40200000 + 0x40 * n, 3, 1, 0⟩
/-- TRG_CTRL.INDEP of instance n, R181. -/
abbrev INDEP (n : Nat) : Fld := ⟨0x40200000 + 0x40 * n, 4, 1, 0⟩
/-- TRG_CTRL.INTERP of instance n, R181. -/
abbrev INTERP (n : Nat) : Fld := ⟨0x40200000 + 0x40 * n, 5, 2, 0⟩
/-- TRG_CTRL.TYPE of instance n, R181. -/
abbrev TYPE (n : Nat) : Fld := ⟨0x40200000 + 0x40 * n, 8, 4, 0⟩
/-- TRG_CTRL.SRC of instance n, R181. -/
abbrev SRC (n : Nat) : Fld := ⟨0x40200000 + 0x40 * n, 12, 3, 0⟩
/-- TRG_CTRL.SLOPE of instance n, R181. -/
abbrev SLOPE (n : Nat) : Fld := ⟨0x40200000 + 0x40 * n, 16, 2, 0⟩
/-- TRG_CTRL.COND of instance n, R181. -/
abbrev COND (n : Nat) : Fld := ⟨0x40200000 + 0x40 * n, 18, 2, 0⟩
end TRG_CTRL
namespace TRG_LEVEL
/-- Address of TRG_LEVEL of instance n (R548). -/
abbrev addr (n : Nat) : Nat := 0x40200004 + 0x40 * n
/-- TRG_LEVEL.LVL_A of instance n, R182. -/
abbrev LVL_A (n : Nat) : Fld := ⟨0x40200004 + 0x40 * n, 0, 12, 0⟩
/-- TRG_LEVEL.LVL_B of instance n, R182. -/
abbrev LVL_B (n : Nat) : Fld := ⟨0x40200004 + 0x40 * n, 16, 12, 0⟩
end TRG_LEVEL
namespace TRG_HYST
/-- Address of TRG_HYST of instance n (R548). -/
abbrev addr (n : Nat) : Nat := 0x40200008 + 0x40 * n
/-- TRG_HYST.HYST of instance n, R182. -/
abbrev HYST (n : Nat) : Fld := ⟨0x40200008 + 0x40 * n, 0, 8, 8⟩
end TRG_HYST
namespace TRG_T1
/-- Address of TRG_T1 of instance n (R548). -/
abbrev addr (n : Nat) : Nat := 0x4020000C + 0x40 * n
/-- TRG_T1.T1 of instance n, R182. -/
abbrev T1 (n : Nat) : Fld := ⟨0x4020000C + 0x40 * n, 0, 32, 4096⟩
end TRG_T1
namespace TRG_T2
/-- Address of TRG_T2 of instance n (R548). -/
abbrev addr (n : Nat) : Nat := 0x40200010 + 0x40 * n
/-- TRG_T2.T2 of instance n, R182. -/
abbrev T2 (n : Nat) : Fld := ⟨0x40200010 + 0x40 * n, 0, 32, 8192⟩
end TRG_T2
namespace TRG_HOLDOFF_LO
/-- Address of TRG_HOLDOFF_LO of instance n (R548). -/
abbrev addr (n : Nat) : Nat := 0x40200014 + 0x40 * n
/-- TRG_HOLDOFF_LO.VALUE of instance n, R182. -/
abbrev VALUE (n : Nat) : Fld := ⟨0x40200014 + 0x40 * n, 0, 32, 0⟩
end TRG_HOLDOFF_LO
namespace TRG_HOLDOFF_HI
/-- Address of TRG_HOLDOFF_HI of instance n (R548). -/
abbrev addr (n : Nat) : Nat := 0x40200018 + 0x40 * n
/-- TRG_HOLDOFF_HI.VALUE_HI of instance n, R182. -/
abbrev VALUE_HI (n : Nat) : Fld := ⟨0x40200018 + 0x40 * n, 0, 2, 0⟩
/-- TRG_HOLDOFF_HI.MODE of instance n, R182. -/
abbrev MODE (n : Nat) : Fld := ⟨0x40200018 + 0x40 * n, 4, 1, 0⟩
/-- TRG_HOLDOFF_HI.EN of instance n, R182. -/
abbrev EN (n : Nat) : Fld := ⟨0x40200018 + 0x40 * n, 8, 1, 0⟩
end TRG_HOLDOFF_HI
namespace TRG_SEQ
/-- Address of TRG_SEQ of instance n (R548). -/
abbrev addr (n : Nat) : Nat := 0x4020001C + 0x40 * n
/-- TRG_SEQ.EN of instance n, R183. -/
abbrev EN (n : Nat) : Fld := ⟨0x4020001C + 0x40 * n, 0, 1, 0⟩
/-- TRG_SEQ.A_UNIT of instance n, R183. -/
abbrev A_UNIT (n : Nat) : Fld := ⟨0x4020001C + 0x40 * n, 1, 2, 0⟩
/-- TRG_SEQ.C_EN of instance n, R183. -/
abbrev C_EN (n : Nat) : Fld := ⟨0x4020001C + 0x40 * n, 3, 1, 0⟩
/-- TRG_SEQ.C_UNIT of instance n, R183. -/
abbrev C_UNIT (n : Nat) : Fld := ⟨0x4020001C + 0x40 * n, 4, 2, 0⟩
/-- TRG_SEQ.B_COUNT of instance n, R183. -/
abbrev B_COUNT (n : Nat) : Fld := ⟨0x4020001C + 0x40 * n, 16, 16, 0⟩
end TRG_SEQ
namespace TRG_PAT
/-- Address of TRG_PAT of instance n (R548). -/
abbrev addr (n : Nat) : Nat := 0x40200020 + 0x40 * n
/-- TRG_PAT.CODE of instance n, R183. -/
abbrev CODE (n : Nat) : Fld := ⟨0x40200020 + 0x40 * n, 0, 10, 0⟩
/-- TRG_PAT.FUNC of instance n, R183. -/
abbrev FUNC (n : Nat) : Fld := ⟨0x40200020 + 0x40 * n, 10, 1, 0⟩
/-- TRG_PAT.DUR of instance n, R183. -/
abbrev DUR (n : Nat) : Fld := ⟨0x40200020 + 0x40 * n, 11, 1, 0⟩
end TRG_PAT
namespace TRG_SER
/-- Address of TRG_SER of instance n (R548). -/
abbrev addr (n : Nat) : Nat := 0x40200024 + 0x40 * n
/-- TRG_SER.FIELD of instance n, R184. -/
abbrev FIELD (n : Nat) : Fld := ⟨0x40200024 + 0x40 * n, 0, 6, 0⟩
/-- TRG_SER.INDEX of instance n, R184. -/
abbrev INDEX (n : Nat) : Fld := ⟨0x40200024 + 0x40 * n, 8, 7, 0⟩
/-- TRG_SER.SPAN of instance n, R184. -/
abbrev SPAN (n : Nat) : Fld := ⟨0x40200024 + 0x40 * n, 16, 2, 0⟩
/-- TRG_SER.OP of instance n, R184. -/
abbrev OP (n : Nat) : Fld := ⟨0x40200024 + 0x40 * n, 20, 2, 0⟩
end TRG_SER
namespace TRG_SER_VAL
/-- Address of TRG_SER_VAL of instance n (R548). -/
abbrev addr (n : Nat) : Nat := 0x40200028 + 0x40 * n
/-- TRG_SER_VAL.VAL of instance n, R184. -/
abbrev VAL (n : Nat) : Fld := ⟨0x40200028 + 0x40 * n, 0, 32, 0⟩
end TRG_SER_VAL
namespace TRG_SER_MASK
/-- Address of TRG_SER_MASK of instance n (R548). -/
abbrev addr (n : Nat) : Nat := 0x4020002C + 0x40 * n
/-- TRG_SER_MASK.MASK of instance n, R184. -/
abbrev MASK (n : Nat) : Fld := ⟨0x4020002C + 0x40 * n, 0, 32, 0⟩
end TRG_SER_MASK
namespace TRG_STAT
/-- Address of TRG_STAT of instance n (R548). -/
abbrev addr (n : Nat) : Nat := 0x40200030 + 0x40 * n
/-- TRG_STAT.ARMED of instance n, R185. -/
abbrev ARMED (n : Nat) : Fld := ⟨0x40200030 + 0x40 * n, 0, 1, 0⟩
/-- TRG_STAT.HOLDOFF of instance n, R185. -/
abbrev HOLDOFF (n : Nat) : Fld := ⟨0x40200030 + 0x40 * n, 1, 1, 0⟩
/-- TRG_STAT.SEQ of instance n, R185. -/
abbrev SEQ (n : Nat) : Fld := ⟨0x40200030 + 0x40 * n, 2, 1, 0⟩
/-- TRG_STAT.NO_SRC of instance n, R185. -/
abbrev NO_SRC (n : Nat) : Fld := ⟨0x40200030 + 0x40 * n, 3, 1, 0⟩
/-- TRG_STAT.CFG_ERR of instance n, R185. -/
abbrev CFG_ERR (n : Nat) : Fld := ⟨0x40200030 + 0x40 * n, 4, 1, 0⟩
/-- TRG_STAT.ABORTED of instance n, R185. -/
abbrev ABORTED (n : Nat) : Fld := ⟨0x40200030 + 0x40 * n, 5, 1, 0⟩
end TRG_STAT
namespace TRG_COUNT
/-- Address of TRG_COUNT of instance n (R548). -/
abbrev addr (n : Nat) : Nat := 0x40200034 + 0x40 * n
/-- TRG_COUNT.OFFERED of instance n, R185. -/
abbrev OFFERED (n : Nat) : Fld := ⟨0x40200034 + 0x40 * n, 0, 16, 0⟩
/-- TRG_COUNT.DISCARDED of instance n, R185. -/
abbrev DISCARDED (n : Nat) : Fld := ⟨0x40200034 + 0x40 * n, 16, 16, 0⟩
end TRG_COUNT
namespace TRG_GLOBAL
/-- Address of TRG_GLOBAL (R548). -/
abbrev addr : Nat := 0x40200100
/-- TRG_GLOBAL.COF_WIN, R186. -/
abbrev COF_WIN : Fld := ⟨0x40200100, 0, 4, 0⟩
end TRG_GLOBAL
namespace TRG_SW
/-- Address of TRG_SW (R548). -/
abbrev addr : Nat := 0x40200104
/-- TRG_SW.FIRE, R186. -/
abbrev FIRE : Fld := ⟨0x40200104, 0, 4, 0⟩
end TRG_SW
namespace TRG_OUT_CFG
/-- Address of TRG_OUT_CFG (R548). -/
abbrev addr : Nat := 0x40200108
/-- TRG_OUT_CFG.MODE, R186. -/
abbrev MODE : Fld := ⟨0x40200108, 0, 2, 0⟩
/-- TRG_OUT_CFG.MASK, R186. -/
abbrev MASK : Fld := ⟨0x40200108, 4, 4, 0⟩
/-- TRG_OUT_CFG.WIDTH, R186. -/
abbrev WIDTH : Fld := ⟨0x40200108, 8, 8, 16⟩
/-- TRG_OUT_CFG.POL, R186. -/
abbrev POL : Fld := ⟨0x40200108, 16, 1, 0⟩
end TRG_OUT_CFG
namespace TRG_TIMER_PER
/-- Address of TRG_TIMER_PER (R548). -/
abbrev addr : Nat := 0x4020010C
/-- TRG_TIMER_PER.PER, R186. -/
abbrev PER : Fld := ⟨0x4020010C, 0, 32, 4096000⟩
end TRG_TIMER_PER
namespace TRG_TIMER_PHASE
/-- Address of TRG_TIMER_PHASE (R548). -/
abbrev addr : Nat := 0x40200110
/-- TRG_TIMER_PHASE.PHASE, R186. -/
abbrev PHASE : Fld := ⟨0x40200110, 0, 32, 0⟩
end TRG_TIMER_PHASE
namespace TRG_CH_DESKEW
/-- Address of TRG_CH_DESKEW of instance n (R548). -/
abbrev addr (n : Nat) : Nat := 0x40200120 + 0x4 * n
/-- TRG_CH_DESKEW.DESKEW of instance n, R186. -/
abbrev DESKEW (n : Nat) : Fld := ⟨0x40200120 + 0x4 * n, 0, 16, 0⟩
end TRG_CH_DESKEW
namespace TRG_CH_THR
/-- Address of TRG_CH_THR of instance n (R548). -/
abbrev addr (n : Nat) : Nat := 0x40200140 + 0x4 * n
/-- TRG_CH_THR.THR of instance n, R186. -/
abbrev THR (n : Nat) : Fld := ⟨0x40200140 + 0x4 * n, 0, 12, 0⟩
/-- TRG_CH_THR.HYS of instance n, R186. -/
abbrev HYS (n : Nat) : Fld := ⟨0x40200140 + 0x4 * n, 16, 8, 8⟩
end TRG_CH_THR
namespace TRG_BCAST_GROUP
/-- Address of TRG_BCAST_GROUP (R548). -/
abbrev addr : Nat := 0x40200160
/-- TRG_BCAST_GROUP.MASK, R186. -/
abbrev MASK : Fld := ⟨0x40200160, 0, 4, 0⟩
end TRG_BCAST_GROUP
namespace TRG_GSTAT
/-- Address of TRG_GSTAT (R548). -/
abbrev addr : Nat := 0x40200164
/-- TRG_GSTAT.BCAST_MISMATCH, R186. -/
abbrev BCAST_MISMATCH : Fld := ⟨0x40200164, 0, 1, 0⟩
end TRG_GSTAT
namespace DEC_CFG
/-- Address of DEC_CFG of instance n (R548). -/
abbrev addr (n : Nat) : Nat := 0x40200200 + 0x40 * n
/-- DEC_CFG.PROTO of instance n, R187. -/
abbrev PROTO (n : Nat) : Fld := ⟨0x40200200 + 0x40 * n, 0, 3, 0⟩
/-- DEC_CFG.LINE of instance n, R187. -/
abbrev LINE (n : Nat) : Fld := ⟨0x40200200 + 0x40 * n, 4, 16, 30583⟩
/-- DEC_CFG.INV of instance n, R187. -/
abbrev INV (n : Nat) : Fld := ⟨0x40200200 + 0x40 * n, 20, 4, 0⟩
end DEC_CFG
namespace DEC_RATE
/-- Address of DEC_RATE of instance n (R548). -/
abbrev addr (n : Nat) : Nat := 0x40200204 + 0x40 * n
/-- DEC_RATE.PERIOD of instance n, R187. -/
abbrev PERIOD (n : Nat) : Fld := ⟨0x40200204 + 0x40 * n, 0, 32, 0⟩
end DEC_RATE
namespace DEC_RATE2
/-- Address of DEC_RATE2 of instance n (R548). -/
abbrev addr (n : Nat) : Nat := 0x40200208 + 0x40 * n
/-- DEC_RATE2.PERIOD of instance n, R187. -/
abbrev PERIOD (n : Nat) : Fld := ⟨0x40200208 + 0x40 * n, 0, 32, 0⟩
end DEC_RATE2
namespace DEC_FMT
/-- Address of DEC_FMT of instance n (R548). -/
abbrev addr (n : Nat) : Nat := 0x4020020C + 0x40 * n
/-- DEC_FMT.FMT of instance n, R187. -/
abbrev FMT (n : Nat) : Fld := ⟨0x4020020C + 0x40 * n, 0, 32, 0⟩
end DEC_FMT
namespace DEC_STAT
/-- Address of DEC_STAT of instance n (R548). -/
abbrev addr (n : Nat) : Nat := 0x40200210 + 0x40 * n
/-- DEC_STAT.FRAMES of instance n, R187. -/
abbrev FRAMES (n : Nat) : Fld := ⟨0x40200210 + 0x40 * n, 0, 16, 0⟩
/-- DEC_STAT.ERRORS of instance n, R187. -/
abbrev ERRORS (n : Nat) : Fld := ⟨0x40200210 + 0x40 * n, 16, 15, 0⟩
/-- DEC_STAT.CFG_ERR of instance n, R187. -/
abbrev CFG_ERR (n : Nat) : Fld := ⟨0x40200210 + 0x40 * n, 31, 1, 0⟩
end DEC_STAT
namespace DEC_SYNC
/-- Address of DEC_SYNC of instance n (R548). -/
abbrev addr (n : Nat) : Nat := 0x40200214 + 0x40 * n
/-- DEC_SYNC.PATTERN of instance n, R187. -/
abbrev PATTERN (n : Nat) : Fld := ⟨0x40200214 + 0x40 * n, 0, 16, 0⟩
/-- DEC_SYNC.LEN of instance n, R187. -/
abbrev LEN (n : Nat) : Fld := ⟨0x40200214 + 0x40 * n, 16, 5, 0⟩
end DEC_SYNC
namespace REC_CTRL
/-- Address of REC_CTRL (R548). -/
abbrev addr : Nat := 0x40300000
/-- REC_CTRL.START, R219. -/
abbrev START : Fld := ⟨0x40300000, 0, 1, 0⟩
/-- REC_CTRL.STOP, R219. -/
abbrev STOP : Fld := ⟨0x40300000, 1, 1, 0⟩
/-- REC_CTRL.REARM, R219. -/
abbrev REARM : Fld := ⟨0x40300000, 2, 1, 0⟩
end REC_CTRL
namespace REC_STAT
/-- Address of REC_STAT (R548). -/
abbrev addr : Nat := 0x40300004
/-- REC_STAT.STATE, R219. -/
abbrev STATE : Fld := ⟨0x40300004, 0, 3, 0⟩
/-- REC_STAT.HELD, R219. -/
abbrev HELD : Fld := ⟨0x40300004, 4, 4, 0⟩
/-- REC_STAT.OPEN, R219. -/
abbrev OPEN : Fld := ⟨0x40300004, 8, 3, 0⟩
/-- REC_STAT.PROV, R219. -/
abbrev PROV : Fld := ⟨0x40300004, 16, 6, 0⟩
end REC_STAT
namespace REC_CFG
/-- Address of REC_CFG (R548). -/
abbrev addr : Nat := 0x40300008
/-- REC_CFG.PLACE, R219. -/
abbrev PLACE : Fld := ⟨0x40300008, 0, 1, 0⟩
/-- REC_CFG.RMODE, R219. -/
abbrev RMODE : Fld := ⟨0x40300008, 1, 1, 0⟩
/-- REC_CFG.STREAMS, R219. -/
abbrev STREAMS : Fld := ⟨0x40300008, 8, 8, 1⟩
end REC_CFG
namespace REC_LEN
/-- Address of REC_LEN (R548). -/
abbrev addr : Nat := 0x4030000C
/-- REC_LEN.LENGTH, R219. -/
abbrev LENGTH : Fld := ⟨0x4030000C, 0, 25, 1024⟩
end REC_LEN
namespace REC_PRE
/-- Address of REC_PRE (R548). -/
abbrev addr : Nat := 0x40300010
/-- REC_PRE.PRE, R219. -/
abbrev PRE : Fld := ⟨0x40300010, 0, 25, 256⟩
end REC_PRE
namespace REC_SEG
/-- Address of REC_SEG (R548). -/
abbrev addr : Nat := 0x40300014
/-- REC_SEG.COUNT, R219. -/
abbrev COUNT : Fld := ⟨0x40300014, 0, 16, 0⟩
/-- REC_SEG.AUTO, R219. -/
abbrev AUTO : Fld := ⟨0x40300014, 16, 1, 0⟩
end REC_SEG
namespace REC_RING_LEN
/-- Address of REC_RING_LEN (R548). -/
abbrev addr : Nat := 0x40300018
/-- REC_RING_LEN.LEN, R219. -/
abbrev LEN : Fld := ⟨0x40300018, 0, 32, 16⟩
end REC_RING_LEN
namespace REC_HDR_BASE
/-- Address of REC_HDR_BASE (R548). -/
abbrev addr : Nat := 0x4030001C
/-- REC_HDR_BASE.BASE, R219. -/
abbrev BASE : Fld := ⟨0x4030001C, 7, 18, 196608⟩
end REC_HDR_BASE
namespace REC_HDR_ENTRIES
/-- Address of REC_HDR_ENTRIES (R548). -/
abbrev addr : Nat := 0x40300020
/-- REC_HDR_ENTRIES.ENTRIES, R219. -/
abbrev ENTRIES : Fld := ⟨0x40300020, 0, 16, 4095⟩
end REC_HDR_ENTRIES
namespace REC_RELEASE
/-- Address of REC_RELEASE (R548). -/
abbrev addr : Nat := 0x40300024
/-- REC_RELEASE.SEQ, R220. -/
abbrev SEQ : Fld := ⟨0x40300024, 0, 32, 0⟩
end REC_RELEASE
namespace REC_SEQ
/-- Address of REC_SEQ (R548). -/
abbrev addr : Nat := 0x40300028
/-- REC_SEQ.NEXT, R220. -/
abbrev NEXT : Fld := ⟨0x40300028, 0, 32, 0⟩
end REC_SEQ
namespace REC_GEN_CMD
/-- Address of REC_GEN_CMD (R548). -/
abbrev addr : Nat := 0x4030002C
/-- REC_GEN_CMD.COMMIT, R220. -/
abbrev COMMIT : Fld := ⟨0x4030002C, 0, 1, 0⟩
/-- REC_GEN_CMD.CARRY, R220. -/
abbrev CARRY : Fld := ⟨0x4030002C, 1, 1, 0⟩
end REC_GEN_CMD
namespace REC_GEN
/-- Address of REC_GEN (R548). -/
abbrev addr : Nat := 0x40300030
/-- REC_GEN.GEN, R220. -/
abbrev GEN : Fld := ⟨0x40300030, 0, 16, 0⟩
/-- REC_GEN.APPLIED, R220. -/
abbrev APPLIED : Fld := ⟨0x40300030, 16, 16, 0⟩
end REC_GEN
namespace REC_EPOCH
/-- Address of REC_EPOCH (R548). -/
abbrev addr : Nat := 0x40300034
/-- REC_EPOCH.EPOCH, R220. -/
abbrev EPOCH : Fld := ⟨0x40300034, 0, 16, 0⟩
/-- REC_EPOCH.REFUSED, R220. -/
abbrev REFUSED : Fld := ⟨0x40300034, 16, 1, 0⟩
/-- REC_EPOCH.CAUSE, R220. -/
abbrev CAUSE : Fld := ⟨0x40300034, 17, 2, 0⟩
end REC_EPOCH
namespace REC_CQ_CTRL
/-- Address of REC_CQ_CTRL (R548). -/
abbrev addr : Nat := 0x40300038
/-- REC_CQ_CTRL.POP, R220. -/
abbrev POP : Fld := ⟨0x40300038, 0, 1, 0⟩
/-- REC_CQ_CTRL.WM, R220. -/
abbrev WM : Fld := ⟨0x40300038, 8, 9, 128⟩
end REC_CQ_CTRL
namespace REC_CQ_STAT
/-- Address of REC_CQ_STAT (R548). -/
abbrev addr : Nat := 0x4030003C
/-- REC_CQ_STAT.DEPTH, R220. -/
abbrev DEPTH : Fld := ⟨0x4030003C, 0, 9, 0⟩
/-- REC_CQ_STAT.RSV, R220. -/
abbrev RSV : Fld := ⟨0x4030003C, 16, 9, 0⟩
/-- REC_CQ_STAT.FULL, R220. -/
abbrev FULL : Fld := ⟨0x4030003C, 31, 1, 0⟩
end REC_CQ_STAT
namespace REC_CQ_OUT
/-- Address of REC_CQ_OUT of instance n (R548). -/
abbrev addr (n : Nat) : Nat := 0x40300040 + 0x4 * n
/-- REC_CQ_OUT.WORD of instance n, R220. -/
abbrev WORD (n : Nat) : Fld := ⟨0x40300040 + 0x4 * n, 0, 32, 0⟩
end REC_CQ_OUT
namespace REC_PROV_OPENED
/-- Address of REC_PROV_OPENED (R548). -/
abbrev addr : Nat := 0x40300050
/-- REC_PROV_OPENED.COUNT, R220. -/
abbrev COUNT : Fld := ⟨0x40300050, 0, 32, 0⟩
end REC_PROV_OPENED
namespace REC_PROV_ABANDONED
/-- Address of REC_PROV_ABANDONED (R548). -/
abbrev addr : Nat := 0x40300054
/-- REC_PROV_ABANDONED.COUNT, R220. -/
abbrev COUNT : Fld := ⟨0x40300054, 0, 32, 0⟩
end REC_PROV_ABANDONED
namespace REC_ABORT
/-- Address of REC_ABORT (R548). -/
abbrev addr : Nat := 0x40300058
/-- REC_ABORT.COUNT, R220. -/
abbrev COUNT : Fld := ⟨0x40300058, 0, 16, 0⟩
end REC_ABORT
namespace REC_COUNT
/-- Address of REC_COUNT (R548). -/
abbrev addr : Nat := 0x4030005C
/-- REC_COUNT.COMMITTED, R220. -/
abbrev COMMITTED : Fld := ⟨0x4030005C, 0, 16, 0⟩
/-- REC_COUNT.RECYCLED, R220. -/
abbrev RECYCLED : Fld := ⟨0x4030005C, 16, 16, 0⟩
end REC_COUNT
namespace REC_WBEAT_LO
/-- Address of REC_WBEAT_LO (R548). -/
abbrev addr : Nat := 0x40300060
/-- REC_WBEAT_LO.W, R220. -/
abbrev W : Fld := ⟨0x40300060, 0, 32, 0⟩
end REC_WBEAT_LO
namespace REC_WBEAT_HI
/-- Address of REC_WBEAT_HI (R548). -/
abbrev addr : Nat := 0x40300064
/-- REC_WBEAT_HI.W, R220. -/
abbrev W : Fld := ⟨0x40300064, 0, 32, 0⟩
end REC_WBEAT_HI
namespace REC_RING_BASE_LO
/-- Address of REC_RING_BASE_LO of instance n (R548). -/
abbrev addr (n : Nat) : Nat := 0x40300100 + 0x8 * n
/-- REC_RING_BASE_LO.ADDR of instance n, R219. -/
abbrev ADDR (n : Nat) : Fld := ⟨0x40300100 + 0x8 * n, 6, 26, n * 0x800000⟩
end REC_RING_BASE_LO
namespace REC_RING_BASE_HI
/-- Address of REC_RING_BASE_HI of instance n (R548). -/
abbrev addr (n : Nat) : Nat := 0x40300104 + 0x8 * n
/-- REC_RING_BASE_HI.ADDR of instance n, R219. -/
abbrev ADDR (n : Nat) : Fld := ⟨0x40300104 + 0x8 * n, 0, 8, 1⟩
end REC_RING_BASE_HI
namespace RED_OUT_CTRL
/-- Address of RED_OUT_CTRL of instance n (R548). -/
abbrev addr (n : Nat) : Nat := 0x40400000 + 0x10 * n
/-- RED_OUT_CTRL.SRC of instance n, R251. -/
abbrev SRC (n : Nat) : Fld := ⟨0x40400000 + 0x10 * n, 0, 2, n⟩
/-- RED_OUT_CTRL.MODE of instance n, R251. -/
abbrev MODE (n : Nat) : Fld := ⟨0x40400000 + 0x10 * n, 2, 2, 0⟩
/-- RED_OUT_CTRL.K of instance n, R251. -/
abbrev K (n : Nat) : Fld := ⟨0x40400000 + 0x10 * n, 4, 5, 0⟩
/-- RED_OUT_CTRL.SINK of instance n, R251. -/
abbrev SINK (n : Nat) : Fld := ⟨0x40400000 + 0x10 * n, 9, 1, 0⟩
/-- RED_OUT_CTRL.WM of instance n, R251. -/
abbrev WM (n : Nat) : Fld := ⟨0x40400000 + 0x10 * n, 16, 6, 32⟩
end RED_OUT_CTRL
namespace RED_Q_STAT
/-- Address of RED_Q_STAT of instance n (R548). -/
abbrev addr (n : Nat) : Nat := 0x40400004 + 0x10 * n
/-- RED_Q_STAT.DEPTH of instance n, R251. -/
abbrev DEPTH (n : Nat) : Fld := ⟨0x40400004 + 0x10 * n, 0, 7, 0⟩
/-- RED_Q_STAT.OVF of instance n, R251. -/
abbrev OVF (n : Nat) : Fld := ⟨0x40400004 + 0x10 * n, 8, 8, 0⟩
/-- RED_Q_STAT.WM of instance n, R251. -/
abbrev WM (n : Nat) : Fld := ⟨0x40400004 + 0x10 * n, 16, 1, 0⟩
end RED_Q_STAT
namespace RED_AU_CTRL
/-- Address of RED_AU_CTRL of instance n (R548). -/
abbrev addr (n : Nat) : Nat := 0x40400100 + 0x20 * n
/-- RED_AU_CTRL.ENABLE of instance n, R252. -/
abbrev ENABLE (n : Nat) : Fld := ⟨0x40400100 + 0x20 * n, 0, 1, 0⟩
/-- RED_AU_CTRL.RESTART of instance n, R252. -/
abbrev RESTART (n : Nat) : Fld := ⟨0x40400100 + 0x20 * n, 1, 1, 0⟩
end RED_AU_CTRL
namespace RED_AU_CFG
/-- Address of RED_AU_CFG of instance n (R548). -/
abbrev addr (n : Nat) : Nat := 0x40400104 + 0x20 * n
/-- RED_AU_CFG.SRC of instance n, R252. -/
abbrev SRC (n : Nat) : Fld := ⟨0x40400104 + 0x20 * n, 0, 2, 0⟩
/-- RED_AU_CFG.RED of instance n, R252. -/
abbrev RED (n : Nat) : Fld := ⟨0x40400104 + 0x20 * n, 2, 1, 0⟩
/-- RED_AU_CFG.IN_SHIFT of instance n, R252. -/
abbrev IN_SHIFT (n : Nat) : Fld := ⟨0x40400104 + 0x20 * n, 4, 4, 0⟩
/-- RED_AU_CFG.ILV_LOG of instance n, R252. -/
abbrev ILV_LOG (n : Nat) : Fld := ⟨0x40400104 + 0x20 * n, 8, 4, 0⟩
/-- RED_AU_CFG.PINGPONG of instance n, R252. -/
abbrev PINGPONG (n : Nat) : Fld := ⟨0x40400104 + 0x20 * n, 12, 1, 0⟩
end RED_AU_CFG
namespace RED_AU_BASE
/-- Address of RED_AU_BASE of instance n (R548). -/
abbrev addr (n : Nat) : Nat := 0x40400108 + 0x20 * n
/-- RED_AU_BASE.OFS of instance n, R252. -/
abbrev OFS (n : Nat) : Fld := ⟨0x40400108 + 0x20 * n, 6, 19, 0⟩
end RED_AU_BASE
namespace RED_AU_BASE2
/-- Address of RED_AU_BASE2 of instance n (R548). -/
abbrev addr (n : Nat) : Nat := 0x4040010C + 0x20 * n
/-- RED_AU_BASE2.OFS of instance n, R252. -/
abbrev OFS (n : Nat) : Fld := ⟨0x4040010C + 0x20 * n, 6, 19, 0⟩
end RED_AU_BASE2
namespace RED_AU_TARGET
/-- Address of RED_AU_TARGET of instance n (R548). -/
abbrev addr (n : Nat) : Nat := 0x40400110 + 0x20 * n
/-- RED_AU_TARGET.TARGET of instance n, R252. -/
abbrev TARGET (n : Nat) : Fld := ⟨0x40400110 + 0x20 * n, 0, 24, 16777215⟩
end RED_AU_TARGET
namespace RED_AU_STAT
/-- Address of RED_AU_STAT of instance n (R548). -/
abbrev addr (n : Nat) : Nat := 0x40400114 + 0x20 * n
/-- RED_AU_STAT.NREC of instance n, R252. -/
abbrev NREC (n : Nat) : Fld := ⟨0x40400114 + 0x20 * n, 0, 25, 0⟩
/-- RED_AU_STAT.ACTIVE of instance n, R252. -/
abbrev ACTIVE (n : Nat) : Fld := ⟨0x40400114 + 0x20 * n, 25, 1, 0⟩
/-- RED_AU_STAT.DONE of instance n, R252. -/
abbrev DONE (n : Nat) : Fld := ⟨0x40400114 + 0x20 * n, 26, 1, 0⟩
/-- RED_AU_STAT.PLAN_SHORT of instance n, R252. -/
abbrev PLAN_SHORT (n : Nat) : Fld := ⟨0x40400114 + 0x20 * n, 27, 1, 0⟩
/-- RED_AU_STAT.LATE of instance n, R252. -/
abbrev LATE (n : Nat) : Fld := ⟨0x40400114 + 0x20 * n, 28, 4, 0⟩
end RED_AU_STAT
namespace RED_PER_CTRL
/-- Address of RED_PER_CTRL (R548). -/
abbrev addr : Nat := 0x40400200
/-- RED_PER_CTRL.ENABLE, R253. -/
abbrev ENABLE : Fld := ⟨0x40400200, 0, 1, 0⟩
/-- RED_PER_CTRL.SRC, R253. -/
abbrev SRC : Fld := ⟨0x40400200, 1, 2, 0⟩
/-- RED_PER_CTRL.RED, R253. -/
abbrev RED : Fld := ⟨0x40400200, 3, 1, 0⟩
/-- RED_PER_CTRL.VECTOR, R253. -/
abbrev VECTOR : Fld := ⟨0x40400200, 4, 1, 0⟩
/-- RED_PER_CTRL.DECAY, R253. -/
abbrev DECAY : Fld := ⟨0x40400200, 8, 4, 0⟩
/-- RED_PER_CTRL.DEC_FRAMES, R253. -/
abbrev DEC_FRAMES : Fld := ⟨0x40400200, 12, 8, 0⟩
end RED_PER_CTRL
namespace RED_PER_MAP
/-- Address of RED_PER_MAP (R548). -/
abbrev addr : Nat := 0x40400204
/-- RED_PER_MAP.YOFS, R253. -/
abbrev YOFS : Fld := ⟨0x40400204, 0, 16, 32768⟩
/-- RED_PER_MAP.YSH, R253. -/
abbrev YSH : Fld := ⟨0x40400204, 16, 3, 7⟩
/-- RED_PER_MAP.XSH, R253. -/
abbrev XSH : Fld := ⟨0x40400204, 20, 4, 0⟩
end RED_PER_MAP
namespace RED_PER_BASE
/-- Address of RED_PER_BASE (R548). -/
abbrev addr : Nat := 0x40400208
/-- RED_PER_BASE.XSTART, R253. -/
abbrev XSTART : Fld := ⟨0x40400208, 0, 20, 0⟩
/-- RED_PER_BASE.OFS, R253. -/
abbrev OFS : Fld := ⟨0x40400208, 20, 5, 28⟩
end RED_PER_BASE
namespace RED_PER_STAT
/-- Address of RED_PER_STAT (R548). -/
abbrev addr : Nat := 0x4040020C
/-- RED_PER_STAT.SKIP, R253. -/
abbrev SKIP : Fld := ⟨0x4040020C, 0, 16, 0⟩
/-- RED_PER_STAT.DMERGE, R253. -/
abbrev DMERGE : Fld := ⟨0x4040020C, 16, 8, 0⟩
/-- RED_PER_STAT.PASS, R253. -/
abbrev PASS : Fld := ⟨0x4040020C, 24, 3, 0⟩
end RED_PER_STAT
namespace RED_STAT
/-- Address of RED_STAT (R548). -/
abbrev addr : Nat := 0x40400300
/-- RED_STAT.CFG_ERR, R251. -/
abbrev CFG_ERR : Fld := ⟨0x40400300, 0, 4, 0⟩
end RED_STAT
namespace MU_CTRL
/-- Address of MU_CTRL of instance n (R548). -/
abbrev addr (n : Nat) : Nat := 0x40480000 + 0x40 * n
/-- MU_CTRL.TYPE of instance n, R254. -/
abbrev TYPE (n : Nat) : Fld := ⟨0x40480000 + 0x40 * n, 0, 5, 0⟩
/-- MU_CTRL.HOLE_NAN of instance n, R254. -/
abbrev HOLE_NAN (n : Nat) : Fld := ⟨0x40480000 + 0x40 * n, 5, 1, 0⟩
/-- MU_CTRL.LVLMODE of instance n, R254. -/
abbrev LVLMODE (n : Nat) : Fld := ⟨0x40480000 + 0x40 * n, 6, 1, 0⟩
end MU_CTRL
namespace MU_SRC
/-- Address of MU_SRC of instance n (R548). -/
abbrev addr (n : Nat) : Nat := 0x40480004 + 0x40 * n
/-- MU_SRC.SRC of instance n, R254. -/
abbrev SRC (n : Nat) : Fld := ⟨0x40480004 + 0x40 * n, 0, 2, 0⟩
/-- MU_SRC.RED of instance n, R254. -/
abbrev RED (n : Nat) : Fld := ⟨0x40480004 + 0x40 * n, 2, 1, 0⟩
/-- MU_SRC.SRC2 of instance n, R254. -/
abbrev SRC2 (n : Nat) : Fld := ⟨0x40480004 + 0x40 * n, 4, 2, 0⟩
/-- MU_SRC.RED2 of instance n, R254. -/
abbrev RED2 (n : Nat) : Fld := ⟨0x40480004 + 0x40 * n, 6, 1, 0⟩
end MU_SRC
namespace MU_LVL
/-- Address of MU_LVL of instance n (R548). -/
abbrev addr (n : Nat) : Nat := 0x40480008 + 0x40 * n
/-- MU_LVL.BASE of instance n, R254. -/
abbrev BASE (n : Nat) : Fld := ⟨0x40480008 + 0x40 * n, 0, 16, 0⟩
/-- MU_LVL.TOP of instance n, R254. -/
abbrev TOP (n : Nat) : Fld := ⟨0x40480008 + 0x40 * n, 16, 16, 16384⟩
end MU_LVL
namespace MU_GATE
/-- Address of MU_GATE of instance n (R548). -/
abbrev addr (n : Nat) : Nat := 0x4048000C + 0x40 * n
/-- MU_GATE.START of instance n, R254. -/
abbrev START (n : Nat) : Fld := ⟨0x4048000C + 0x40 * n, 0, 25, 33554400⟩
end MU_GATE
namespace MU_STAT
/-- Address of MU_STAT of instance n (R548). -/
abbrev addr (n : Nat) : Nat := 0x40480010 + 0x40 * n
/-- MU_STAT.GATE_CLIP of instance n, R254. -/
abbrev GATE_CLIP (n : Nat) : Fld := ⟨0x40480010 + 0x40 * n, 0, 16, 0⟩
end MU_STAT
namespace MU_ST_N
/-- Address of MU_ST_N of instance n (R548). -/
abbrev addr (n : Nat) : Nat := 0x40480014 + 0x40 * n
/-- MU_ST_N.N of instance n, R254. -/
abbrev N (n : Nat) : Fld := ⟨0x40480014 + 0x40 * n, 0, 32, 0⟩
end MU_ST_N
namespace MU_ST_MIN
/-- Address of MU_ST_MIN of instance n (R548). -/
abbrev addr (n : Nat) : Nat := 0x40480018 + 0x40 * n
/-- MU_ST_MIN.VALUE of instance n, R254. -/
abbrev VALUE (n : Nat) : Fld := ⟨0x40480018 + 0x40 * n, 0, 32, 0⟩
end MU_ST_MIN
namespace MU_ST_MAX
/-- Address of MU_ST_MAX of instance n (R548). -/
abbrev addr (n : Nat) : Nat := 0x4048001C + 0x40 * n
/-- MU_ST_MAX.VALUE of instance n, R254. -/
abbrev VALUE (n : Nat) : Fld := ⟨0x4048001C + 0x40 * n, 0, 32, 0⟩
end MU_ST_MAX
namespace MU_ST_MEAN
/-- Address of MU_ST_MEAN of instance n (R548). -/
abbrev addr (n : Nat) : Nat := 0x40480020 + 0x40 * n
/-- MU_ST_MEAN.VALUE of instance n, R254. -/
abbrev VALUE (n : Nat) : Fld := ⟨0x40480020 + 0x40 * n, 0, 32, 0⟩
end MU_ST_MEAN
namespace MU_ST_SD
/-- Address of MU_ST_SD of instance n (R548). -/
abbrev addr (n : Nat) : Nat := 0x40480024 + 0x40 * n
/-- MU_ST_SD.VALUE of instance n, R254. -/
abbrev VALUE (n : Nat) : Fld := ⟨0x40480024 + 0x40 * n, 0, 32, 0⟩
end MU_ST_SD
namespace MU_ST_NAN
/-- Address of MU_ST_NAN of instance n (R548). -/
abbrev addr (n : Nat) : Nat := 0x40480028 + 0x40 * n
/-- MU_ST_NAN.NANS of instance n, R254. -/
abbrev NANS (n : Nat) : Fld := ⟨0x40480028 + 0x40 * n, 0, 32, 0⟩
end MU_ST_NAN
namespace MU_ST_EPOCH
/-- Address of MU_ST_EPOCH of instance n (R548). -/
abbrev addr (n : Nat) : Nat := 0x4048002C + 0x40 * n
/-- MU_ST_EPOCH.EPOCH of instance n, R254. -/
abbrev EPOCH (n : Nat) : Fld := ⟨0x4048002C + 0x40 * n, 0, 16, 0⟩
end MU_ST_EPOCH
namespace MU_GRP_DEF
/-- Address of MU_GRP_DEF of instance n (R548). -/
abbrev addr (n : Nat) : Nat := 0x40488000 + 0x4 * n
/-- MU_GRP_DEF.MEMBERS of instance n, R254. -/
abbrev MEMBERS (n : Nat) : Fld := ⟨0x40488000 + 0x4 * n, 0, 16, 0⟩
end MU_GRP_DEF
namespace MU_BCAST_GROUP
/-- Address of MU_BCAST_GROUP (R548). -/
abbrev addr : Nat := 0x40488020
/-- MU_BCAST_GROUP.GROUPS, R254. -/
abbrev GROUPS : Fld := ⟨0x40488020, 0, 8, 0⟩
end MU_BCAST_GROUP
namespace MU_GSTAT
/-- Address of MU_GSTAT (R548). -/
abbrev addr : Nat := 0x40488024
/-- MU_GSTAT.BCAST_MISMATCH, R254. -/
abbrev BCAST_MISMATCH : Fld := ⟨0x40488024, 0, 1, 0⟩
end MU_GSTAT
namespace MU_SNAP
/-- Address of MU_SNAP (R548). -/
abbrev addr : Nat := 0x40488028
/-- MU_SNAP.TAKE, R254. -/
abbrev TAKE : Fld := ⟨0x40488028, 0, 1, 0⟩
end MU_SNAP
namespace SQ_PLAN_CMD
/-- Address of SQ_PLAN_CMD (R548). -/
abbrev addr : Nat := 0x40500000
/-- SQ_PLAN_CMD.STORE, R57. -/
abbrev STORE : Fld := ⟨0x40500000, 0, 3, 0⟩
/-- SQ_PLAN_CMD.CMD, R57. -/
abbrev CMD : Fld := ⟨0x40500000, 4, 2, 0⟩
end SQ_PLAN_CMD
namespace SQ_PLAN_STAT
/-- Address of SQ_PLAN_STAT (R548). -/
abbrev addr : Nat := 0x40500004
/-- SQ_PLAN_STAT.ACTIVE, R58. -/
abbrev ACTIVE : Fld := ⟨0x40500004, 0, 3, 0⟩
/-- SQ_PLAN_STAT.PENDING, R58. -/
abbrev PENDING : Fld := ⟨0x40500004, 4, 3, 0⟩
/-- SQ_PLAN_STAT.SWAP_PENDING, R58. -/
abbrev SWAP_PENDING : Fld := ⟨0x40500004, 7, 1, 0⟩
/-- SQ_PLAN_STAT.VERIFY_BUSY, R58. -/
abbrev VERIFY_BUSY : Fld := ⟨0x40500004, 8, 1, 0⟩
/-- SQ_PLAN_STAT.MARGIN_STOP, R58. -/
abbrev MARGIN_STOP : Fld := ⟨0x40500004, 9, 1, 0⟩
/-- SQ_PLAN_STAT.MSTOP_CAUSE, R58. -/
abbrev MSTOP_CAUSE : Fld := ⟨0x40500004, 10, 3, 0⟩
/-- SQ_PLAN_STAT.PS_REFUSED, R58. -/
abbrev PS_REFUSED : Fld := ⟨0x40500004, 13, 1, 0⟩
/-- SQ_PLAN_STAT.VALID, R58. -/
abbrev VALID : Fld := ⟨0x40500004, 16, 8, 0⟩
end SQ_PLAN_STAT
namespace SQ_PLAN_REJ
/-- Address of SQ_PLAN_REJ (R548). -/
abbrev addr : Nat := 0x40500008
/-- SQ_PLAN_REJ.CODE, R59. -/
abbrev CODE : Fld := ⟨0x40500008, 0, 8, 0⟩
/-- SQ_PLAN_REJ.SLOT, R59. -/
abbrev SLOT : Fld := ⟨0x40500008, 8, 12, 0⟩
/-- SQ_PLAN_REJ.AUX, R59. -/
abbrev AUX : Fld := ⟨0x40500008, 20, 6, 0⟩
/-- SQ_PLAN_REJ.STORE, R59. -/
abbrev STORE : Fld := ⟨0x40500008, 26, 3, 0⟩
/-- SQ_PLAN_REJ.NEW, R59. -/
abbrev NEW : Fld := ⟨0x40500008, 31, 1, 0⟩
end SQ_PLAN_REJ
namespace SQ_PS_ADDR
/-- Address of SQ_PS_ADDR (R548). -/
abbrev addr : Nat := 0x4050000C
/-- SQ_PS_ADDR.WADDR, R60. -/
abbrev WADDR : Fld := ⟨0x4050000C, 2, 18, 0⟩
end SQ_PS_ADDR
namespace SQ_PS_DATA
/-- Address of SQ_PS_DATA (R548). -/
abbrev addr : Nat := 0x40500010
/-- SQ_PS_DATA.DATA, R60. -/
abbrev DATA : Fld := ⟨0x40500010, 0, 32, 0⟩
end SQ_PS_DATA
namespace SQ_SLOT
/-- Address of SQ_SLOT (R548). -/
abbrev addr : Nat := 0x40500014
/-- SQ_SLOT.SLOT, R61. -/
abbrev SLOT : Fld := ⟨0x40500014, 0, 12, 0⟩
/-- SQ_SLOT.PERIODS, R61. -/
abbrev PERIODS : Fld := ⟨0x40500014, 12, 20, 0⟩
end SQ_SLOT
namespace SQ_PLAN_ID
/-- Address of SQ_PLAN_ID (R548). -/
abbrev addr : Nat := 0x40500018
/-- SQ_PLAN_ID.ID, R61. -/
abbrev ID : Fld := ⟨0x40500018, 0, 32, 0⟩
end SQ_PLAN_ID
namespace SQ_BREACH
/-- Address of SQ_BREACH (R548). -/
abbrev addr : Nat := 0x4050001C
/-- SQ_BREACH.COUNT, R62. -/
abbrev COUNT : Fld := ⟨0x4050001C, 0, 16, 0⟩
/-- SQ_BREACH.OWNER, R62. -/
abbrev OWNER : Fld := ⟨0x4050001C, 16, 8, 0⟩
/-- SQ_BREACH.KIND, R62. -/
abbrev KIND : Fld := ⟨0x4050001C, 24, 4, 0⟩
end SQ_BREACH
namespace SQ_ACC
/-- Address of SQ_ACC (R548). -/
abbrev addr : Nat := 0x40500040
/-- SQ_ACC.BASE, R280. -/
abbrev BASE : Fld := ⟨0x40500040, 0, 5, 25⟩
/-- SQ_ACC.SIZE, R280. -/
abbrev SIZE : Fld := ⟨0x40500040, 8, 5, 5⟩
end SQ_ACC
namespace SQ_ECC
/-- Address of SQ_ECC (R548). -/
abbrev addr : Nat := 0x40500044
/-- SQ_ECC.CE, R280. -/
abbrev CE : Fld := ⟨0x40500044, 0, 16, 0⟩
/-- SQ_ECC.UE, R280. -/
abbrev UE : Fld := ⟨0x40500044, 16, 16, 0⟩
end SQ_ECC
namespace SQ_ECC_ADDR
/-- Address of SQ_ECC_ADDR (R548). -/
abbrev addr : Nat := 0x40500048
/-- SQ_ECC_ADDR.UE, R280. -/
abbrev UE : Fld := ⟨0x40500048, 0, 1, 0⟩
/-- SQ_ECC_ADDR.LINE, R280. -/
abbrev LINE : Fld := ⟨0x40500048, 6, 19, 0⟩
end SQ_ECC_ADDR
namespace SQ_PROT
/-- Address of SQ_PROT (R548). -/
abbrev addr : Nat := 0x4050004C
/-- SQ_PROT.DROPS, R280. -/
abbrev DROPS : Fld := ⟨0x4050004C, 0, 16, 0⟩
/-- SQ_PROT.OWNER, R280. -/
abbrev OWNER : Fld := ⟨0x4050004C, 16, 8, 0⟩
end SQ_PROT
namespace BLV_STAT
/-- Address of BLV_STAT (R548). -/
abbrev addr : Nat := 0x40600000
/-- BLV_STAT.UP, R280. -/
abbrev UP : Fld := ⟨0x40600000, 0, 1, 0⟩
/-- BLV_STAT.INIT_FAIL, R280. -/
abbrev INIT_FAIL : Fld := ⟨0x40600000, 1, 1, 0⟩
/-- BLV_STAT.DENS_MISMATCH, R280. -/
abbrev DENS_MISMATCH : Fld := ⟨0x40600000, 2, 1, 0⟩
/-- BLV_STAT.DENSITY, R280. -/
abbrev DENSITY : Fld := ⟨0x40600000, 4, 4, 0⟩
end BLV_STAT
namespace BLV_TEMP
/-- Address of BLV_TEMP (R548). -/
abbrev addr : Nat := 0x40600004
/-- BLV_TEMP.RATE0, R280. -/
abbrev RATE0 : Fld := ⟨0x40600004, 0, 5, 0⟩
/-- BLV_TEMP.RATE1, R280. -/
abbrev RATE1 : Fld := ⟨0x40600004, 8, 5, 0⟩
/-- BLV_TEMP.HOT, R280. -/
abbrev HOT : Fld := ⟨0x40600004, 16, 1, 0⟩
/-- BLV_TEMP.HOT0, R280. -/
abbrev HOT0 : Fld := ⟨0x40600004, 17, 1, 0⟩
/-- BLV_TEMP.HOT1, R280. -/
abbrev HOT1 : Fld := ⟨0x40600004, 18, 1, 0⟩
end BLV_TEMP
namespace BLV_ECC
/-- Address of BLV_ECC (R548). -/
abbrev addr : Nat := 0x40600008
/-- BLV_ECC.CE, R280. -/
abbrev CE : Fld := ⟨0x40600008, 0, 16, 0⟩
/-- BLV_ECC.UE, R280. -/
abbrev UE : Fld := ⟨0x40600008, 16, 16, 0⟩
end BLV_ECC
namespace BLV_ECC_ADDR_LO
/-- Address of BLV_ECC_ADDR_LO (R548). -/
abbrev addr : Nat := 0x4060000C
/-- BLV_ECC_ADDR_LO.ADDR, R280. -/
abbrev ADDR : Fld := ⟨0x4060000C, 6, 26, 0⟩
end BLV_ECC_ADDR_LO
namespace BLV_ECC_ADDR_HI
/-- Address of BLV_ECC_ADDR_HI (R548). -/
abbrev addr : Nat := 0x40600010
/-- BLV_ECC_ADDR_HI.ADDR, R280. -/
abbrev ADDR : Fld := ⟨0x40600010, 0, 8, 0⟩
/-- BLV_ECC_ADDR_HI.UE, R280. -/
abbrev UE : Fld := ⟨0x40600010, 31, 1, 0⟩
end BLV_ECC_ADDR_HI
namespace BLV_SCRUB_CTRL
/-- Address of BLV_SCRUB_CTRL (R548). -/
abbrev addr : Nat := 0x40600014
/-- BLV_SCRUB_CTRL.EN, R280. -/
abbrev EN : Fld := ⟨0x40600014, 0, 1, 0⟩
/-- BLV_SCRUB_CTRL.PASSES, R280. -/
abbrev PASSES : Fld := ⟨0x40600014, 16, 16, 0⟩
end BLV_SCRUB_CTRL
namespace BLV_SCRUB_BASE
/-- Address of BLV_SCRUB_BASE (R548). -/
abbrev addr : Nat := 0x40600018
/-- BLV_SCRUB_BASE.BASE, R280. -/
abbrev BASE : Fld := ⟨0x40600018, 0, 30, 0⟩
end BLV_SCRUB_BASE
namespace BLV_SCRUB_LEN
/-- Address of BLV_SCRUB_LEN (R548). -/
abbrev addr : Nat := 0x4060001C
/-- BLV_SCRUB_LEN.LEN, R280. -/
abbrev LEN : Fld := ⟨0x4060001C, 0, 30, 0⟩
end BLV_SCRUB_LEN
namespace BLV_SCRUB_POS
/-- Address of BLV_SCRUB_POS (R548). -/
abbrev addr : Nat := 0x40600020
/-- BLV_SCRUB_POS.POS, R280. -/
abbrev POS : Fld := ⟨0x40600020, 0, 30, 0⟩
end BLV_SCRUB_POS
namespace BLV_APER
/-- Address of BLV_APER of instance n (R548). -/
abbrev addr (n : Nat) : Nat := 0x40600040 + 0x4 * n
/-- BLV_APER.BASE of instance n, R280. -/
abbrev BASE (n : Nat) : Fld := ⟨0x40600040 + 0x4 * n, 0, 12, 16⟩
end BLV_APER
namespace DMA_CH_CTRL
/-- Address of DMA_CH_CTRL of instance n (R548). -/
abbrev addr (n : Nat) : Nat := 0x40700000 + 0x40 * n
/-- DMA_CH_CTRL.START of instance n, R308. -/
abbrev START (n : Nat) : Fld := ⟨0x40700000 + 0x40 * n, 0, 1, 0⟩
/-- DMA_CH_CTRL.ABORT of instance n, R308. -/
abbrev ABORT (n : Nat) : Fld := ⟨0x40700000 + 0x40 * n, 1, 1, 0⟩
/-- DMA_CH_CTRL.CLASS of instance n, R308. -/
abbrev CLASS (n : Nat) : Fld := ⟨0x40700000 + 0x40 * n, 4, 2, 3⟩
/-- DMA_CH_CTRL.DSRC of instance n, R308. -/
abbrev DSRC (n : Nat) : Fld := ⟨0x40700000 + 0x40 * n, 6, 1, 0⟩
/-- DMA_CH_CTRL.HDR of instance n, R308. -/
abbrev HDR (n : Nat) : Fld := ⟨0x40700000 + 0x40 * n, 7, 1, 0⟩
/-- DMA_CH_CTRL.STREAM of instance n, R308. -/
abbrev STREAM (n : Nat) : Fld := ⟨0x40700000 + 0x40 * n, 8, 3, 0⟩
/-- DMA_CH_CTRL.AUTO_REL of instance n, R308. -/
abbrev AUTO_REL (n : Nat) : Fld := ⟨0x40700000 + 0x40 * n, 11, 1, 0⟩
end DMA_CH_CTRL
namespace DMA_CH_STAT
/-- Address of DMA_CH_STAT of instance n (R548). -/
abbrev addr (n : Nat) : Nat := 0x40700004 + 0x40 * n
/-- DMA_CH_STAT.STATE of instance n, R308. -/
abbrev STATE (n : Nat) : Fld := ⟨0x40700004 + 0x40 * n, 0, 3, 0⟩
/-- DMA_CH_STAT.FENCED of instance n, R308. -/
abbrev FENCED (n : Nat) : Fld := ⟨0x40700004 + 0x40 * n, 3, 1, 0⟩
/-- DMA_CH_STAT.UE of instance n, R308. -/
abbrev UE (n : Nat) : Fld := ⟨0x40700004 + 0x40 * n, 4, 1, 0⟩
/-- DMA_CH_STAT.END of instance n, R308. -/
abbrev END (n : Nat) : Fld := ⟨0x40700004 + 0x40 * n, 5, 1, 0⟩
/-- DMA_CH_STAT.BUSY_WR of instance n, R308. -/
abbrev BUSY_WR (n : Nat) : Fld := ⟨0x40700004 + 0x40 * n, 6, 1, 0⟩
/-- DMA_CH_STAT.ERR of instance n, R308. -/
abbrev ERR (n : Nat) : Fld := ⟨0x40700004 + 0x40 * n, 8, 3, 0⟩
/-- DMA_CH_STAT.STAGED of instance n, R308. -/
abbrev STAGED (n : Nat) : Fld := ⟨0x40700004 + 0x40 * n, 12, 3, 0⟩
end DMA_CH_STAT
namespace DMA_CH_DESC_LO
/-- Address of DMA_CH_DESC_LO of instance n (R548). -/
abbrev addr (n : Nat) : Nat := 0x40700008 + 0x40 * n
/-- DMA_CH_DESC_LO.ADDR of instance n, R308. -/
abbrev ADDR (n : Nat) : Fld := ⟨0x40700008 + 0x40 * n, 6, 26, 0⟩
end DMA_CH_DESC_LO
namespace DMA_CH_DESC_HI
/-- Address of DMA_CH_DESC_HI of instance n (R548). -/
abbrev addr (n : Nat) : Nat := 0x4070000C + 0x40 * n
/-- DMA_CH_DESC_HI.ADDR of instance n, R308. -/
abbrev ADDR (n : Nat) : Fld := ⟨0x4070000C + 0x40 * n, 0, 8, 0⟩
end DMA_CH_DESC_HI
namespace DMA_CH_COUNT
/-- Address of DMA_CH_COUNT of instance n (R548). -/
abbrev addr (n : Nat) : Nat := 0x40700010 + 0x40 * n
/-- DMA_CH_COUNT.COUNT of instance n, R308. -/
abbrev COUNT (n : Nat) : Fld := ⟨0x40700010 + 0x40 * n, 0, 24, 0⟩
end DMA_CH_COUNT
namespace DMA_CH_PACE
/-- Address of DMA_CH_PACE of instance n (R548). -/
abbrev addr (n : Nat) : Nat := 0x40700014 + 0x40 * n
/-- DMA_CH_PACE.MODE of instance n, R308. -/
abbrev MODE (n : Nat) : Fld := ⟨0x40700014 + 0x40 * n, 0, 2, 0⟩
/-- DMA_CH_PACE.SRC of instance n, R308. -/
abbrev SRC (n : Nat) : Fld := ⟨0x40700014 + 0x40 * n, 4, 3, 0⟩
/-- DMA_CH_PACE.LO of instance n, R308. -/
abbrev LO (n : Nat) : Fld := ⟨0x40700014 + 0x40 * n, 8, 10, 0⟩
/-- DMA_CH_PACE.HI of instance n, R308. -/
abbrev HI (n : Nat) : Fld := ⟨0x40700014 + 0x40 * n, 20, 10, 1⟩
/-- DMA_CH_PACE.ON of instance n, R308. -/
abbrev ON (n : Nat) : Fld := ⟨0x40700014 + 0x40 * n, 31, 1, 0⟩
end DMA_CH_PACE
namespace DMA_CH_TAG
/-- Address of DMA_CH_TAG of instance n (R548). -/
abbrev addr (n : Nat) : Nat := 0x40700018 + 0x40 * n
/-- DMA_CH_TAG.TAG of instance n, R308. -/
abbrev TAG (n : Nat) : Fld := ⟨0x40700018 + 0x40 * n, 0, 32, 0⟩
end DMA_CH_TAG
namespace DMA_GSTAT
/-- Address of DMA_GSTAT (R548). -/
abbrev addr : Nat := 0x40708000
/-- DMA_GSTAT.C0_SQ, R308. -/
abbrev C0_SQ : Fld := ⟨0x40708000, 0, 1, 0⟩
/-- DMA_GSTAT.C0_BLV, R308. -/
abbrev C0_BLV : Fld := ⟨0x40708000, 1, 1, 0⟩
/-- DMA_GSTAT.BCAST_MISMATCH, R308. -/
abbrev BCAST_MISMATCH : Fld := ⟨0x40708000, 2, 1, 0⟩
end DMA_GSTAT
namespace DMA_GEND
/-- Address of DMA_GEND (R548). -/
abbrev addr : Nat := 0x40708004
/-- DMA_GEND.END, R308. -/
abbrev END : Fld := ⟨0x40708004, 0, 32, 0⟩
end DMA_GEND
namespace DMA_GRP_DEF
/-- Address of DMA_GRP_DEF of instance n (R548). -/
abbrev addr (n : Nat) : Nat := 0x40708010 + 0x4 * n
/-- DMA_GRP_DEF.MEMBERS of instance n, R308. -/
abbrev MEMBERS (n : Nat) : Fld := ⟨0x40708010 + 0x4 * n, 0, 32, 0⟩
end DMA_GRP_DEF
namespace DMA_BCAST_GROUP
/-- Address of DMA_BCAST_GROUP (R548). -/
abbrev addr : Nat := 0x40708030
/-- DMA_BCAST_GROUP.GROUPS, R308. -/
abbrev GROUPS : Fld := ⟨0x40708030, 0, 8, 0⟩
end DMA_BCAST_GROUP
namespace EVT_LINE_SRC
/-- Address of EVT_LINE_SRC of instance n (R548). -/
abbrev addr (n : Nat) : Nat := 0x40780000 + 0x4 * n
/-- EVT_LINE_SRC.SRC of instance n, R323. -/
abbrev SRC (n : Nat) : Fld := ⟨0x40780000 + 0x4 * n, 0, 8, 0⟩
/-- EVT_LINE_SRC.BAD of instance n, R323. -/
abbrev BAD (n : Nat) : Fld := ⟨0x40780000 + 0x4 * n, 8, 1, 0⟩
end EVT_LINE_SRC
namespace EVT_STOP_MASK_LO
/-- Address of EVT_STOP_MASK_LO of instance n (R548). -/
abbrev addr (n : Nat) : Nat := 0x40780100 + 0x8 * n
/-- EVT_STOP_MASK_LO.MASK of instance n, R323. -/
abbrev MASK (n : Nat) : Fld := ⟨0x40780100 + 0x8 * n, 0, 32, 0⟩
end EVT_STOP_MASK_LO
namespace EVT_STOP_MASK_HI
/-- Address of EVT_STOP_MASK_HI of instance n (R548). -/
abbrev addr (n : Nat) : Nat := 0x40780104 + 0x8 * n
/-- EVT_STOP_MASK_HI.MASK of instance n, R323. -/
abbrev MASK (n : Nat) : Fld := ⟨0x40780104 + 0x8 * n, 0, 32, 0⟩
end EVT_STOP_MASK_HI
namespace EVT_STOP_CNT
/-- Address of EVT_STOP_CNT of instance n (R548). -/
abbrev addr (n : Nat) : Nat := 0x40780400 + 0x4 * n
/-- EVT_STOP_CNT.COUNT of instance n, R323. -/
abbrev COUNT (n : Nat) : Fld := ⟨0x40780400 + 0x4 * n, 0, 4, 0⟩
/-- EVT_STOP_CNT.OVERRUN of instance n, R323. -/
abbrev OVERRUN (n : Nat) : Fld := ⟨0x40780400 + 0x4 * n, 8, 1, 0⟩
/-- EVT_STOP_CNT.CLR of instance n, R323. -/
abbrev CLR (n : Nat) : Fld := ⟨0x40780400 + 0x4 * n, 16, 1, 0⟩
end EVT_STOP_CNT
namespace EVT_OVR_LO
/-- Address of EVT_OVR_LO (R548). -/
abbrev addr : Nat := 0x40780500
/-- EVT_OVR_LO.OVR, R323. -/
abbrev OVR : Fld := ⟨0x40780500, 0, 32, 0⟩
end EVT_OVR_LO
namespace EVT_OVR_HI
/-- Address of EVT_OVR_HI (R548). -/
abbrev addr : Nat := 0x40780504
/-- EVT_OVR_HI.OVR, R323. -/
abbrev OVR : Fld := ⟨0x40780504, 0, 32, 0⟩
end EVT_OVR_HI
namespace EVT_SW
/-- Address of EVT_SW (R548). -/
abbrev addr : Nat := 0x40780510
/-- EVT_SW.SW, R323. -/
abbrev SW : Fld := ⟨0x40780510, 0, 16, 0⟩
end EVT_SW
namespace EVT_PIN
/-- Address of EVT_PIN of instance n (R548). -/
abbrev addr (n : Nat) : Nat := 0x40780520 + 0x4 * n
/-- EVT_PIN.DIR of instance n, R323. -/
abbrev DIR (n : Nat) : Fld := ⟨0x40780520 + 0x4 * n, 0, 1, 0⟩
/-- EVT_PIN.EDGE of instance n, R323. -/
abbrev EDGE (n : Nat) : Fld := ⟨0x40780520 + 0x4 * n, 1, 2, 0⟩
/-- EVT_PIN.LINE of instance n, R323. -/
abbrev LINE (n : Nat) : Fld := ⟨0x40780520 + 0x4 * n, 8, 6, 0⟩
/-- EVT_PIN.WIDTH of instance n, R323. -/
abbrev WIDTH (n : Nat) : Fld := ⟨0x40780520 + 0x4 * n, 16, 8, 4⟩
/-- EVT_PIN.POL of instance n, R323. -/
abbrev POL (n : Nat) : Fld := ⟨0x40780520 + 0x4 * n, 24, 1, 0⟩
end EVT_PIN
namespace EVT_SEEN_LO
/-- Address of EVT_SEEN_LO (R548). -/
abbrev addr : Nat := 0x40780530
/-- EVT_SEEN_LO.SEEN, R323. -/
abbrev SEEN : Fld := ⟨0x40780530, 0, 32, 0⟩
end EVT_SEEN_LO
namespace EVT_SEEN_HI
/-- Address of EVT_SEEN_HI (R548). -/
abbrev addr : Nat := 0x40780534
/-- EVT_SEEN_HI.SEEN, R323. -/
abbrev SEEN : Fld := ⟨0x40780534, 0, 32, 0⟩
end EVT_SEEN_HI
namespace EVT_Q_CFG
/-- Address of EVT_Q_CFG of instance n (R548). -/
abbrev addr (n : Nat) : Nat := 0x40780600 + 0x4 * n
/-- EVT_Q_CFG.WM of instance n, R323. -/
abbrev WM (n : Nat) : Fld := ⟨0x40780600 + 0x4 * n, 0, 9, evtQWmReset n⟩
end EVT_Q_CFG
namespace EVT_Q_STAT
/-- Address of EVT_Q_STAT of instance n (R548). -/
abbrev addr (n : Nat) : Nat := 0x40780680 + 0x4 * n
/-- EVT_Q_STAT.DEPTH of instance n, R323. -/
abbrev DEPTH (n : Nat) : Fld := ⟨0x40780680 + 0x4 * n, 0, 9, 0⟩
/-- EVT_Q_STAT.NE of instance n, R323. -/
abbrev NE (n : Nat) : Fld := ⟨0x40780680 + 0x4 * n, 16, 1, 0⟩
/-- EVT_Q_STAT.WMS of instance n, R323. -/
abbrev WMS (n : Nat) : Fld := ⟨0x40780680 + 0x4 * n, 17, 1, 0⟩
/-- EVT_Q_STAT.FULL of instance n, R323. -/
abbrev FULL (n : Nat) : Fld := ⟨0x40780680 + 0x4 * n, 18, 1, 0⟩
end EVT_Q_STAT
namespace SP0_CTRL
/-- Address of SP0_CTRL (R548). -/
abbrev addr : Nat := 0x40800000
/-- SP0_CTRL.ENABLE, R404. -/
abbrev ENABLE : Fld := ⟨0x40800000, 0, 1, 1⟩
/-- SP0_CTRL.ABORT, R404. -/
abbrev ABORT : Fld := ⟨0x40800000, 1, 1, 0⟩
/-- SP0_CTRL.ROLE, R404. -/
abbrev ROLE : Fld := ⟨0x40800000, 2, 1, 0⟩
end SP0_CTRL
namespace SP0_CFG
/-- Address of SP0_CFG (R548). -/
abbrev addr : Nat := 0x40800004
/-- SP0_CFG.FREQ, R404. -/
abbrev FREQ : Fld := ⟨0x40800004, 0, 4, 1⟩
/-- SP0_CFG.CPOL, R404. -/
abbrev CPOL : Fld := ⟨0x40800004, 4, 1, 0⟩
/-- SP0_CFG.CPHA, R404. -/
abbrev CPHA : Fld := ⟨0x40800004, 5, 1, 0⟩
/-- SP0_CFG.SETUP, R404. -/
abbrev SETUP : Fld := ⟨0x40800004, 8, 4, 2⟩
/-- SP0_CFG.HOLD, R404. -/
abbrev HOLD : Fld := ⟨0x40800004, 12, 4, 2⟩
/-- SP0_CFG.IDLE, R404. -/
abbrev IDLE : Fld := ⟨0x40800004, 16, 4, 2⟩
end SP0_CFG
namespace SP0_STAT
/-- Address of SP0_STAT (R548). -/
abbrev addr : Nat := 0x40800008
/-- SP0_STAT.BUSY, R404. -/
abbrev BUSY : Fld := ⟨0x40800008, 0, 1, 0⟩
/-- SP0_STAT.ERR_CAUSE, R404. -/
abbrev ERR_CAUSE : Fld := ⟨0x40800008, 1, 2, 0⟩
/-- SP0_STAT.REFUSED, R404. -/
abbrev REFUSED : Fld := ⟨0x40800008, 3, 1, 0⟩
/-- SP0_STAT.ABORTED, R404. -/
abbrev ABORTED : Fld := ⟨0x40800008, 4, 1, 0⟩
/-- SP0_STAT.RX_OVF, R404. -/
abbrev RX_OVF : Fld := ⟨0x40800008, 5, 1, 0⟩
/-- SP0_STAT.TX_UND, R404. -/
abbrev TX_UND : Fld := ⟨0x40800008, 6, 1, 0⟩
/-- SP0_STAT.SHORT, R404. -/
abbrev SHORT : Fld := ⟨0x40800008, 7, 1, 0⟩
/-- SP0_STAT.CMD_DEPTH, R404. -/
abbrev CMD_DEPTH : Fld := ⟨0x40800008, 8, 5, 0⟩
/-- SP0_STAT.RX_DEPTH, R404. -/
abbrev RX_DEPTH : Fld := ⟨0x40800008, 16, 5, 0⟩
end SP0_STAT
namespace SP0_TXD
/-- Address of SP0_TXD (R548). -/
abbrev addr : Nat := 0x4080000C
/-- SP0_TXD.DATA, R404. -/
abbrev DATA : Fld := ⟨0x4080000C, 0, 32, 0⟩
end SP0_TXD
namespace SP0_CMD
/-- Address of SP0_CMD (R548). -/
abbrev addr : Nat := 0x40800010
/-- SP0_CMD.ENTRY, R404. -/
abbrev ENTRY : Fld := ⟨0x40800010, 0, 32, 0⟩
end SP0_CMD
namespace SP0_RXD
/-- Address of SP0_RXD (R548). -/
abbrev addr : Nat := 0x40800014
/-- SP0_RXD.DATA, R404. -/
abbrev DATA : Fld := ⟨0x40800014, 0, 32, 0⟩
end SP0_RXD
namespace SP1_CTRL
/-- Address of SP1_CTRL (R548). -/
abbrev addr : Nat := 0x40810000
/-- SP1_CTRL.ENABLE, R404. -/
abbrev ENABLE : Fld := ⟨0x40810000, 0, 1, 1⟩
/-- SP1_CTRL.ABORT, R404. -/
abbrev ABORT : Fld := ⟨0x40810000, 1, 1, 0⟩
/-- SP1_CTRL.ROLE, R404. -/
abbrev ROLE : Fld := ⟨0x40810000, 2, 1, 1⟩
end SP1_CTRL
namespace SP1_CFG
/-- Address of SP1_CFG (R548). -/
abbrev addr : Nat := 0x40810004
/-- SP1_CFG.TA, R404. -/
abbrev TA : Fld := ⟨0x40810004, 0, 4, 4⟩
end SP1_CFG
namespace SP1_STAT
/-- Address of SP1_STAT (R548). -/
abbrev addr : Nat := 0x40810008
/-- SP1_STAT.BUSY, R404. -/
abbrev BUSY : Fld := ⟨0x40810008, 0, 1, 0⟩
/-- SP1_STAT.ERR_CAUSE, R404. -/
abbrev ERR_CAUSE : Fld := ⟨0x40810008, 1, 2, 0⟩
/-- SP1_STAT.REFUSED, R404. -/
abbrev REFUSED : Fld := ⟨0x40810008, 3, 1, 0⟩
/-- SP1_STAT.ABORTED, R404. -/
abbrev ABORTED : Fld := ⟨0x40810008, 4, 1, 0⟩
/-- SP1_STAT.RX_OVF, R404. -/
abbrev RX_OVF : Fld := ⟨0x40810008, 5, 1, 0⟩
/-- SP1_STAT.TX_UND, R404. -/
abbrev TX_UND : Fld := ⟨0x40810008, 6, 1, 0⟩
/-- SP1_STAT.SHORT, R404. -/
abbrev SHORT : Fld := ⟨0x40810008, 7, 1, 0⟩
/-- SP1_STAT.CMD_DEPTH, R404. -/
abbrev CMD_DEPTH : Fld := ⟨0x40810008, 8, 5, 0⟩
/-- SP1_STAT.RX_DEPTH, R404. -/
abbrev RX_DEPTH : Fld := ⟨0x40810008, 16, 5, 0⟩
end SP1_STAT
namespace SP2_CTRL
/-- Address of SP2_CTRL (R548). -/
abbrev addr : Nat := 0x40820000
/-- SP2_CTRL.ENABLE, R404. -/
abbrev ENABLE : Fld := ⟨0x40820000, 0, 1, 0⟩
/-- SP2_CTRL.ABORT, R404. -/
abbrev ABORT : Fld := ⟨0x40820000, 1, 1, 0⟩
/-- SP2_CTRL.ROLE, R404. -/
abbrev ROLE : Fld := ⟨0x40820000, 2, 1, 0⟩
end SP2_CTRL
namespace SP2_CFG
/-- Address of SP2_CFG (R548). -/
abbrev addr : Nat := 0x40820004
/-- SP2_CFG.FREQ, R404. -/
abbrev FREQ : Fld := ⟨0x40820004, 0, 4, 1⟩
/-- SP2_CFG.CPOL, R404. -/
abbrev CPOL : Fld := ⟨0x40820004, 4, 1, 0⟩
/-- SP2_CFG.CPHA, R404. -/
abbrev CPHA : Fld := ⟨0x40820004, 5, 1, 0⟩
/-- SP2_CFG.SELMODE, R404. -/
abbrev SELMODE : Fld := ⟨0x40820004, 6, 1, 0⟩
/-- SP2_CFG.SETUP, R404. -/
abbrev SETUP : Fld := ⟨0x40820004, 8, 4, 2⟩
/-- SP2_CFG.HOLD, R404. -/
abbrev HOLD : Fld := ⟨0x40820004, 12, 4, 2⟩
/-- SP2_CFG.IDLE, R404. -/
abbrev IDLE : Fld := ⟨0x40820004, 16, 4, 2⟩
end SP2_CFG
namespace SP2_STAT
/-- Address of SP2_STAT (R548). -/
abbrev addr : Nat := 0x40820008
/-- SP2_STAT.BUSY, R404. -/
abbrev BUSY : Fld := ⟨0x40820008, 0, 1, 0⟩
/-- SP2_STAT.ERR_CAUSE, R404. -/
abbrev ERR_CAUSE : Fld := ⟨0x40820008, 1, 2, 0⟩
/-- SP2_STAT.REFUSED, R404. -/
abbrev REFUSED : Fld := ⟨0x40820008, 3, 1, 0⟩
/-- SP2_STAT.ABORTED, R404. -/
abbrev ABORTED : Fld := ⟨0x40820008, 4, 1, 0⟩
/-- SP2_STAT.RX_OVF, R404. -/
abbrev RX_OVF : Fld := ⟨0x40820008, 5, 1, 0⟩
/-- SP2_STAT.TX_UND, R404. -/
abbrev TX_UND : Fld := ⟨0x40820008, 6, 1, 0⟩
/-- SP2_STAT.SHORT, R404. -/
abbrev SHORT : Fld := ⟨0x40820008, 7, 1, 0⟩
/-- SP2_STAT.CMD_DEPTH, R404. -/
abbrev CMD_DEPTH : Fld := ⟨0x40820008, 8, 5, 0⟩
/-- SP2_STAT.RX_DEPTH, R404. -/
abbrev RX_DEPTH : Fld := ⟨0x40820008, 16, 5, 0⟩
end SP2_STAT
namespace SP2_TXD
/-- Address of SP2_TXD (R548). -/
abbrev addr : Nat := 0x4082000C
/-- SP2_TXD.DATA, R404. -/
abbrev DATA : Fld := ⟨0x4082000C, 0, 32, 0⟩
end SP2_TXD
namespace SP2_CMD
/-- Address of SP2_CMD (R548). -/
abbrev addr : Nat := 0x40820010
/-- SP2_CMD.ENTRY, R404. -/
abbrev ENTRY : Fld := ⟨0x40820010, 0, 32, 0⟩
end SP2_CMD
namespace SP2_RXD
/-- Address of SP2_RXD (R548). -/
abbrev addr : Nat := 0x40820014
/-- SP2_RXD.DATA, R404. -/
abbrev DATA : Fld := ⟨0x40820014, 0, 32, 0⟩
end SP2_RXD
namespace SP1_CNT
/-- Address of SP1_CNT (R548). -/
abbrev addr : Nat := 0x40810018
/-- SP1_CNT.TRANS, R404. -/
abbrev TRANS : Fld := ⟨0x40810018, 0, 16, 0⟩
/-- SP1_CNT.MALFORMED, R404. -/
abbrev MALFORMED : Fld := ⟨0x40810018, 16, 16, 0⟩
end SP1_CNT
namespace SP0_XIP_TMPL
/-- Address of SP0_XIP_TMPL (R548). -/
abbrev addr : Nat := 0x40800040
/-- SP0_XIP_TMPL.CMD, R404. -/
abbrev CMD : Fld := ⟨0x40800040, 0, 16, 0⟩
/-- SP0_XIP_TMPL.CMD2, R404. -/
abbrev CMD2 : Fld := ⟨0x40800040, 16, 1, 0⟩
/-- SP0_XIP_TMPL.CMD_LANES, R404. -/
abbrev CMD_LANES : Fld := ⟨0x40800040, 17, 2, 0⟩
/-- SP0_XIP_TMPL.ADDR_LANES, R404. -/
abbrev ADDR_LANES : Fld := ⟨0x40800040, 19, 2, 0⟩
/-- SP0_XIP_TMPL.DATA_LANES, R404. -/
abbrev DATA_LANES : Fld := ⟨0x40800040, 21, 2, 0⟩
/-- SP0_XIP_TMPL.DTR, R404. -/
abbrev DTR : Fld := ⟨0x40800040, 23, 1, 0⟩
/-- SP0_XIP_TMPL.DUMMY, R404. -/
abbrev DUMMY : Fld := ⟨0x40800040, 24, 5, 0⟩
/-- SP0_XIP_TMPL.DQS_EN, R404. -/
abbrev DQS_EN : Fld := ⟨0x40800040, 29, 1, 0⟩
end SP0_XIP_TMPL
namespace SP0_XIP_FREQ
/-- Address of SP0_XIP_FREQ (R548). -/
abbrev addr : Nat := 0x40800044
/-- SP0_XIP_FREQ.FREQ, R404. -/
abbrev FREQ : Fld := ⟨0x40800044, 0, 4, 0⟩
end SP0_XIP_FREQ
namespace SP0_XIP_CTRL
/-- Address of SP0_XIP_CTRL (R548). -/
abbrev addr : Nat := 0x40800048
/-- SP0_XIP_CTRL.HOLD, R404. -/
abbrev HOLD : Fld := ⟨0x40800048, 0, 1, 0⟩
/-- SP0_XIP_CTRL.WIN_REFUSED, R404. -/
abbrev WIN_REFUSED : Fld := ⟨0x40800048, 1, 1, 0⟩
end SP0_XIP_CTRL
namespace SP0_WIN_FLASH
/-- Address of SP0_WIN_FLASH of instance n (R548). -/
abbrev addr (n : Nat) : Nat := 0x40800050 + 0x10 * n
/-- SP0_WIN_FLASH.FLASH_OFS of instance n, R404. -/
abbrev FLASH_OFS (n : Nat) : Fld := ⟨0x40800050 + 0x10 * n, 12, 12, 0⟩
end SP0_WIN_FLASH
namespace SP0_WIN_BASE
/-- Address of SP0_WIN_BASE of instance n (R548). -/
abbrev addr (n : Nat) : Nat := 0x40800054 + 0x10 * n
/-- SP0_WIN_BASE.WIN_OFS of instance n, R404. -/
abbrev WIN_OFS (n : Nat) : Fld := ⟨0x40800054 + 0x10 * n, 12, 16, 0⟩
end SP0_WIN_BASE
namespace SP0_WIN_LEN
/-- Address of SP0_WIN_LEN of instance n (R548). -/
abbrev addr (n : Nat) : Nat := 0x40800058 + 0x10 * n
/-- SP0_WIN_LEN.LENGTH of instance n, R404. -/
abbrev LENGTH (n : Nat) : Fld := ⟨0x40800058 + 0x10 * n, 12, 17, 0⟩
end SP0_WIN_LEN
namespace SP0_WIN_CFG
/-- Address of SP0_WIN_CFG of instance n (R548). -/
abbrev addr (n : Nat) : Nat := 0x4080005C + 0x10 * n
/-- SP0_WIN_CFG.KEY of instance n, R404. -/
abbrev KEY (n : Nat) : Fld := ⟨0x4080005C + 0x10 * n, 0, 8, 0⟩
/-- SP0_WIN_CFG.EN of instance n, R404. -/
abbrev EN (n : Nat) : Fld := ⟨0x4080005C + 0x10 * n, 8, 1, 0⟩
end SP0_WIN_CFG
namespace HFR_CFG
/-- Address of HFR_CFG (R548). -/
abbrev addr : Nat := 0x40880000
/-- HFR_CFG.CHAN, R421. -/
abbrev CHAN : Fld := ⟨0x40880000, 0, 5, 31⟩
/-- HFR_CFG.CLASS, R421. -/
abbrev CLASS : Fld := ⟨0x40880000, 8, 2, 3⟩
end HFR_CFG
namespace HFR_STAT
/-- Address of HFR_STAT (R548). -/
abbrev addr : Nat := 0x40880004
/-- HFR_STAT.PRESENT, R421. -/
abbrev PRESENT : Fld := ⟨0x40880004, 0, 1, 0⟩
/-- HFR_STAT.INFLIGHT, R421. -/
abbrev INFLIGHT : Fld := ⟨0x40880004, 1, 3, 0⟩
/-- HFR_STAT.PENDING, R421. -/
abbrev PENDING : Fld := ⟨0x40880004, 4, 1, 0⟩
/-- HFR_STAT.LAST_ALIVE, R421. -/
abbrev LAST_ALIVE : Fld := ⟨0x40880004, 8, 8, 0⟩
/-- HFR_STAT.LAST_TYPE, R421. -/
abbrev LAST_TYPE : Fld := ⟨0x40880004, 16, 4, 0⟩
end HFR_STAT
namespace HFR_CNT
/-- Address of HFR_CNT (R548). -/
abbrev addr : Nat := 0x40880008
/-- HFR_CNT.BAD, R421. -/
abbrev BAD : Fld := ⟨0x40880008, 0, 8, 0⟩
/-- HFR_CNT.DUP, R421. -/
abbrev DUP : Fld := ⟨0x40880008, 8, 8, 0⟩
/-- HFR_CNT.GAP, R421. -/
abbrev GAP : Fld := ⟨0x40880008, 16, 8, 0⟩
/-- HFR_CNT.REFUSED, R421. -/
abbrev REFUSED : Fld := ⟨0x40880008, 24, 8, 0⟩
end HFR_CNT
namespace HFR_ATTN
/-- Address of HFR_ATTN (R548). -/
abbrev addr : Nat := 0x4088000C
/-- HFR_ATTN.STOP, R421. -/
abbrev STOP : Fld := ⟨0x4088000C, 0, 1, 0⟩
/-- HFR_ATTN.DMA_END, R421. -/
abbrev DMA_END : Fld := ⟨0x4088000C, 1, 1, 0⟩
/-- HFR_ATTN.ERR_LOG, R421. -/
abbrev ERR_LOG : Fld := ⟨0x4088000C, 2, 1, 0⟩
/-- HFR_ATTN.REPLY, R421. -/
abbrev REPLY : Fld := ⟨0x4088000C, 3, 1, 0⟩
/-- HFR_ATTN.FIFO, R421. -/
abbrev FIFO : Fld := ⟨0x4088000C, 4, 1, 0⟩
end HFR_ATTN
namespace HFR_ATTN_EN
/-- Address of HFR_ATTN_EN (R548). -/
abbrev addr : Nat := 0x40880010
/-- HFR_ATTN_EN.EN, R421. -/
abbrev EN : Fld := ⟨0x40880010, 0, 5, 31⟩
end HFR_ATTN_EN
namespace HFR_DMA_MASK
/-- Address of HFR_DMA_MASK (R548). -/
abbrev addr : Nat := 0x40880014
/-- HFR_DMA_MASK.MASK, R421. -/
abbrev MASK : Fld := ⟨0x40880014, 0, 32, 0⟩
end HFR_DMA_MASK
namespace HFR_REQ_STAT
/-- Address of HFR_REQ_STAT (R548). -/
abbrev addr : Nat := 0x40880018
/-- HFR_REQ_STAT.PENDING, R421. -/
abbrev PENDING : Fld := ⟨0x40880018, 0, 1, 0⟩
/-- HFR_REQ_STAT.ALIVE, R421. -/
abbrev ALIVE : Fld := ⟨0x40880018, 8, 8, 0⟩
/-- HFR_REQ_STAT.LEN, R421. -/
abbrev LEN : Fld := ⟨0x40880018, 16, 11, 0⟩
end HFR_REQ_STAT
namespace HFR_REQ_ADDR
/-- Address of HFR_REQ_ADDR (R548). -/
abbrev addr : Nat := 0x4088001C
/-- HFR_REQ_ADDR.CODE, R421. -/
abbrev CODE : Fld := ⟨0x4088001C, 0, 32, 0⟩
end HFR_REQ_ADDR
namespace HFR_REQ_RSP
/-- Address of HFR_REQ_RSP (R548). -/
abbrev addr : Nat := 0x40880020
/-- HFR_REQ_RSP.DONE, R421. -/
abbrev DONE : Fld := ⟨0x40880020, 0, 1, 0⟩
/-- HFR_REQ_RSP.RESULT, R421. -/
abbrev RESULT : Fld := ⟨0x40880020, 8, 8, 0⟩
/-- HFR_REQ_RSP.LEN, R421. -/
abbrev LEN : Fld := ⟨0x40880020, 16, 11, 0⟩
end HFR_REQ_RSP
namespace HFR_REQ_BUF
/-- Address of HFR_REQ_BUF of instance n (R548). -/
abbrev addr (n : Nat) : Nat := 0x40881000 + 0x4 * n
/-- HFR_REQ_BUF.WORD of instance n, R421. -/
abbrev WORD (n : Nat) : Fld := ⟨0x40881000 + 0x4 * n, 0, 32, 0⟩
end HFR_REQ_BUF
namespace HFR_RSP_BUF
/-- Address of HFR_RSP_BUF of instance n (R548). -/
abbrev addr (n : Nat) : Nat := 0x40882000 + 0x4 * n
/-- HFR_RSP_BUF.WORD of instance n, R421. -/
abbrev WORD (n : Nat) : Fld := ⟨0x40882000 + 0x4 * n, 0, 32, 0⟩
end HFR_RSP_BUF
namespace DSP_CTRL
/-- Address of DSP_CTRL (R548). -/
abbrev addr : Nat := 0x40900000
/-- DSP_CTRL.EN, R439. -/
abbrev EN : Fld := ⟨0x40900000, 0, 1, 0⟩
/-- DSP_CTRL.IF, R439. -/
abbrev IF : Fld := ⟨0x40900000, 1, 2, 1⟩
/-- DSP_CTRL.LANES, R439. -/
abbrev LANES : Fld := ⟨0x40900000, 3, 2, 2⟩
/-- DSP_CTRL.FMT, R439. -/
abbrev FMT : Fld := ⟨0x40900000, 5, 2, 0⟩
/-- DSP_CTRL.APPLY, R439. -/
abbrev APPLY : Fld := ⟨0x40900000, 8, 1, 0⟩
/-- DSP_CTRL.APPLY_PEND, R439. -/
abbrev APPLY_PEND : Fld := ⟨0x40900000, 9, 1, 0⟩
/-- DSP_CTRL.REFUSED, R439. -/
abbrev REFUSED : Fld := ⟨0x40900000, 10, 1, 0⟩
/-- DSP_CTRL.CAUSE, R439. -/
abbrev CAUSE : Fld := ⟨0x40900000, 11, 3, 0⟩
end DSP_CTRL
namespace DSP_STAT
/-- Address of DSP_STAT (R548). -/
abbrev addr : Nat := 0x40900004
/-- DSP_STAT.RUN, R439. -/
abbrev RUN : Fld := ⟨0x40900004, 0, 1, 0⟩
/-- DSP_STAT.PLAN_SHORT, R439. -/
abbrev PLAN_SHORT : Fld := ⟨0x40900004, 1, 1, 0⟩
/-- DSP_STAT.ORDER_OK, R439. -/
abbrev ORDER_OK : Fld := ⟨0x40900004, 2, 1, 0⟩
/-- DSP_STAT.ACK_ERR, R439. -/
abbrev ACK_ERR : Fld := ⟨0x40900004, 3, 1, 0⟩
/-- DSP_STAT.CMD_PEND, R439. -/
abbrev CMD_PEND : Fld := ⟨0x40900004, 4, 1, 0⟩
/-- DSP_STAT.CMD_REFUSED, R439. -/
abbrev CMD_REFUSED : Fld := ⟨0x40900004, 5, 1, 0⟩
/-- DSP_STAT.LINE, R439. -/
abbrev LINE : Fld := ⟨0x40900004, 16, 10, 0⟩
end DSP_STAT
namespace DSP_CNT
/-- Address of DSP_CNT (R548). -/
abbrev addr : Nat := 0x40900008
/-- DSP_CNT.UNDERRUN, R439. -/
abbrev UNDERRUN : Fld := ⟨0x40900008, 0, 16, 0⟩
/-- DSP_CNT.TE_MISS, R439. -/
abbrev TE_MISS : Fld := ⟨0x40900008, 16, 8, 0⟩
/-- DSP_CNT.TE_SKIP, R439. -/
abbrev TE_SKIP : Fld := ⟨0x40900008, 24, 8, 0⟩
end DSP_CNT
namespace DSP_CLK
/-- Address of DSP_CLK (R548). -/
abbrev addr : Nat := 0x4090000C
/-- DSP_CLK.N, R439. -/
abbrev N : Fld := ⟨0x4090000C, 0, 13, 4551⟩
/-- DSP_CLK.LR, R439. -/
abbrev LR : Fld := ⟨0x4090000C, 16, 7, 64⟩
end DSP_CLK
namespace DSP_HTIM0
/-- Address of DSP_HTIM0 (R548). -/
abbrev addr : Nat := 0x40900010
/-- DSP_HTIM0.HACT, R439. -/
abbrev HACT : Fld := ⟨0x40900010, 0, 11, 1280⟩
/-- DSP_HTIM0.HSYNC, R439. -/
abbrev HSYNC : Fld := ⟨0x40900010, 16, 11, 32⟩
end DSP_HTIM0
namespace DSP_HTIM1
/-- Address of DSP_HTIM1 (R548). -/
abbrev addr : Nat := 0x40900014
/-- DSP_HTIM1.HFP, R439. -/
abbrev HFP : Fld := ⟨0x40900014, 0, 11, 48⟩
/-- DSP_HTIM1.HBP, R439. -/
abbrev HBP : Fld := ⟨0x40900014, 16, 11, 80⟩
end DSP_HTIM1
namespace DSP_VTIM0
/-- Address of DSP_VTIM0 (R548). -/
abbrev addr : Nat := 0x40900018
/-- DSP_VTIM0.VACT, R439. -/
abbrev VACT : Fld := ⟨0x40900018, 0, 10, 800⟩
/-- DSP_VTIM0.VSYNC, R439. -/
abbrev VSYNC : Fld := ⟨0x40900018, 16, 10, 6⟩
end DSP_VTIM0
namespace DSP_VTIM1
/-- Address of DSP_VTIM1 (R548). -/
abbrev addr : Nat := 0x4090001C
/-- DSP_VTIM1.VFP, R439. -/
abbrev VFP : Fld := ⟨0x4090001C, 0, 10, 3⟩
/-- DSP_VTIM1.VBP, R439. -/
abbrev VBP : Fld := ⟨0x4090001C, 16, 10, 14⟩
end DSP_VTIM1
namespace DSP_POL
/-- Address of DSP_POL (R548). -/
abbrev addr : Nat := 0x40900020
/-- DSP_POL.POLS, R439. -/
abbrev POLS : Fld := ⟨0x40900020, 0, 4, 0⟩
end DSP_POL
namespace DSP_FB
/-- Address of DSP_FB (R548). -/
abbrev addr : Nat := 0x40900024
/-- DSP_FB.FB_OFS, R439. -/
abbrev FB_OFS : Fld := ⟨0x40900024, 6, 15, 0⟩
/-- DSP_FB.STRIDE, R439. -/
abbrev STRIDE : Fld := ⟨0x40900024, 24, 8, 40⟩
end DSP_FB
namespace DSP_PLANE
/-- Address of DSP_PLANE (R548). -/
abbrev addr : Nat := 0x40900028
/-- DSP_PLANE.EN, R439. -/
abbrev EN : Fld := ⟨0x40900028, 0, 3, 0⟩
/-- DSP_PLANE.WSH, R439. -/
abbrev WSH : Fld := ⟨0x40900028, 4, 4, 0⟩
/-- DSP_PLANE.WZERO, R439. -/
abbrev WZERO : Fld := ⟨0x40900028, 8, 1, 1⟩
end DSP_PLANE
namespace DSP_WAVE_POS
/-- Address of DSP_WAVE_POS (R548). -/
abbrev addr : Nat := 0x4090002C
/-- DSP_WAVE_POS.WAVE_X, R439. -/
abbrev WAVE_X : Fld := ⟨0x4090002C, 0, 11, 0⟩
/-- DSP_WAVE_POS.WAVE_Y, R439. -/
abbrev WAVE_Y : Fld := ⟨0x4090002C, 16, 10, 0⟩
end DSP_WAVE_POS
namespace DSP_CUR_POS
/-- Address of DSP_CUR_POS (R548). -/
abbrev addr : Nat := 0x40900030
/-- DSP_CUR_POS.CUR_X, R439. -/
abbrev CUR_X : Fld := ⟨0x40900030, 0, 11, 0⟩
/-- DSP_CUR_POS.CUR_Y, R439. -/
abbrev CUR_Y : Fld := ⟨0x40900030, 16, 10, 0⟩
end DSP_CUR_POS
namespace DSP_CUR_COL
/-- Address of DSP_CUR_COL of instance n (R548). -/
abbrev addr (n : Nat) : Nat := 0x40900034 + 0x4 * n
/-- DSP_CUR_COL.RGB of instance n, R439. -/
abbrev RGB (n : Nat) : Fld := ⟨0x40900034 + 0x4 * n, 0, 24, 0⟩
end DSP_CUR_COL
namespace DSP_BG
/-- Address of DSP_BG (R548). -/
abbrev addr : Nat := 0x40900040
/-- DSP_BG.RGB, R439. -/
abbrev RGB : Fld := ⟨0x40900040, 0, 24, 0⟩
end DSP_BG
namespace DSP_LINECMP
/-- Address of DSP_LINECMP (R548). -/
abbrev addr : Nat := 0x40900044
/-- DSP_LINECMP.LINE, R439. -/
abbrev LINE : Fld := ⟨0x40900044, 0, 10, 0⟩
end DSP_LINECMP
namespace DSP_TE
/-- Address of DSP_TE (R548). -/
abbrev addr : Nat := 0x40900048
/-- DSP_TE.EN, R439. -/
abbrev EN : Fld := ⟨0x40900048, 0, 1, 0⟩
/-- DSP_TE.POL, R439. -/
abbrev POL : Fld := ⟨0x40900048, 1, 1, 0⟩
/-- DSP_TE.TIMEOUT, R439. -/
abbrev TIMEOUT : Fld := ⟨0x40900048, 8, 8, 50⟩
end DSP_TE
namespace DSP_DSI
/-- Address of DSP_DSI (R548). -/
abbrev addr : Nat := 0x4090004C
/-- DSP_DSI.EOTP, R439. -/
abbrev EOTP : Fld := ⟨0x4090004C, 0, 1, 1⟩
/-- DSP_DSI.ACK, R439. -/
abbrev ACK : Fld := ⟨0x4090004C, 1, 1, 0⟩
end DSP_DSI
namespace DSP_CMD
/-- Address of DSP_CMD (R548). -/
abbrev addr : Nat := 0x40900050
/-- DSP_CMD.LEN, R439. -/
abbrev LEN : Fld := ⟨0x40900050, 0, 3, 1⟩
/-- DSP_CMD.GO, R439. -/
abbrev GO : Fld := ⟨0x40900050, 8, 1, 0⟩
end DSP_CMD
namespace DSP_CMD_DATA
/-- Address of DSP_CMD_DATA (R548). -/
abbrev addr : Nat := 0x40900054
/-- DSP_CMD_DATA.DATA, R439. -/
abbrev DATA : Fld := ⟨0x40900054, 0, 32, 0⟩
end DSP_CMD_DATA
namespace DSP_CTAB
/-- Address of DSP_CTAB of instance n (R548). -/
abbrev addr (n : Nat) : Nat := 0x40900400 + 0x4 * n
/-- DSP_CTAB.ENTRY of instance n, R439. -/
abbrev ENTRY (n : Nat) : Fld := ⟨0x40900400 + 0x4 * n, 0, 32, 0⟩
end DSP_CTAB
namespace DSP_CUR_BMP
/-- Address of DSP_CUR_BMP of instance n (R548). -/
abbrev addr (n : Nat) : Nat := 0x40900800 + 0x4 * n
/-- DSP_CUR_BMP.PIXELS of instance n, R439. -/
abbrev PIXELS (n : Nat) : Fld := ⟨0x40900800 + 0x4 * n, 0, 32, 0⟩
end DSP_CUR_BMP
namespace STM_CTRL
/-- Address of STM_CTRL (R548). -/
abbrev addr : Nat := 0x40A00000
/-- STM_CTRL.TDR_EN, R463. -/
abbrev TDR_EN : Fld := ⟨0x40A00000, 0, 1, 0⟩
/-- STM_CTRL.LAS_EN, R463. -/
abbrev LAS_EN : Fld := ⟨0x40A00000, 1, 1, 0⟩
/-- STM_CTRL.ABORT, R463. -/
abbrev ABORT : Fld := ⟨0x40A00000, 8, 1, 0⟩
end STM_CTRL
namespace STM_STAT
/-- Address of STM_STAT (R548). -/
abbrev addr : Nat := 0x40A00004
/-- STM_STAT.TDR_ON, R463. -/
abbrev TDR_ON : Fld := ⟨0x40A00004, 0, 1, 0⟩
/-- STM_STAT.LAS_ON, R463. -/
abbrev LAS_ON : Fld := ⟨0x40A00004, 1, 1, 0⟩
/-- STM_STAT.TONE_ON, R463. -/
abbrev TONE_ON : Fld := ⟨0x40A00004, 2, 1, 0⟩
/-- STM_STAT.CAUSE, R463. -/
abbrev CAUSE : Fld := ⟨0x40A00004, 8, 2, 0⟩
/-- STM_STAT.ABORTED, R463. -/
abbrev ABORTED : Fld := ⟨0x40A00004, 10, 1, 0⟩
end STM_STAT
namespace STM_TDR
/-- Address of STM_TDR (R548). -/
abbrev addr : Nat := 0x40A00008
/-- STM_TDR.AMP, R463. -/
abbrev AMP : Fld := ⟨0x40A00008, 0, 1, 0⟩
/-- STM_TDR.PAT, R463. -/
abbrev PAT : Fld := ⟨0x40A00008, 1, 1, 0⟩
/-- STM_TDR.PAT_ID, R463. -/
abbrev PAT_ID : Fld := ⟨0x40A00008, 8, 8, 0⟩
/-- STM_TDR.DLY, R463. -/
abbrev DLY : Fld := ⟨0x40A00008, 16, 16, 0⟩
end STM_TDR
namespace STM_TDR_WIDTH
/-- Address of STM_TDR_WIDTH (R548). -/
abbrev addr : Nat := 0x40A0000C
/-- STM_TDR_WIDTH.WIDTH, R463. -/
abbrev WIDTH : Fld := ⟨0x40A0000C, 0, 17, 4096⟩
end STM_TDR_WIDTH
namespace STM_LAS_DLY
/-- Address of STM_LAS_DLY (R548). -/
abbrev addr : Nat := 0x40A00010
/-- STM_LAS_DLY.COARSE, R463. -/
abbrev COARSE : Fld := ⟨0x40A00010, 0, 19, 0⟩
/-- STM_LAS_DLY.FINE, R463. -/
abbrev FINE : Fld := ⟨0x40A00010, 24, 5, 0⟩
end STM_LAS_DLY
namespace STM_LAS_WIDTH
/-- Address of STM_LAS_WIDTH (R548). -/
abbrev addr : Nat := 0x40A00014
/-- STM_LAS_WIDTH.WIDTH, R463. -/
abbrev WIDTH : Fld := ⟨0x40A00014, 0, 20, 80⟩
end STM_LAS_WIDTH
namespace STM_AUDIO_CTRL
/-- Address of STM_AUDIO_CTRL (R548). -/
abbrev addr : Nat := 0x40A00020
/-- STM_AUDIO_CTRL.RUN, R463. -/
abbrev RUN : Fld := ⟨0x40A00020, 0, 1, 0⟩
/-- STM_AUDIO_CTRL.TONE_EN, R463. -/
abbrev TONE_EN : Fld := ⟨0x40A00020, 1, 1, 0⟩
/-- STM_AUDIO_CTRL.START_LVL, R463. -/
abbrev START_LVL : Fld := ⟨0x40A00020, 8, 6, 32⟩
end STM_AUDIO_CTRL
namespace STM_AUDIO_SRC
/-- Address of STM_AUDIO_SRC (R548). -/
abbrev addr : Nat := 0x40A00024
/-- STM_AUDIO_SRC.TONE_SRC, R463. -/
abbrev TONE_SRC : Fld := ⟨0x40A00024, 0, 2, 0⟩
/-- STM_AUDIO_SRC.SPK_SRC, R463. -/
abbrev SPK_SRC : Fld := ⟨0x40A00024, 2, 2, 0⟩
/-- STM_AUDIO_SRC.TONE_ID, R463. -/
abbrev TONE_ID : Fld := ⟨0x40A00024, 8, 8, 0⟩
/-- STM_AUDIO_SRC.SPK_ID, R463. -/
abbrev SPK_ID : Fld := ⟨0x40A00024, 16, 8, 0⟩
end STM_AUDIO_SRC
namespace STM_AUDIO_STAT
/-- Address of STM_AUDIO_STAT (R548). -/
abbrev addr : Nat := 0x40A00028
/-- STM_AUDIO_STAT.TONE_DEPTH, R463. -/
abbrev TONE_DEPTH : Fld := ⟨0x40A00028, 0, 7, 0⟩
/-- STM_AUDIO_STAT.SPK_DEPTH, R463. -/
abbrev SPK_DEPTH : Fld := ⟨0x40A00028, 8, 7, 0⟩
/-- STM_AUDIO_STAT.RUNNING, R463. -/
abbrev RUNNING : Fld := ⟨0x40A00028, 16, 1, 0⟩
/-- STM_AUDIO_STAT.DROPS, R463. -/
abbrev DROPS : Fld := ⟨0x40A00028, 24, 8, 0⟩
end STM_AUDIO_STAT
namespace STM_TONE_LVL
/-- Address of STM_TONE_LVL (R548). -/
abbrev addr : Nat := 0x40A0002C
/-- STM_TONE_LVL.ATT, R463. -/
abbrev ATT : Fld := ⟨0x40A0002C, 0, 8, 0⟩
end STM_TONE_LVL
namespace STM_SLIP
/-- Address of STM_SLIP (R548). -/
abbrev addr : Nat := 0x40A00030
/-- STM_SLIP.COUNT, R463. -/
abbrev COUNT : Fld := ⟨0x40A00030, 0, 24, 0⟩
end STM_SLIP
namespace STM_TONE_PUSH
/-- Address of STM_TONE_PUSH (R548). -/
abbrev addr : Nat := 0x40A00040
/-- STM_TONE_PUSH.SAMPLE, R463. -/
abbrev SAMPLE : Fld := ⟨0x40A00040, 0, 16, 0⟩
end STM_TONE_PUSH
namespace STM_SPK_PUSH
/-- Address of STM_SPK_PUSH (R548). -/
abbrev addr : Nat := 0x40A00044
/-- STM_SPK_PUSH.SAMPLE, R463. -/
abbrev SAMPLE : Fld := ⟨0x40A00044, 0, 16, 0⟩
end STM_SPK_PUSH
namespace STM_PAIR_PUSH
/-- Address of STM_PAIR_PUSH (R548). -/
abbrev addr : Nat := 0x40A00048
/-- STM_PAIR_PUSH.TONE, R463. -/
abbrev TONE : Fld := ⟨0x40A00048, 0, 16, 0⟩
/-- STM_PAIR_PUSH.SPK, R463. -/
abbrev SPK : Fld := ⟨0x40A00048, 16, 16, 0⟩
end STM_PAIR_PUSH
namespace AMP_CTRL
/-- Address of AMP_CTRL (R548). -/
abbrev addr : Nat := 0x40A10000
/-- AMP_CTRL.EN, R463. -/
abbrev EN : Fld := ⟨0x40A10000, 0, 1, 0⟩
/-- AMP_CTRL.CLEAR, R463. -/
abbrev CLEAR : Fld := ⟨0x40A10000, 1, 1, 0⟩
/-- AMP_CTRL.VOL, R463. -/
abbrev VOL : Fld := ⟨0x40A10000, 8, 8, 12⟩
/-- AMP_CTRL.RETRY, R463. -/
abbrev RETRY : Fld := ⟨0x40A10000, 16, 6, 8⟩
end AMP_CTRL
namespace AMP_STAT
/-- Address of AMP_STAT (R548). -/
abbrev addr : Nat := 0x40A10004
/-- AMP_STAT.STATE, R463. -/
abbrev STATE : Fld := ⟨0x40A10004, 0, 3, 0⟩
/-- AMP_STAT.AMP_FAULT, R463. -/
abbrev AMP_FAULT : Fld := ⟨0x40A10004, 3, 1, 0⟩
/-- AMP_STAT.THERM, R463. -/
abbrev THERM : Fld := ⟨0x40A10004, 4, 1, 0⟩
/-- AMP_STAT.UVLO, R463. -/
abbrev UVLO : Fld := ⟨0x40A10004, 5, 1, 0⟩
/-- AMP_STAT.RETRIES, R463. -/
abbrev RETRIES : Fld := ⟨0x40A10004, 8, 4, 0⟩
end AMP_STAT
namespace AMP_CNT
/-- Address of AMP_CNT (R548). -/
abbrev addr : Nat := 0x40A10008
/-- AMP_CNT.TRIPS, R463. -/
abbrev TRIPS : Fld := ⟨0x40A10008, 0, 16, 0⟩
end AMP_CNT
namespace KRB_CTRL
/-- Address of KRB_CTRL (R548). -/
abbrev addr : Nat := 0x40A20000
/-- KRB_CTRL.CLEAR, R463. -/
abbrev CLEAR : Fld := ⟨0x40A20000, 0, 1, 0⟩
end KRB_CTRL
namespace KRB_STAT
/-- Address of KRB_STAT (R548). -/
abbrev addr : Nat := 0x40A20004
/-- KRB_STAT.VIOL, R463. -/
abbrev VIOL : Fld := ⟨0x40A20004, 0, 5, 0⟩
/-- KRB_STAT.MON_FAIL, R463. -/
abbrev MON_FAIL : Fld := ⟨0x40A20004, 5, 1, 0⟩
/-- KRB_STAT.READY, R463. -/
abbrev READY : Fld := ⟨0x40A20004, 6, 1, 0⟩
/-- KRB_STAT.TRIPPED, R463. -/
abbrev TRIPPED : Fld := ⟨0x40A20004, 7, 1, 0⟩
/-- KRB_STAT.OVR, R463. -/
abbrev OVR : Fld := ⟨0x40A20004, 8, 4, 0⟩
/-- KRB_STAT.LIGHT_EN, R463. -/
abbrev LIGHT_EN : Fld := ⟨0x40A20004, 12, 1, 0⟩
/-- KRB_STAT.WR_REFUSED, R463. -/
abbrev WR_REFUSED : Fld := ⟨0x40A20004, 13, 1, 0⟩
end KRB_STAT
namespace KRB_DC
/-- Address of KRB_DC (R548). -/
abbrev addr : Nat := 0x40A20008
/-- KRB_DC.DC, R463. -/
abbrev DC : Fld := ⟨0x40A20008, 0, 16, 0⟩
end KRB_DC
namespace KRB_AC
/-- Address of KRB_AC (R548). -/
abbrev addr : Nat := 0x40A2000C
/-- KRB_AC.AC, R463. -/
abbrev AC : Fld := ⟨0x40A2000C, 0, 16, 0⟩
end KRB_AC
namespace KRB_LIGHT
/-- Address of KRB_LIGHT (R548). -/
abbrev addr : Nat := 0x40A20010
/-- KRB_LIGHT.MEAN, R463. -/
abbrev MEAN : Fld := ⟨0x40A20010, 0, 16, 0⟩
end KRB_LIGHT
namespace KRB_LIGHT_THR
/-- Address of KRB_LIGHT_THR (R548). -/
abbrev addr : Nat := 0x40A20014
/-- KRB_LIGHT_THR.THR, R463. -/
abbrev THR : Fld := ⟨0x40A20014, 0, 16, 1024⟩
end KRB_LIGHT_THR
namespace KRB_QUIET
/-- Address of KRB_QUIET (R548). -/
abbrev addr : Nat := 0x40A20018
/-- KRB_QUIET.QUIET, R463. -/
abbrev QUIET : Fld := ⟨0x40A20018, 0, 16, 4096⟩
end KRB_QUIET
namespace KRB_UNLOCK
/-- Address of KRB_UNLOCK (R548). -/
abbrev addr : Nat := 0x40A20020
/-- KRB_UNLOCK.KEY, R463. -/
abbrev KEY : Fld := ⟨0x40A20020, 0, 16, 0⟩
end KRB_UNLOCK
namespace KRB_OVR
/-- Address of KRB_OVR (R548). -/
abbrev addr : Nat := 0x40A20024
/-- KRB_OVR.MASK, R463. -/
abbrev MASK : Fld := ⟨0x40A20024, 0, 4, 0⟩
/-- KRB_OVR.KEY, R463. -/
abbrev KEY : Fld := ⟨0x40A20024, 8, 8, 0⟩
end KRB_OVR
namespace KRB_TRIP_LO
/-- Address of KRB_TRIP_LO (R548). -/
abbrev addr : Nat := 0x40A20028
/-- KRB_TRIP_LO.TICK, R463. -/
abbrev TICK : Fld := ⟨0x40A20028, 0, 32, 0⟩
end KRB_TRIP_LO
namespace KRB_TRIP_HI
/-- Address of KRB_TRIP_HI (R548). -/
abbrev addr : Nat := 0x40A2002C
/-- KRB_TRIP_HI.TICK, R463. -/
abbrev TICK : Fld := ⟨0x40A2002C, 0, 32, 0⟩
end KRB_TRIP_HI
namespace KRB_CNT
/-- Address of KRB_CNT (R548). -/
abbrev addr : Nat := 0x40A20030
/-- KRB_CNT.TRIPS, R463. -/
abbrev TRIPS : Fld := ⟨0x40A20030, 0, 16, 0⟩
end KRB_CNT
namespace ERL_CTRL
/-- Address of ERL_CTRL (R548). -/
abbrev addr : Nat := 0x40B00000
/-- ERL_CTRL.RESTART, R488. -/
abbrev RESTART : Fld := ⟨0x40B00000, 0, 1, 0⟩
end ERL_CTRL
namespace ERL_STAT
/-- Address of ERL_STAT (R548). -/
abbrev addr : Nat := 0x40B00004
/-- ERL_STAT.ROLE, R488. -/
abbrev ROLE : Fld := ⟨0x40B00004, 0, 2, 0⟩
/-- ERL_STAT.UPSTREAM, R488. -/
abbrev UPSTREAM : Fld := ⟨0x40B00004, 2, 1, 0⟩
/-- ERL_STAT.HOPS, R488. -/
abbrev HOPS : Fld := ⟨0x40B00004, 4, 3, 0⟩
/-- ERL_STAT.ALIGNED, R488. -/
abbrev ALIGNED : Fld := ⟨0x40B00004, 7, 1, 0⟩
/-- ERL_STAT.CONFLICT, R488. -/
abbrev CONFLICT : Fld := ⟨0x40B00004, 8, 1, 0⟩
/-- ERL_STAT.LOCAL_IGN, R488. -/
abbrev LOCAL_IGN : Fld := ⟨0x40B00004, 16, 8, 0⟩
/-- ERL_STAT.NOTIME, R488. -/
abbrev NOTIME : Fld := ⟨0x40B00004, 24, 8, 0⟩
end ERL_STAT
namespace ERL_NET
/-- Address of ERL_NET (R548). -/
abbrev addr : Nat := 0x40B00008
/-- ERL_NET.ARM_EN, R488. -/
abbrev ARM_EN : Fld := ⟨0x40B00008, 0, 1, 0⟩
/-- ERL_NET.FIRE_TX, R488. -/
abbrev FIRE_TX : Fld := ⟨0x40B00008, 4, 4, 0⟩
/-- ERL_NET.LEAD, R488. -/
abbrev LEAD : Fld := ⟨0x40B00008, 12, 20, 1⟩
end ERL_NET
namespace ERL_MASTER_LO
/-- Address of ERL_MASTER_LO (R548). -/
abbrev addr : Nat := 0x40B0000C
/-- ERL_MASTER_LO.ID, R488. -/
abbrev ID : Fld := ⟨0x40B0000C, 0, 32, 0⟩
end ERL_MASTER_LO
namespace ERL_MASTER_HI
/-- Address of ERL_MASTER_HI (R548). -/
abbrev addr : Nat := 0x40B00010
/-- ERL_MASTER_HI.ID, R488. -/
abbrev ID : Fld := ⟨0x40B00010, 0, 32, 0⟩
end ERL_MASTER_HI
namespace ERL_OFFSET
/-- Address of ERL_OFFSET (R548). -/
abbrev addr : Nat := 0x40B00014
/-- ERL_OFFSET.THETA, R488. -/
abbrev THETA : Fld := ⟨0x40B00014, 0, 32, 0⟩
end ERL_OFFSET
namespace ERL_WIN
/-- Address of ERL_WIN (R548). -/
abbrev addr : Nat := 0x40B00018
/-- ERL_WIN.OPEN, R488. -/
abbrev OPEN : Fld := ⟨0x40B00018, 0, 8, 0⟩
end ERL_WIN
namespace ERL_PORT_CTRL
/-- Address of ERL_PORT_CTRL of instance n (R548). -/
abbrev addr (n : Nat) : Nat := 0x40B00100 + 0x100 * n
/-- ERL_PORT_CTRL.EN of instance n, R488. -/
abbrev EN (n : Nat) : Fld := ⟨0x40B00100 + 0x100 * n, 0, 1, 0⟩
/-- ERL_PORT_CTRL.ABORT of instance n, R488. -/
abbrev ABORT (n : Nat) : Fld := ⟨0x40B00100 + 0x100 * n, 1, 1, 0⟩
end ERL_PORT_CTRL
namespace ERL_PORT_STAT
/-- Address of ERL_PORT_STAT of instance n (R548). -/
abbrev addr (n : Nat) : Nat := 0x40B00104 + 0x100 * n
/-- ERL_PORT_STAT.STATE of instance n, R488. -/
abbrev STATE (n : Nat) : Fld := ⟨0x40B00104 + 0x100 * n, 0, 2, 0⟩
/-- ERL_PORT_STAT.CAUSE of instance n, R488. -/
abbrev CAUSE (n : Nat) : Fld := ⟨0x40B00104 + 0x100 * n, 4, 3, 0⟩
end ERL_PORT_STAT
namespace ERL_PORT_CNT
/-- Address of ERL_PORT_CNT of instance n (R548). -/
abbrev addr (n : Nat) : Nat := 0x40B00108 + 0x100 * n
/-- ERL_PORT_CNT.CRC of instance n, R488. -/
abbrev CRC (n : Nat) : Fld := ⟨0x40B00108 + 0x100 * n, 0, 8, 0⟩
/-- ERL_PORT_CNT.REPLAY of instance n, R488. -/
abbrev REPLAY (n : Nat) : Fld := ⟨0x40B00108 + 0x100 * n, 8, 8, 0⟩
/-- ERL_PORT_CNT.VC0_LOST of instance n, R488. -/
abbrev VC0_LOST (n : Nat) : Fld := ⟨0x40B00108 + 0x100 * n, 16, 8, 0⟩
/-- ERL_PORT_CNT.REFUSED of instance n, R488. -/
abbrev REFUSED (n : Nat) : Fld := ⟨0x40B00108 + 0x100 * n, 24, 8, 0⟩
end ERL_PORT_CNT
namespace ERL_PORT_DELAY
/-- Address of ERL_PORT_DELAY of instance n (R548). -/
abbrev addr (n : Nat) : Nat := 0x40B0010C + 0x100 * n
/-- ERL_PORT_DELAY.DELAY of instance n, R488. -/
abbrev DELAY (n : Nat) : Fld := ⟨0x40B0010C + 0x100 * n, 0, 16, 0⟩
end ERL_PORT_DELAY
namespace SEC_OTP_ADDR
/-- Address of SEC_OTP_ADDR (R548). -/
abbrev addr : Nat := 0x40C00000
/-- SEC_OTP_ADDR.WORD, R106. -/
abbrev WORD : Fld := ⟨0x40C00000, 0, 6, 0⟩
end SEC_OTP_ADDR
namespace SEC_OTP_DATA
/-- Address of SEC_OTP_DATA (R548). -/
abbrev addr : Nat := 0x40C00004
/-- SEC_OTP_DATA.DATA, R106. -/
abbrev DATA : Fld := ⟨0x40C00004, 0, 32, 0⟩
end SEC_OTP_DATA
namespace SEC_OTP_CMD
/-- Address of SEC_OTP_CMD (R548). -/
abbrev addr : Nat := 0x40C00008
/-- SEC_OTP_CMD.PROG, R106. -/
abbrev PROG : Fld := ⟨0x40C00008, 0, 1, 0⟩
/-- SEC_OTP_CMD.BUSY, R106. -/
abbrev BUSY : Fld := ⟨0x40C00008, 1, 1, 0⟩
/-- SEC_OTP_CMD.REFUSED, R106. -/
abbrev REFUSED : Fld := ⟨0x40C00008, 2, 1, 0⟩
end SEC_OTP_CMD
namespace LOG_CTRL
/-- Address of LOG_CTRL (R548). -/
abbrev addr : Nat := 0x40D00000
/-- LOG_CTRL.POP, R546. -/
abbrev POP : Fld := ⟨0x40D00000, 0, 1, 0⟩
/-- LOG_CTRL.CLEAR, R546. -/
abbrev CLEAR : Fld := ⟨0x40D00000, 1, 1, 0⟩
end LOG_CTRL
namespace LOG_STAT
/-- Address of LOG_STAT (R548). -/
abbrev addr : Nat := 0x40D00004
/-- LOG_STAT.DEPTH, R546. -/
abbrev DEPTH : Fld := ⟨0x40D00004, 0, 9, 0⟩
/-- LOG_STAT.LOST, R546. -/
abbrev LOST : Fld := ⟨0x40D00004, 16, 8, 0⟩
/-- LOG_STAT.WAITING, R546. -/
abbrev WAITING : Fld := ⟨0x40D00004, 24, 5, 0⟩
end LOG_STAT
namespace LOG_IDX
/-- Address of LOG_IDX (R548). -/
abbrev addr : Nat := 0x40D00008
/-- LOG_IDX.RD, R546. -/
abbrev RD : Fld := ⟨0x40D00008, 0, 8, 0⟩
/-- LOG_IDX.WR, R546. -/
abbrev WR : Fld := ⟨0x40D00008, 8, 8, 0⟩
end LOG_IDX
namespace LOG_ESEQ
/-- Address of LOG_ESEQ (R548). -/
abbrev addr : Nat := 0x40D0000C
/-- LOG_ESEQ.NEXT, R546. -/
abbrev NEXT : Fld := ⟨0x40D0000C, 0, 32, 0⟩
end LOG_ESEQ
namespace LOG_ENT
/-- Address of LOG_ENT of instance n (R548). -/
abbrev addr (n : Nat) : Nat := 0x40D00020 + 0x4 * n
/-- LOG_ENT.WORD of instance n, R546. -/
abbrev WORD (n : Nat) : Fld := ⟨0x40D00020 + 0x4 * n, 0, 32, 0⟩
end LOG_ENT
namespace LOG_ABORT_CTRL
/-- Address of LOG_ABORT_CTRL (R548). -/
abbrev addr : Nat := 0x40D00040
/-- LOG_ABORT_CTRL.REQ, R546. -/
abbrev REQ : Fld := ⟨0x40D00040, 0, 1, 0⟩
/-- LOG_ABORT_CTRL.SEQ, R546. -/
abbrev SEQ : Fld := ⟨0x40D00040, 8, 1, 0⟩
end LOG_ABORT_CTRL
namespace LOG_ABORT_STAT
/-- Address of LOG_ABORT_STAT (R548). -/
abbrev addr : Nat := 0x40D00044
/-- LOG_ABORT_STAT.BUSY, R546. -/
abbrev BUSY : Fld := ⟨0x40D00044, 0, 1, 0⟩
/-- LOG_ABORT_STAT.SRC, R546. -/
abbrev SRC : Fld := ⟨0x40D00044, 4, 4, 0⟩
/-- LOG_ABORT_STAT.COUNT, R546. -/
abbrev COUNT : Fld := ⟨0x40D00044, 8, 8, 0⟩
/-- LOG_ABORT_STAT.MERGED, R546. -/
abbrev MERGED : Fld := ⟨0x40D00044, 16, 8, 0⟩
end LOG_ABORT_STAT
namespace LOG_ABORT_TIME
/-- Address of LOG_ABORT_TIME (R548). -/
abbrev addr : Nat := 0x40D00048
/-- LOG_ABORT_TIME.LAST, R546. -/
abbrev LAST : Fld := ⟨0x40D00048, 0, 16, 0⟩
end LOG_ABORT_TIME
namespace LOG_RST_CAUSE
/-- Address of LOG_RST_CAUSE (R548). -/
abbrev addr : Nat := 0x40D0004C
/-- LOG_RST_CAUSE.CAUSE, R546. -/
abbrev CAUSE : Fld := ⟨0x40D0004C, 0, 2, 0⟩
/-- LOG_RST_CAUSE.LAST_RUNG, R546. -/
abbrev LAST_RUNG : Fld := ⟨0x40D0004C, 4, 3, 0⟩
/-- LOG_RST_CAUSE.WRITING, R546. -/
abbrev WRITING : Fld := ⟨0x40D0004C, 8, 1, 0⟩
/-- LOG_RST_CAUSE.PRIOR, R546. -/
abbrev PRIOR : Fld := ⟨0x40D0004C, 16, 4, 0⟩
end LOG_RST_CAUSE

/-- One register of R548: its name, the address of instance 0, the number of instances, the stride and the fields. -/
structure RegRow where
  name : String
  base : Addr
  count : Nat
  stride : Nat
  fields : Nat → List FieldRow

/-- Registers of R548, part 1. -/
def regTable0 : List RegRow := [
  ⟨"SYS_ID", 0x40000000, 1, 0x4, fun _ => [⟨SYS_ID.MINOR, .ro, false, false⟩, ⟨SYS_ID.MAJOR, .ro, false, false⟩, ⟨SYS_ID.PART, .ro, false, false⟩]⟩,
  ⟨"SYS_UID_LO", 0x40000004, 1, 0x4, fun _ => [⟨SYS_UID_LO.ID, .ro, false, false⟩]⟩,
  ⟨"SYS_UID_HI", 0x40000008, 1, 0x4, fun _ => [⟨SYS_UID_HI.ID, .ro, false, false⟩]⟩,
  ⟨"SYS_MODE", 0x40000010, 1, 0x4, fun _ => [⟨SYS_MODE.MODE, .rw, true, false⟩, ⟨SYS_MODE.ACTIVE, .ro, false, false⟩, ⟨SYS_MODE.MODE_REFUSED, .w1c, false, false⟩, ⟨SYS_MODE.REFUSE_CAUSE, .ro, false, false⟩, ⟨SYS_MODE.SWAP_PENDING, .ro, false, false⟩]⟩,
  ⟨"SYS_BOOT_STAT", 0x40000020, 1, 0x4, fun _ => [⟨SYS_BOOT_STAT.PATH, .ro, false, false⟩, ⟨SYS_BOOT_STAT.SLOT, .ro, false, false⟩, ⟨SYS_BOOT_STAT.FALLBACK, .ro, false, false⟩, ⟨SYS_BOOT_STAT.OCT_FALLBACK, .ro, false, false⟩, ⟨SYS_BOOT_STAT.AUTH_OK, .ro, false, false⟩, ⟨SYS_BOOT_STAT.AUTH_EN, .ro, false, false⟩, ⟨SYS_BOOT_STAT.DONE, .ro, false, false⟩, ⟨SYS_BOOT_STAT.HOST_WAIT, .ro, false, false⟩, ⟨SYS_BOOT_STAT.FAIL_A, .ro, false, false⟩, ⟨SYS_BOOT_STAT.FAIL_B, .ro, false, false⟩]⟩,
  ⟨"SYS_BOOT_CTRL", 0x40000024, 1, 0x4, fun _ => [⟨SYS_BOOT_CTRL.TRY_SLOT, .rw, false, false⟩, ⟨SYS_BOOT_CTRL.GO, .wo, false, false⟩]⟩,
  ⟨"SYS_BOOT_CFG", 0x40000028, 1, 0x4, fun _ => [⟨SYS_BOOT_CFG.AUTOSTART, .ro, false, false⟩, ⟨SYS_BOOT_CFG.ABSENT_POLICY, .ro, false, false⟩]⟩,
  ⟨"SYS_IMG_TAG", 0x4000002C, 1, 0x4, fun _ => [⟨SYS_IMG_TAG.TAG, .ro, false, false⟩]⟩,
  ⟨"SYS_IMG_SEQ", 0x40000030, 1, 0x4, fun _ => [⟨SYS_IMG_SEQ.SEQ, .ro, false, false⟩]⟩,
  ⟨"SYS_LEDGER", 0x40000034, 1, 0x4, fun _ => [⟨SYS_LEDGER.STATE, .ro, false, false⟩, ⟨SYS_LEDGER.COPY, .ro, false, false⟩, ⟨SYS_LEDGER.WRITING, .ro, false, false⟩, ⟨SYS_LEDGER.CLEAR, .w1s, false, false⟩, ⟨SYS_LEDGER.REVERTED, .ro, false, false⟩, ⟨SYS_LEDGER.GEN, .ro, false, false⟩]⟩,
  ⟨"SYS_SEQ_CTRL", 0x40000040, 1, 0x4, fun _ => [⟨SYS_SEQ_CTRL.ABORT, .w1s, false, false⟩]⟩,
  ⟨"SYS_SEQ_STAT", 0x40000044, 1, 0x4, fun _ => [⟨SYS_SEQ_STAT.STATE, .ro, false, false⟩, ⟨SYS_SEQ_STAT.LVL, .ro, false, false⟩, ⟨SYS_SEQ_STAT.ABORTS, .rc, false, false⟩, ⟨SYS_SEQ_STAT.CODE, .ro, false, false⟩]⟩,
  ⟨"SYS_SEQ_PC", 0x40000048, 1, 0x4, fun _ => [⟨SYS_SEQ_PC.PC, .ro, false, false⟩]⟩,
  ⟨"SYS_SEQ_COV_RD_LO", 0x40000050, 1, 0x4, fun _ => [⟨SYS_SEQ_COV_RD_LO.BANKS, .ro, false, false⟩]⟩,
  ⟨"SYS_SEQ_COV_RD_HI", 0x40000054, 1, 0x4, fun _ => [⟨SYS_SEQ_COV_RD_HI.BANKS, .ro, false, false⟩]⟩,
  ⟨"SYS_SEQ_COV_MW_LO", 0x40000058, 1, 0x4, fun _ => [⟨SYS_SEQ_COV_MW_LO.BANKS, .ro, false, false⟩]⟩,
  ⟨"SYS_SEQ_COV_MW_HI", 0x4000005C, 1, 0x4, fun _ => [⟨SYS_SEQ_COV_MW_HI.BANKS, .ro, false, false⟩]⟩,
  ⟨"SYS_SEQ_COV", 0x40000060, 1, 0x4, fun _ => [⟨SYS_SEQ_COV.BLV, .ro, false, false⟩, ⟨SYS_SEQ_COV.WAIT, .ro, false, false⟩, ⟨SYS_SEQ_COV.LOST, .w1c, false, false⟩, ⟨SYS_SEQ_COV.DIRTY, .ro, false, false⟩]⟩,
  ⟨"SYS_SEQ_XIP", 0x40000064, 1, 0x4, fun _ => [⟨SYS_SEQ_XIP.HITS, .rc, false, false⟩, ⟨SYS_SEQ_XIP.MISSES, .rc, false, false⟩]⟩,
  ⟨"PWR_CTRL", 0x40010000, 1, 0x4, fun _ => [⟨PWR_CTRL.TARGET, .wo, false, false⟩, ⟨PWR_CTRL.REST, .rw, false, false⟩, ⟨PWR_CTRL.HOLD_RUN, .rw, false, false⟩]⟩,
  ⟨"PWR_STAT", 0x40010004, 1, 0x4, fun _ => [⟨PWR_STAT.RUNG, .ro, false, false⟩, ⟨PWR_STAT.MOVING, .ro, false, false⟩, ⟨PWR_STAT.REFUSED, .w1c, false, false⟩, ⟨PWR_STAT.CAUSE, .ro, false, false⟩, ⟨PWR_STAT.WAKE_CAUSE, .ro, false, false⟩, ⟨PWR_STAT.BLV_WAIT, .ro, false, false⟩, ⟨PWR_STAT.PG, .ro, false, false⟩]⟩,
  ⟨"PWR_WAKE_EN", 0x40010008, 1, 0x4, fun _ => [⟨PWR_WAKE_EN.EN, .rw, false, false⟩]⟩,
  ⟨"PWR_WAKE_TMR", 0x4001000C, 1, 0x4, fun _ => [⟨PWR_WAKE_TMR.CYCLES, .rw, false, false⟩]⟩,
  ⟨"PWR_AVS_LIM", 0x40010010, 1, 0x4, fun _ => [⟨PWR_AVS_LIM.FLOOR, .rw, false, false⟩, ⟨PWR_AVS_LIM.CEIL, .rw, false, false⟩]⟩]

/-- Registers of R548, part 2. -/
def regTable1 : List RegRow := [
  ⟨"PWR_AVS_CFG", 0x40010014, 1, 0x4, fun _ => [⟨PWR_AVS_CFG.TGT, .rw, false, false⟩, ⟨PWR_AVS_CFG.HYST, .rw, false, false⟩]⟩,
  ⟨"PWR_AVS_STAT", 0x40010018, 1, 0x4, fun _ => [⟨PWR_AVS_STAT.VID, .ro, false, false⟩, ⟨PWR_AVS_STAT.PINNED, .ro, false, false⟩, ⟨PWR_AVS_STAT.NEG, .w1c, false, false⟩, ⟨PWR_AVS_STAT.MARGIN, .ro, false, false⟩]⟩,
  ⟨"PWR_CNT", 0x4001001C, 1, 0x4, fun _ => [⟨PWR_CNT.PINS, .rc, false, false⟩, ⟨PWR_CNT.MOVES, .rc, false, false⟩]⟩,
  ⟨"CLK_STAT", 0x40020000, 1, 0x4, fun _ => [⟨CLK_STAT.IN_USE, .ro, false, false⟩, ⟨CLK_STAT.HOLDOVER, .ro, false, false⟩, ⟨CLK_STAT.INUSE_NOTGOOD, .ro, false, false⟩, ⟨CLK_STAT.GLIDE, .ro, false, false⟩, ⟨CLK_STAT.LOCK, .ro, false, false⟩, ⟨CLK_STAT.TIME_REFUSED, .w1c, false, false⟩, ⟨CLK_STAT.SWITCHES, .rc, false, false⟩]⟩,
  ⟨"CLK_REF_CTRL", 0x40020004, 1, 0x4, fun _ => [⟨CLK_REF_CTRL.EN, .rw, false, false⟩, ⟨CLK_REF_CTRL.EXT_FREQ, .rw, false, false⟩, ⟨CLK_REF_CTRL.PREFER, .rw, false, false⟩, ⟨CLK_REF_CTRL.REVERT, .rw, false, false⟩, ⟨CLK_REF_CTRL.FORCE, .rw, false, false⟩, ⟨CLK_REF_CTRL.FORCE_GO, .w1s, false, false⟩, ⟨CLK_REF_CTRL.FORCE_REFUSED, .w1c, false, false⟩]⟩,
  ⟨"CLK_REF_THR", 0x40020008, 1, 0x4, fun _ => [⟨CLK_REF_THR.WARN, .rw, false, false⟩, ⟨CLK_REF_THR.FAIL, .rw, false, false⟩]⟩,
  ⟨"CLK_REF_CLASS", 0x4002000C, 1, 0x4, fun _ => [⟨CLK_REF_CLASS.CLASS, .ro, false, false⟩]⟩,
  ⟨"CLK_REF_ERR1", 0x40020010, 5, 0x4, fun n => [⟨CLK_REF_ERR1.E n, .ro, false, false⟩]⟩,
  ⟨"CLK_REF_ERR10", 0x40020030, 5, 0x4, fun n => [⟨CLK_REF_ERR10.E n, .ro, false, false⟩]⟩,
  ⟨"CLK_XTAL_ERR", 0x40020050, 1, 0x4, fun _ => [⟨CLK_XTAL_ERR.X, .ro, false, false⟩]⟩,
  ⟨"CLK_PPS_CTRL", 0x40020060, 1, 0x4, fun _ => [⟨CLK_PPS_CTRL.DISC, .rw, false, false⟩, ⟨CLK_PPS_CTRL.POL, .rw, false, false⟩]⟩,
  ⟨"CLK_PPS_OFS", 0x40020064, 1, 0x4, fun _ => [⟨CLK_PPS_OFS.OFS, .rw, false, false⟩]⟩,
  ⟨"CLK_PPS_RES", 0x40020068, 1, 0x4, fun _ => [⟨CLK_PPS_RES.R, .ro, false, false⟩]⟩,
  ⟨"CLK_PPS_CNT", 0x4002006C, 1, 0x4, fun _ => [⟨CLK_PPS_CNT.ACCEPT, .rc, false, false⟩, ⟨CLK_PPS_CNT.REJECT, .rc, false, false⟩]⟩,
  ⟨"CLK_TIME_SET_LO", 0x40020070, 1, 0x4, fun _ => [⟨CLK_TIME_SET_LO.TICK, .rw, false, false⟩]⟩,
  ⟨"CLK_TIME_SET_HI", 0x40020074, 1, 0x4, fun _ => [⟨CLK_TIME_SET_HI.TICK, .rw, false, false⟩]⟩,
  ⟨"CLK_TIME_CMD", 0x40020078, 1, 0x4, fun _ => [⟨CLK_TIME_CMD.GO, .w1s, false, false⟩]⟩,
  ⟨"CLK_GATE", 0x40020080, 8, 0x4, fun n => [⟨CLK_GATE.RUN n, .ro, false, false⟩]⟩,
  ⟨"CLK_XW_STAT", 0x400200A0, 1, 0x4, fun _ => [⟨CLK_XW_STAT.SLIPS, .rc, false, false⟩, ⟨CLK_XW_STAT.DOMAIN, .ro, false, false⟩]⟩,
  ⟨"AVE_SC_CTRL", 0x40100000, 68, 0x100, fun n => [⟨AVE_SC_CTRL.MAPOUT n, .rw, true, false⟩, ⟨AVE_SC_CTRL.REINSTATE n, .w1s, false, false⟩, ⟨AVE_SC_CTRL.FORCE_FAIL n, .w1s, false, false⟩]⟩,
  ⟨"AVE_SC_STAT", 0x40100004, 68, 0x100, fun n => [⟨AVE_SC_STAT.STATE n, .ro, false, false⟩, ⟨AVE_SC_STAT.POS n, .ro, false, false⟩, ⟨AVE_SC_STAT.CAUSE n, .ro, false, false⟩, ⟨AVE_SC_STAT.MISMATCH n, .ro, false, false⟩]⟩,
  ⟨"AVE_SC_OFFSET", 0x40100008, 68, 0x100, fun n => [⟨AVE_SC_OFFSET.OFFSET n, .rw, false, false⟩]⟩,
  ⟨"AVE_SC_GAIN", 0x4010000C, 68, 0x100, fun n => [⟨AVE_SC_GAIN.GAIN n, .rw, false, false⟩]⟩,
  ⟨"AVE_SC_SKEW", 0x40100010, 68, 0x100, fun n => [⟨AVE_SC_SKEW.SKEW n, .rw, false, false⟩]⟩]

/-- Registers of R548, part 3. -/
def regTable2 : List RegRow := [
  ⟨"AVE_SC_SKEW_EST", 0x40100014, 68, 0x100, fun n => [⟨AVE_SC_SKEW_EST.EST n, .ro, false, false⟩, ⟨AVE_SC_SKEW_EST.VALID n, .ro, false, false⟩]⟩,
  ⟨"AVE_SC_NOISE", 0x40100018, 68, 0x100, fun n => [⟨AVE_SC_NOISE.NOISE n, .ro, false, false⟩]⟩,
  ⟨"AVE_CFG", 0x40108000, 1, 0x4, fun _ => [⟨AVE_CFG.QSEL, .rw, true, true⟩, ⟨AVE_CFG.CONFIG, .ro, false, false⟩]⟩,
  ⟨"AVE_CH_UTRIM", 0x40108010, 4, 0x4, fun n => [⟨AVE_CH_UTRIM.UTRIM n, .rw, true, false⟩]⟩,
  ⟨"AVE_ROT_CTRL", 0x40108020, 1, 0x4, fun _ => [⟨AVE_ROT_CTRL.INTERVAL, .rw, true, false⟩, ⟨AVE_ROT_CTRL.ROT_HOLD, .rw, true, false⟩]⟩,
  ⟨"AVE_ROT_STAT", 0x40108024, 1, 0x4, fun _ => [⟨AVE_ROT_STAT.TARGET, .ro, false, false⟩, ⟨AVE_ROT_STAT.CANCELS, .rc, false, false⟩]⟩,
  ⟨"AVE_FAIL_POLICY", 0x40108028, 1, 0x4, fun _ => [⟨AVE_FAIL_POLICY.POLICY, .rw, true, false⟩, ⟨AVE_FAIL_POLICY.STUCK_LEN, .rw, true, false⟩, ⟨AVE_FAIL_POLICY.MATCH_LIM, .rw, true, false⟩, ⟨AVE_FAIL_POLICY.NOISE_LIM, .rw, true, false⟩]⟩,
  ⟨"AVE_Q_STAT", 0x4010802C, 1, 0x4, fun _ => [⟨AVE_Q_STAT.STATE0, .ro, false, false⟩, ⟨AVE_Q_STAT.HOLES0, .ro, false, false⟩, ⟨AVE_Q_STAT.INTERP_ON0, .ro, false, false⟩, ⟨AVE_Q_STAT.STATE1, .ro, false, false⟩, ⟨AVE_Q_STAT.HOLES1, .ro, false, false⟩, ⟨AVE_Q_STAT.INTERP_ON1, .ro, false, false⟩, ⟨AVE_Q_STAT.STATE2, .ro, false, false⟩, ⟨AVE_Q_STAT.HOLES2, .ro, false, false⟩, ⟨AVE_Q_STAT.INTERP_ON2, .ro, false, false⟩, ⟨AVE_Q_STAT.STATE3, .ro, false, false⟩, ⟨AVE_Q_STAT.HOLES3, .ro, false, false⟩, ⟨AVE_Q_STAT.INTERP_ON3, .ro, false, false⟩]⟩,
  ⟨"AVE_ET_CTRL", 0x40108030, 1, 0x4, fun _ => [⟨AVE_ET_CTRL.PHASE, .rw, true, false⟩, ⟨AVE_ET_CTRL.STEP, .rw, true, false⟩, ⟨AVE_ET_CTRL.PER, .rw, true, false⟩, ⟨AVE_ET_CTRL.AUTO, .rw, true, false⟩]⟩,
  ⟨"AVE_ET_STAT", 0x40108034, 1, 0x4, fun _ => [⟨AVE_ET_STAT.CUR, .ro, false, false⟩, ⟨AVE_ET_STAT.COUNT, .ro, false, false⟩]⟩,
  ⟨"AVE_IS_CTRL", 0x40108040, 8, 0x4, fun n => [⟨AVE_IS_CTRL.CH n, .rw, true, false⟩, ⟨AVE_IS_CTRL.RED n, .rw, true, false⟩, ⟨AVE_IS_CTRL.FMT n, .rw, true, false⟩]⟩,
  ⟨"AVE_BCAST_GROUP", 0x40108060, 1, 0x4, fun _ => [⟨AVE_BCAST_GROUP.GROUP, .rw, false, false⟩]⟩,
  ⟨"AVE_STAT", 0x40108064, 1, 0x4, fun _ => [⟨AVE_STAT.BCAST_MISMATCH, .w1c, false, false⟩, ⟨AVE_STAT.TRIM_REFUSED, .w1c, false, false⟩]⟩,
  ⟨"TRG_CTRL", 0x40200000, 4, 0x40, fun n => [⟨TRG_CTRL.ENABLE n, .rw, true, false⟩, ⟨TRG_CTRL.ABORT n, .w1s, false, false⟩, ⟨TRG_CTRL.ROLE n, .rw, true, true⟩, ⟨TRG_CTRL.SPEC n, .rw, true, true⟩, ⟨TRG_CTRL.INDEP n, .rw, true, true⟩, ⟨TRG_CTRL.INTERP n, .rw, true, true⟩, ⟨TRG_CTRL.TYPE n, .rw, true, true⟩, ⟨TRG_CTRL.SRC n, .rw, true, true⟩, ⟨TRG_CTRL.SLOPE n, .rw, true, false⟩, ⟨TRG_CTRL.COND n, .rw, true, false⟩]⟩,
  ⟨"TRG_LEVEL", 0x40200004, 4, 0x40, fun n => [⟨TRG_LEVEL.LVL_A n, .rw, true, false⟩, ⟨TRG_LEVEL.LVL_B n, .rw, true, false⟩]⟩,
  ⟨"TRG_HYST", 0x40200008, 4, 0x40, fun n => [⟨TRG_HYST.HYST n, .rw, true, false⟩]⟩,
  ⟨"TRG_T1", 0x4020000C, 4, 0x40, fun n => [⟨TRG_T1.T1 n, .rw, true, false⟩]⟩,
  ⟨"TRG_T2", 0x40200010, 4, 0x40, fun n => [⟨TRG_T2.T2 n, .rw, true, false⟩]⟩,
  ⟨"TRG_HOLDOFF_LO", 0x40200014, 4, 0x40, fun n => [⟨TRG_HOLDOFF_LO.VALUE n, .rw, true, false⟩]⟩,
  ⟨"TRG_HOLDOFF_HI", 0x40200018, 4, 0x40, fun n => [⟨TRG_HOLDOFF_HI.VALUE_HI n, .rw, true, false⟩, ⟨TRG_HOLDOFF_HI.MODE n, .rw, true, false⟩, ⟨TRG_HOLDOFF_HI.EN n, .rw, true, false⟩]⟩,
  ⟨"TRG_SEQ", 0x4020001C, 4, 0x40, fun n => [⟨TRG_SEQ.EN n, .rw, true, false⟩, ⟨TRG_SEQ.A_UNIT n, .rw, true, false⟩, ⟨TRG_SEQ.C_EN n, .rw, true, false⟩, ⟨TRG_SEQ.C_UNIT n, .rw, true, false⟩, ⟨TRG_SEQ.B_COUNT n, .rw, true, false⟩]⟩,
  ⟨"TRG_PAT", 0x40200020, 4, 0x40, fun n => [⟨TRG_PAT.CODE n, .rw, true, false⟩, ⟨TRG_PAT.FUNC n, .rw, true, false⟩, ⟨TRG_PAT.DUR n, .rw, true, false⟩]⟩,
  ⟨"TRG_SER", 0x40200024, 4, 0x40, fun n => [⟨TRG_SER.FIELD n, .rw, true, false⟩, ⟨TRG_SER.INDEX n, .rw, true, false⟩, ⟨TRG_SER.SPAN n, .rw, true, false⟩, ⟨TRG_SER.OP n, .rw, true, false⟩]⟩,
  ⟨"TRG_SER_VAL", 0x40200028, 4, 0x40, fun n => [⟨TRG_SER_VAL.VAL n, .rw, true, false⟩]⟩]

/-- Registers of R548, part 4. -/
def regTable3 : List RegRow := [
  ⟨"TRG_SER_MASK", 0x4020002C, 4, 0x40, fun n => [⟨TRG_SER_MASK.MASK n, .rw, true, false⟩]⟩,
  ⟨"TRG_STAT", 0x40200030, 4, 0x40, fun n => [⟨TRG_STAT.ARMED n, .ro, false, false⟩, ⟨TRG_STAT.HOLDOFF n, .ro, false, false⟩, ⟨TRG_STAT.SEQ n, .ro, false, false⟩, ⟨TRG_STAT.NO_SRC n, .ro, false, false⟩, ⟨TRG_STAT.CFG_ERR n, .ro, false, false⟩, ⟨TRG_STAT.ABORTED n, .w1c, false, false⟩]⟩,
  ⟨"TRG_COUNT", 0x40200034, 4, 0x40, fun n => [⟨TRG_COUNT.OFFERED n, .rc, false, false⟩, ⟨TRG_COUNT.DISCARDED n, .rc, false, false⟩]⟩,
  ⟨"TRG_GLOBAL", 0x40200100, 1, 0x4, fun _ => [⟨TRG_GLOBAL.COF_WIN, .rw, true, false⟩]⟩,
  ⟨"TRG_SW", 0x40200104, 1, 0x4, fun _ => [⟨TRG_SW.FIRE, .wo, false, false⟩]⟩,
  ⟨"TRG_OUT_CFG", 0x40200108, 1, 0x4, fun _ => [⟨TRG_OUT_CFG.MODE, .rw, true, false⟩, ⟨TRG_OUT_CFG.MASK, .rw, true, false⟩, ⟨TRG_OUT_CFG.WIDTH, .rw, true, false⟩, ⟨TRG_OUT_CFG.POL, .rw, true, false⟩]⟩,
  ⟨"TRG_TIMER_PER", 0x4020010C, 1, 0x4, fun _ => [⟨TRG_TIMER_PER.PER, .rw, true, false⟩]⟩,
  ⟨"TRG_TIMER_PHASE", 0x40200110, 1, 0x4, fun _ => [⟨TRG_TIMER_PHASE.PHASE, .rw, true, false⟩]⟩,
  ⟨"TRG_CH_DESKEW", 0x40200120, 5, 0x4, fun n => [⟨TRG_CH_DESKEW.DESKEW n, .rw, true, true⟩]⟩,
  ⟨"TRG_CH_THR", 0x40200140, 4, 0x4, fun n => [⟨TRG_CH_THR.THR n, .rw, true, false⟩, ⟨TRG_CH_THR.HYS n, .rw, true, false⟩]⟩,
  ⟨"TRG_BCAST_GROUP", 0x40200160, 1, 0x4, fun _ => [⟨TRG_BCAST_GROUP.MASK, .rw, false, false⟩]⟩,
  ⟨"TRG_GSTAT", 0x40200164, 1, 0x4, fun _ => [⟨TRG_GSTAT.BCAST_MISMATCH, .w1c, false, false⟩]⟩,
  ⟨"DEC_CFG", 0x40200200, 4, 0x40, fun n => [⟨DEC_CFG.PROTO n, .rw, true, true⟩, ⟨DEC_CFG.LINE n, .rw, true, true⟩, ⟨DEC_CFG.INV n, .rw, true, true⟩]⟩,
  ⟨"DEC_RATE", 0x40200204, 4, 0x40, fun n => [⟨DEC_RATE.PERIOD n, .rw, true, true⟩]⟩,
  ⟨"DEC_RATE2", 0x40200208, 4, 0x40, fun n => [⟨DEC_RATE2.PERIOD n, .rw, true, true⟩]⟩,
  ⟨"DEC_FMT", 0x4020020C, 4, 0x40, fun n => [⟨DEC_FMT.FMT n, .rw, true, false⟩]⟩,
  ⟨"DEC_STAT", 0x40200210, 4, 0x40, fun n => [⟨DEC_STAT.FRAMES n, .rc, false, false⟩, ⟨DEC_STAT.ERRORS n, .rc, false, false⟩, ⟨DEC_STAT.CFG_ERR n, .ro, false, false⟩]⟩,
  ⟨"DEC_SYNC", 0x40200214, 4, 0x40, fun n => [⟨DEC_SYNC.PATTERN n, .rw, true, false⟩, ⟨DEC_SYNC.LEN n, .rw, true, false⟩]⟩,
  ⟨"REC_CTRL", 0x40300000, 1, 0x4, fun _ => [⟨REC_CTRL.START, .w1s, false, false⟩, ⟨REC_CTRL.STOP, .w1s, false, false⟩, ⟨REC_CTRL.REARM, .w1s, false, false⟩]⟩,
  ⟨"REC_STAT", 0x40300004, 1, 0x4, fun _ => [⟨REC_STAT.STATE, .ro, false, false⟩, ⟨REC_STAT.HELD, .ro, false, false⟩, ⟨REC_STAT.OPEN, .ro, false, false⟩, ⟨REC_STAT.PROV, .ro, false, false⟩]⟩,
  ⟨"REC_CFG", 0x40300008, 1, 0x4, fun _ => [⟨REC_CFG.PLACE, .rw, true, true⟩, ⟨REC_CFG.RMODE, .rw, true, false⟩, ⟨REC_CFG.STREAMS, .rw, true, true⟩]⟩,
  ⟨"REC_LEN", 0x4030000C, 1, 0x4, fun _ => [⟨REC_LEN.LENGTH, .rw, true, true⟩]⟩,
  ⟨"REC_PRE", 0x40300010, 1, 0x4, fun _ => [⟨REC_PRE.PRE, .rw, true, true⟩]⟩,
  ⟨"REC_SEG", 0x40300014, 1, 0x4, fun _ => [⟨REC_SEG.COUNT, .rw, true, false⟩, ⟨REC_SEG.AUTO, .rw, true, false⟩]⟩]

/-- Registers of R548, part 5. -/
def regTable4 : List RegRow := [
  ⟨"REC_RING_LEN", 0x40300018, 1, 0x4, fun _ => [⟨REC_RING_LEN.LEN, .rw, true, true⟩]⟩,
  ⟨"REC_HDR_BASE", 0x4030001C, 1, 0x4, fun _ => [⟨REC_HDR_BASE.BASE, .rw, true, false⟩]⟩,
  ⟨"REC_HDR_ENTRIES", 0x40300020, 1, 0x4, fun _ => [⟨REC_HDR_ENTRIES.ENTRIES, .rw, true, false⟩]⟩,
  ⟨"REC_RELEASE", 0x40300024, 1, 0x4, fun _ => [⟨REC_RELEASE.SEQ, .rw, false, false⟩]⟩,
  ⟨"REC_SEQ", 0x40300028, 1, 0x4, fun _ => [⟨REC_SEQ.NEXT, .ro, false, false⟩]⟩,
  ⟨"REC_GEN_CMD", 0x4030002C, 1, 0x4, fun _ => [⟨REC_GEN_CMD.COMMIT, .w1s, false, false⟩, ⟨REC_GEN_CMD.CARRY, .wo, false, false⟩]⟩,
  ⟨"REC_GEN", 0x40300030, 1, 0x4, fun _ => [⟨REC_GEN.GEN, .ro, false, false⟩, ⟨REC_GEN.APPLIED, .ro, false, false⟩]⟩,
  ⟨"REC_EPOCH", 0x40300034, 1, 0x4, fun _ => [⟨REC_EPOCH.EPOCH, .ro, false, false⟩, ⟨REC_EPOCH.REFUSED, .w1c, false, false⟩, ⟨REC_EPOCH.CAUSE, .ro, false, false⟩]⟩,
  ⟨"REC_CQ_CTRL", 0x40300038, 1, 0x4, fun _ => [⟨REC_CQ_CTRL.POP, .w1s, false, false⟩, ⟨REC_CQ_CTRL.WM, .rw, false, false⟩]⟩,
  ⟨"REC_CQ_STAT", 0x4030003C, 1, 0x4, fun _ => [⟨REC_CQ_STAT.DEPTH, .ro, false, false⟩, ⟨REC_CQ_STAT.RSV, .ro, false, false⟩, ⟨REC_CQ_STAT.FULL, .ro, false, false⟩]⟩,
  ⟨"REC_CQ_OUT", 0x40300040, 4, 0x4, fun n => [⟨REC_CQ_OUT.WORD n, .ro, false, false⟩]⟩,
  ⟨"REC_PROV_OPENED", 0x40300050, 1, 0x4, fun _ => [⟨REC_PROV_OPENED.COUNT, .ro, false, false⟩]⟩,
  ⟨"REC_PROV_ABANDONED", 0x40300054, 1, 0x4, fun _ => [⟨REC_PROV_ABANDONED.COUNT, .ro, false, false⟩]⟩,
  ⟨"REC_ABORT", 0x40300058, 1, 0x4, fun _ => [⟨REC_ABORT.COUNT, .rc, false, false⟩]⟩,
  ⟨"REC_COUNT", 0x4030005C, 1, 0x4, fun _ => [⟨REC_COUNT.COMMITTED, .rc, false, false⟩, ⟨REC_COUNT.RECYCLED, .rc, false, false⟩]⟩,
  ⟨"REC_WBEAT_LO", 0x40300060, 1, 0x4, fun _ => [⟨REC_WBEAT_LO.W, .ro, false, false⟩]⟩,
  ⟨"REC_WBEAT_HI", 0x40300064, 1, 0x4, fun _ => [⟨REC_WBEAT_HI.W, .ro, false, false⟩]⟩,
  ⟨"REC_RING_BASE_LO", 0x40300100, 8, 0x8, fun n => [⟨REC_RING_BASE_LO.ADDR n, .rw, true, false⟩]⟩,
  ⟨"REC_RING_BASE_HI", 0x40300104, 8, 0x8, fun n => [⟨REC_RING_BASE_HI.ADDR n, .rw, true, false⟩]⟩,
  ⟨"RED_OUT_CTRL", 0x40400000, 4, 0x10, fun n => [⟨RED_OUT_CTRL.SRC n, .rw, true, true⟩, ⟨RED_OUT_CTRL.MODE n, .rw, true, true⟩, ⟨RED_OUT_CTRL.K n, .rw, true, true⟩, ⟨RED_OUT_CTRL.SINK n, .rw, true, true⟩, ⟨RED_OUT_CTRL.WM n, .rw, true, false⟩]⟩,
  ⟨"RED_Q_STAT", 0x40400004, 4, 0x10, fun n => [⟨RED_Q_STAT.DEPTH n, .ro, false, false⟩, ⟨RED_Q_STAT.OVF n, .rc, false, false⟩, ⟨RED_Q_STAT.WM n, .ro, false, false⟩]⟩,
  ⟨"RED_AU_CTRL", 0x40400100, 4, 0x20, fun n => [⟨RED_AU_CTRL.ENABLE n, .rw, true, false⟩, ⟨RED_AU_CTRL.RESTART n, .w1s, false, false⟩]⟩,
  ⟨"RED_AU_CFG", 0x40400104, 4, 0x20, fun n => [⟨RED_AU_CFG.SRC n, .rw, true, true⟩, ⟨RED_AU_CFG.RED n, .rw, true, true⟩, ⟨RED_AU_CFG.IN_SHIFT n, .rw, true, true⟩, ⟨RED_AU_CFG.ILV_LOG n, .rw, true, true⟩, ⟨RED_AU_CFG.PINGPONG n, .rw, true, true⟩]⟩,
  ⟨"RED_AU_BASE", 0x40400108, 4, 0x20, fun n => [⟨RED_AU_BASE.OFS n, .rw, true, true⟩]⟩]

/-- Registers of R548, part 6. -/
def regTable5 : List RegRow := [
  ⟨"RED_AU_BASE2", 0x4040010C, 4, 0x20, fun n => [⟨RED_AU_BASE2.OFS n, .rw, true, true⟩]⟩,
  ⟨"RED_AU_TARGET", 0x40400110, 4, 0x20, fun n => [⟨RED_AU_TARGET.TARGET n, .rw, true, false⟩]⟩,
  ⟨"RED_AU_STAT", 0x40400114, 4, 0x20, fun n => [⟨RED_AU_STAT.NREC n, .ro, false, false⟩, ⟨RED_AU_STAT.ACTIVE n, .ro, false, false⟩, ⟨RED_AU_STAT.DONE n, .w1c, false, false⟩, ⟨RED_AU_STAT.PLAN_SHORT n, .ro, false, false⟩, ⟨RED_AU_STAT.LATE n, .rc, false, false⟩]⟩,
  ⟨"RED_PER_CTRL", 0x40400200, 1, 0x4, fun _ => [⟨RED_PER_CTRL.ENABLE, .rw, true, false⟩, ⟨RED_PER_CTRL.SRC, .rw, true, true⟩, ⟨RED_PER_CTRL.RED, .rw, true, true⟩, ⟨RED_PER_CTRL.VECTOR, .rw, true, true⟩, ⟨RED_PER_CTRL.DECAY, .rw, true, false⟩, ⟨RED_PER_CTRL.DEC_FRAMES, .rw, true, false⟩]⟩,
  ⟨"RED_PER_MAP", 0x40400204, 1, 0x4, fun _ => [⟨RED_PER_MAP.YOFS, .rw, true, true⟩, ⟨RED_PER_MAP.YSH, .rw, true, true⟩, ⟨RED_PER_MAP.XSH, .rw, true, true⟩]⟩,
  ⟨"RED_PER_BASE", 0x40400208, 1, 0x4, fun _ => [⟨RED_PER_BASE.XSTART, .rw, true, true⟩, ⟨RED_PER_BASE.OFS, .rw, true, false⟩]⟩,
  ⟨"RED_PER_STAT", 0x4040020C, 1, 0x4, fun _ => [⟨RED_PER_STAT.SKIP, .rc, false, false⟩, ⟨RED_PER_STAT.DMERGE, .rc, false, false⟩, ⟨RED_PER_STAT.PASS, .ro, false, false⟩]⟩,
  ⟨"RED_STAT", 0x40400300, 1, 0x4, fun _ => [⟨RED_STAT.CFG_ERR, .w1c, false, false⟩]⟩,
  ⟨"MU_CTRL", 0x40480000, 16, 0x40, fun n => [⟨MU_CTRL.TYPE n, .rw, true, true⟩, ⟨MU_CTRL.HOLE_NAN n, .rw, true, false⟩, ⟨MU_CTRL.LVLMODE n, .rw, true, true⟩]⟩,
  ⟨"MU_SRC", 0x40480004, 16, 0x40, fun n => [⟨MU_SRC.SRC n, .rw, true, true⟩, ⟨MU_SRC.RED n, .rw, true, true⟩, ⟨MU_SRC.SRC2 n, .rw, true, true⟩, ⟨MU_SRC.RED2 n, .rw, true, true⟩]⟩,
  ⟨"MU_LVL", 0x40480008, 16, 0x40, fun n => [⟨MU_LVL.BASE n, .rw, true, true⟩, ⟨MU_LVL.TOP n, .rw, true, true⟩]⟩,
  ⟨"MU_GATE", 0x4048000C, 16, 0x40, fun n => [⟨MU_GATE.START n, .rw, true, true⟩]⟩,
  ⟨"MU_STAT", 0x40480010, 16, 0x40, fun n => [⟨MU_STAT.GATE_CLIP n, .rc, false, false⟩]⟩,
  ⟨"MU_ST_N", 0x40480014, 16, 0x40, fun n => [⟨MU_ST_N.N n, .ro, false, false⟩]⟩,
  ⟨"MU_ST_MIN", 0x40480018, 16, 0x40, fun n => [⟨MU_ST_MIN.VALUE n, .ro, false, false⟩]⟩,
  ⟨"MU_ST_MAX", 0x4048001C, 16, 0x40, fun n => [⟨MU_ST_MAX.VALUE n, .ro, false, false⟩]⟩,
  ⟨"MU_ST_MEAN", 0x40480020, 16, 0x40, fun n => [⟨MU_ST_MEAN.VALUE n, .ro, false, false⟩]⟩,
  ⟨"MU_ST_SD", 0x40480024, 16, 0x40, fun n => [⟨MU_ST_SD.VALUE n, .ro, false, false⟩]⟩,
  ⟨"MU_ST_NAN", 0x40480028, 16, 0x40, fun n => [⟨MU_ST_NAN.NANS n, .ro, false, false⟩]⟩,
  ⟨"MU_ST_EPOCH", 0x4048002C, 16, 0x40, fun n => [⟨MU_ST_EPOCH.EPOCH n, .ro, false, false⟩]⟩,
  ⟨"MU_GRP_DEF", 0x40488000, 8, 0x4, fun n => [⟨MU_GRP_DEF.MEMBERS n, .rw, false, false⟩]⟩,
  ⟨"MU_BCAST_GROUP", 0x40488020, 1, 0x4, fun _ => [⟨MU_BCAST_GROUP.GROUPS, .rw, false, false⟩]⟩,
  ⟨"MU_GSTAT", 0x40488024, 1, 0x4, fun _ => [⟨MU_GSTAT.BCAST_MISMATCH, .w1c, false, false⟩]⟩,
  ⟨"MU_SNAP", 0x40488028, 1, 0x4, fun _ => [⟨MU_SNAP.TAKE, .w1s, false, false⟩]⟩]

/-- Registers of R548, part 7. -/
def regTable6 : List RegRow := [
  ⟨"SQ_PLAN_CMD", 0x40500000, 1, 0x4, fun _ => [⟨SQ_PLAN_CMD.STORE, .wo, false, false⟩, ⟨SQ_PLAN_CMD.CMD, .wo, false, false⟩]⟩,
  ⟨"SQ_PLAN_STAT", 0x40500004, 1, 0x4, fun _ => [⟨SQ_PLAN_STAT.ACTIVE, .ro, false, false⟩, ⟨SQ_PLAN_STAT.PENDING, .ro, false, false⟩, ⟨SQ_PLAN_STAT.SWAP_PENDING, .ro, false, false⟩, ⟨SQ_PLAN_STAT.VERIFY_BUSY, .ro, false, false⟩, ⟨SQ_PLAN_STAT.MARGIN_STOP, .ro, false, false⟩, ⟨SQ_PLAN_STAT.MSTOP_CAUSE, .ro, false, false⟩, ⟨SQ_PLAN_STAT.PS_REFUSED, .w1c, false, false⟩, ⟨SQ_PLAN_STAT.VALID, .ro, false, false⟩]⟩,
  ⟨"SQ_PLAN_REJ", 0x40500008, 1, 0x4, fun _ => [⟨SQ_PLAN_REJ.CODE, .ro, false, false⟩, ⟨SQ_PLAN_REJ.SLOT, .ro, false, false⟩, ⟨SQ_PLAN_REJ.AUX, .ro, false, false⟩, ⟨SQ_PLAN_REJ.STORE, .ro, false, false⟩, ⟨SQ_PLAN_REJ.NEW, .w1c, false, false⟩]⟩,
  ⟨"SQ_PS_ADDR", 0x4050000C, 1, 0x4, fun _ => [⟨SQ_PS_ADDR.WADDR, .rw, false, false⟩]⟩,
  ⟨"SQ_PS_DATA", 0x40500010, 1, 0x4, fun _ => [⟨SQ_PS_DATA.DATA, .rw, false, false⟩]⟩,
  ⟨"SQ_SLOT", 0x40500014, 1, 0x4, fun _ => [⟨SQ_SLOT.SLOT, .ro, false, false⟩, ⟨SQ_SLOT.PERIODS, .ro, false, false⟩]⟩,
  ⟨"SQ_PLAN_ID", 0x40500018, 1, 0x4, fun _ => [⟨SQ_PLAN_ID.ID, .ro, false, false⟩]⟩,
  ⟨"SQ_BREACH", 0x4050001C, 1, 0x4, fun _ => [⟨SQ_BREACH.COUNT, .rc, false, false⟩, ⟨SQ_BREACH.OWNER, .ro, false, false⟩, ⟨SQ_BREACH.KIND, .ro, false, false⟩]⟩,
  ⟨"SQ_ACC", 0x40500040, 1, 0x4, fun _ => [⟨SQ_ACC.BASE, .rw, true, true⟩, ⟨SQ_ACC.SIZE, .rw, true, true⟩]⟩,
  ⟨"SQ_ECC", 0x40500044, 1, 0x4, fun _ => [⟨SQ_ECC.CE, .rc, false, false⟩, ⟨SQ_ECC.UE, .rc, false, false⟩]⟩,
  ⟨"SQ_ECC_ADDR", 0x40500048, 1, 0x4, fun _ => [⟨SQ_ECC_ADDR.UE, .ro, false, false⟩, ⟨SQ_ECC_ADDR.LINE, .ro, false, false⟩]⟩,
  ⟨"SQ_PROT", 0x4050004C, 1, 0x4, fun _ => [⟨SQ_PROT.DROPS, .rc, false, false⟩, ⟨SQ_PROT.OWNER, .ro, false, false⟩]⟩,
  ⟨"BLV_STAT", 0x40600000, 1, 0x4, fun _ => [⟨BLV_STAT.UP, .ro, false, false⟩, ⟨BLV_STAT.INIT_FAIL, .ro, false, false⟩, ⟨BLV_STAT.DENS_MISMATCH, .ro, false, false⟩, ⟨BLV_STAT.DENSITY, .ro, false, false⟩]⟩,
  ⟨"BLV_TEMP", 0x40600004, 1, 0x4, fun _ => [⟨BLV_TEMP.RATE0, .ro, false, false⟩, ⟨BLV_TEMP.RATE1, .ro, false, false⟩, ⟨BLV_TEMP.HOT, .ro, false, false⟩, ⟨BLV_TEMP.HOT0, .ro, false, false⟩, ⟨BLV_TEMP.HOT1, .ro, false, false⟩]⟩,
  ⟨"BLV_ECC", 0x40600008, 1, 0x4, fun _ => [⟨BLV_ECC.CE, .rc, false, false⟩, ⟨BLV_ECC.UE, .rc, false, false⟩]⟩,
  ⟨"BLV_ECC_ADDR_LO", 0x4060000C, 1, 0x4, fun _ => [⟨BLV_ECC_ADDR_LO.ADDR, .ro, false, false⟩]⟩,
  ⟨"BLV_ECC_ADDR_HI", 0x40600010, 1, 0x4, fun _ => [⟨BLV_ECC_ADDR_HI.ADDR, .ro, false, false⟩, ⟨BLV_ECC_ADDR_HI.UE, .ro, false, false⟩]⟩,
  ⟨"BLV_SCRUB_CTRL", 0x40600014, 1, 0x4, fun _ => [⟨BLV_SCRUB_CTRL.EN, .rw, true, false⟩, ⟨BLV_SCRUB_CTRL.PASSES, .ro, false, false⟩]⟩,
  ⟨"BLV_SCRUB_BASE", 0x40600018, 1, 0x4, fun _ => [⟨BLV_SCRUB_BASE.BASE, .rw, true, false⟩]⟩,
  ⟨"BLV_SCRUB_LEN", 0x4060001C, 1, 0x4, fun _ => [⟨BLV_SCRUB_LEN.LEN, .rw, true, false⟩]⟩,
  ⟨"BLV_SCRUB_POS", 0x40600020, 1, 0x4, fun _ => [⟨BLV_SCRUB_POS.POS, .ro, false, false⟩]⟩,
  ⟨"BLV_APER", 0x40600040, 2, 0x4, fun n => [⟨BLV_APER.BASE n, .rw, false, false⟩]⟩,
  ⟨"DMA_CH_CTRL", 0x40700000, 32, 0x40, fun n => [⟨DMA_CH_CTRL.START n, .w1s, false, false⟩, ⟨DMA_CH_CTRL.ABORT n, .w1s, false, false⟩, ⟨DMA_CH_CTRL.CLASS n, .rw, false, false⟩, ⟨DMA_CH_CTRL.DSRC n, .rw, false, false⟩, ⟨DMA_CH_CTRL.HDR n, .rw, false, false⟩, ⟨DMA_CH_CTRL.STREAM n, .rw, false, false⟩, ⟨DMA_CH_CTRL.AUTO_REL n, .rw, false, false⟩]⟩,
  ⟨"DMA_CH_STAT", 0x40700004, 32, 0x40, fun n => [⟨DMA_CH_STAT.STATE n, .ro, false, false⟩, ⟨DMA_CH_STAT.FENCED n, .w1c, false, false⟩, ⟨DMA_CH_STAT.UE n, .w1c, false, false⟩, ⟨DMA_CH_STAT.END n, .w1c, false, false⟩, ⟨DMA_CH_STAT.BUSY_WR n, .w1c, false, false⟩, ⟨DMA_CH_STAT.ERR n, .ro, false, false⟩, ⟨DMA_CH_STAT.STAGED n, .ro, false, false⟩]⟩]

/-- Registers of R548, part 8. -/
def regTable7 : List RegRow := [
  ⟨"DMA_CH_DESC_LO", 0x40700008, 32, 0x40, fun n => [⟨DMA_CH_DESC_LO.ADDR n, .rw, false, false⟩]⟩,
  ⟨"DMA_CH_DESC_HI", 0x4070000C, 32, 0x40, fun n => [⟨DMA_CH_DESC_HI.ADDR n, .rw, false, false⟩]⟩,
  ⟨"DMA_CH_COUNT", 0x40700010, 32, 0x40, fun n => [⟨DMA_CH_COUNT.COUNT n, .rw, false, false⟩]⟩,
  ⟨"DMA_CH_PACE", 0x40700014, 32, 0x40, fun n => [⟨DMA_CH_PACE.MODE n, .rw, false, false⟩, ⟨DMA_CH_PACE.SRC n, .rw, false, false⟩, ⟨DMA_CH_PACE.LO n, .rw, false, false⟩, ⟨DMA_CH_PACE.HI n, .rw, false, false⟩, ⟨DMA_CH_PACE.ON n, .ro, false, false⟩]⟩,
  ⟨"DMA_CH_TAG", 0x40700018, 32, 0x40, fun n => [⟨DMA_CH_TAG.TAG n, .ro, false, false⟩]⟩,
  ⟨"DMA_GSTAT", 0x40708000, 1, 0x4, fun _ => [⟨DMA_GSTAT.C0_SQ, .ro, false, false⟩, ⟨DMA_GSTAT.C0_BLV, .ro, false, false⟩, ⟨DMA_GSTAT.BCAST_MISMATCH, .w1c, false, false⟩]⟩,
  ⟨"DMA_GEND", 0x40708004, 1, 0x4, fun _ => [⟨DMA_GEND.END, .w1c, false, false⟩]⟩,
  ⟨"DMA_GRP_DEF", 0x40708010, 8, 0x4, fun n => [⟨DMA_GRP_DEF.MEMBERS n, .rw, false, false⟩]⟩,
  ⟨"DMA_BCAST_GROUP", 0x40708030, 1, 0x4, fun _ => [⟨DMA_BCAST_GROUP.GROUPS, .rw, false, false⟩]⟩,
  ⟨"EVT_LINE_SRC", 0x40780000, 64, 0x4, fun n => [⟨EVT_LINE_SRC.SRC n, .rw, false, false⟩, ⟨EVT_LINE_SRC.BAD n, .ro, false, false⟩]⟩,
  ⟨"EVT_STOP_MASK_LO", 0x40780100, 64, 0x8, fun n => [⟨EVT_STOP_MASK_LO.MASK n, .rw, false, false⟩]⟩,
  ⟨"EVT_STOP_MASK_HI", 0x40780104, 64, 0x8, fun n => [⟨EVT_STOP_MASK_HI.MASK n, .rw, false, false⟩]⟩,
  ⟨"EVT_STOP_CNT", 0x40780400, 64, 0x4, fun n => [⟨EVT_STOP_CNT.COUNT n, .ro, false, false⟩, ⟨EVT_STOP_CNT.OVERRUN n, .w1c, false, false⟩, ⟨EVT_STOP_CNT.CLR n, .w1s, false, false⟩]⟩,
  ⟨"EVT_OVR_LO", 0x40780500, 1, 0x4, fun _ => [⟨EVT_OVR_LO.OVR, .w1c, false, false⟩]⟩,
  ⟨"EVT_OVR_HI", 0x40780504, 1, 0x4, fun _ => [⟨EVT_OVR_HI.OVR, .w1c, false, false⟩]⟩,
  ⟨"EVT_SW", 0x40780510, 1, 0x4, fun _ => [⟨EVT_SW.SW, .wo, false, false⟩]⟩,
  ⟨"EVT_PIN", 0x40780520, 4, 0x4, fun n => [⟨EVT_PIN.DIR n, .rw, false, false⟩, ⟨EVT_PIN.EDGE n, .rw, false, false⟩, ⟨EVT_PIN.LINE n, .rw, false, false⟩, ⟨EVT_PIN.WIDTH n, .rw, false, false⟩, ⟨EVT_PIN.POL n, .rw, false, false⟩]⟩,
  ⟨"EVT_SEEN_LO", 0x40780530, 1, 0x4, fun _ => [⟨EVT_SEEN_LO.SEEN, .w1c, false, false⟩]⟩,
  ⟨"EVT_SEEN_HI", 0x40780534, 1, 0x4, fun _ => [⟨EVT_SEEN_HI.SEEN, .w1c, false, false⟩]⟩,
  ⟨"EVT_Q_CFG", 0x40780600, 16, 0x4, fun n => [⟨EVT_Q_CFG.WM n, .rw, false, false⟩]⟩,
  ⟨"EVT_Q_STAT", 0x40780680, 16, 0x4, fun n => [⟨EVT_Q_STAT.DEPTH n, .ro, false, false⟩, ⟨EVT_Q_STAT.NE n, .ro, false, false⟩, ⟨EVT_Q_STAT.WMS n, .ro, false, false⟩, ⟨EVT_Q_STAT.FULL n, .ro, false, false⟩]⟩,
  ⟨"SP0_CTRL", 0x40800000, 1, 0x4, fun _ => [⟨SP0_CTRL.ENABLE, .rw, false, false⟩, ⟨SP0_CTRL.ABORT, .w1s, false, false⟩, ⟨SP0_CTRL.ROLE, .ro, false, false⟩]⟩,
  ⟨"SP0_CFG", 0x40800004, 1, 0x4, fun _ => [⟨SP0_CFG.FREQ, .rw, false, false⟩, ⟨SP0_CFG.CPOL, .rw, false, false⟩, ⟨SP0_CFG.CPHA, .rw, false, false⟩, ⟨SP0_CFG.SETUP, .rw, false, false⟩, ⟨SP0_CFG.HOLD, .rw, false, false⟩, ⟨SP0_CFG.IDLE, .rw, false, false⟩]⟩,
  ⟨"SP0_STAT", 0x40800008, 1, 0x4, fun _ => [⟨SP0_STAT.BUSY, .ro, false, false⟩, ⟨SP0_STAT.ERR_CAUSE, .ro, false, false⟩, ⟨SP0_STAT.REFUSED, .w1c, false, false⟩, ⟨SP0_STAT.ABORTED, .w1c, false, false⟩, ⟨SP0_STAT.RX_OVF, .w1c, false, false⟩, ⟨SP0_STAT.TX_UND, .w1c, false, false⟩, ⟨SP0_STAT.SHORT, .w1c, false, false⟩, ⟨SP0_STAT.CMD_DEPTH, .ro, false, false⟩, ⟨SP0_STAT.RX_DEPTH, .ro, false, false⟩]⟩]

/-- Registers of R548, part 9. -/
def regTable8 : List RegRow := [
  ⟨"SP0_TXD", 0x4080000C, 1, 0x4, fun _ => [⟨SP0_TXD.DATA, .rw, false, false⟩]⟩,
  ⟨"SP0_CMD", 0x40800010, 1, 0x4, fun _ => [⟨SP0_CMD.ENTRY, .wo, false, false⟩]⟩,
  ⟨"SP0_RXD", 0x40800014, 1, 0x4, fun _ => [⟨SP0_RXD.DATA, .rc, false, false⟩]⟩,
  ⟨"SP1_CTRL", 0x40810000, 1, 0x4, fun _ => [⟨SP1_CTRL.ENABLE, .rw, false, false⟩, ⟨SP1_CTRL.ABORT, .w1s, false, false⟩, ⟨SP1_CTRL.ROLE, .ro, false, false⟩]⟩,
  ⟨"SP1_CFG", 0x40810004, 1, 0x4, fun _ => [⟨SP1_CFG.TA, .rw, false, false⟩]⟩,
  ⟨"SP1_STAT", 0x40810008, 1, 0x4, fun _ => [⟨SP1_STAT.BUSY, .ro, false, false⟩, ⟨SP1_STAT.ERR_CAUSE, .ro, false, false⟩, ⟨SP1_STAT.REFUSED, .w1c, false, false⟩, ⟨SP1_STAT.ABORTED, .w1c, false, false⟩, ⟨SP1_STAT.RX_OVF, .w1c, false, false⟩, ⟨SP1_STAT.TX_UND, .w1c, false, false⟩, ⟨SP1_STAT.SHORT, .w1c, false, false⟩, ⟨SP1_STAT.CMD_DEPTH, .ro, false, false⟩, ⟨SP1_STAT.RX_DEPTH, .ro, false, false⟩]⟩,
  ⟨"SP2_CTRL", 0x40820000, 1, 0x4, fun _ => [⟨SP2_CTRL.ENABLE, .rw, false, false⟩, ⟨SP2_CTRL.ABORT, .w1s, false, false⟩, ⟨SP2_CTRL.ROLE, .rw, false, false⟩]⟩,
  ⟨"SP2_CFG", 0x40820004, 1, 0x4, fun _ => [⟨SP2_CFG.FREQ, .rw, false, false⟩, ⟨SP2_CFG.CPOL, .rw, false, false⟩, ⟨SP2_CFG.CPHA, .rw, false, false⟩, ⟨SP2_CFG.SELMODE, .rw, false, false⟩, ⟨SP2_CFG.SETUP, .rw, false, false⟩, ⟨SP2_CFG.HOLD, .rw, false, false⟩, ⟨SP2_CFG.IDLE, .rw, false, false⟩]⟩,
  ⟨"SP2_STAT", 0x40820008, 1, 0x4, fun _ => [⟨SP2_STAT.BUSY, .ro, false, false⟩, ⟨SP2_STAT.ERR_CAUSE, .ro, false, false⟩, ⟨SP2_STAT.REFUSED, .w1c, false, false⟩, ⟨SP2_STAT.ABORTED, .w1c, false, false⟩, ⟨SP2_STAT.RX_OVF, .w1c, false, false⟩, ⟨SP2_STAT.TX_UND, .w1c, false, false⟩, ⟨SP2_STAT.SHORT, .w1c, false, false⟩, ⟨SP2_STAT.CMD_DEPTH, .ro, false, false⟩, ⟨SP2_STAT.RX_DEPTH, .ro, false, false⟩]⟩,
  ⟨"SP2_TXD", 0x4082000C, 1, 0x4, fun _ => [⟨SP2_TXD.DATA, .rw, false, false⟩]⟩,
  ⟨"SP2_CMD", 0x40820010, 1, 0x4, fun _ => [⟨SP2_CMD.ENTRY, .wo, false, false⟩]⟩,
  ⟨"SP2_RXD", 0x40820014, 1, 0x4, fun _ => [⟨SP2_RXD.DATA, .rc, false, false⟩]⟩,
  ⟨"SP1_CNT", 0x40810018, 1, 0x4, fun _ => [⟨SP1_CNT.TRANS, .rc, false, false⟩, ⟨SP1_CNT.MALFORMED, .rc, false, false⟩]⟩,
  ⟨"SP0_XIP_TMPL", 0x40800040, 1, 0x4, fun _ => [⟨SP0_XIP_TMPL.CMD, .rw, false, false⟩, ⟨SP0_XIP_TMPL.CMD2, .rw, false, false⟩, ⟨SP0_XIP_TMPL.CMD_LANES, .rw, false, false⟩, ⟨SP0_XIP_TMPL.ADDR_LANES, .rw, false, false⟩, ⟨SP0_XIP_TMPL.DATA_LANES, .rw, false, false⟩, ⟨SP0_XIP_TMPL.DTR, .rw, false, false⟩, ⟨SP0_XIP_TMPL.DUMMY, .rw, false, false⟩, ⟨SP0_XIP_TMPL.DQS_EN, .rw, false, false⟩]⟩,
  ⟨"SP0_XIP_FREQ", 0x40800044, 1, 0x4, fun _ => [⟨SP0_XIP_FREQ.FREQ, .rw, false, false⟩]⟩,
  ⟨"SP0_XIP_CTRL", 0x40800048, 1, 0x4, fun _ => [⟨SP0_XIP_CTRL.HOLD, .rw, false, false⟩, ⟨SP0_XIP_CTRL.WIN_REFUSED, .w1c, false, false⟩]⟩,
  ⟨"SP0_WIN_FLASH", 0x40800050, 4, 0x10, fun n => [⟨SP0_WIN_FLASH.FLASH_OFS n, .rw, false, false⟩]⟩,
  ⟨"SP0_WIN_BASE", 0x40800054, 4, 0x10, fun n => [⟨SP0_WIN_BASE.WIN_OFS n, .rw, false, false⟩]⟩,
  ⟨"SP0_WIN_LEN", 0x40800058, 4, 0x10, fun n => [⟨SP0_WIN_LEN.LENGTH n, .rw, false, false⟩]⟩,
  ⟨"SP0_WIN_CFG", 0x4080005C, 4, 0x10, fun n => [⟨SP0_WIN_CFG.KEY n, .rw, false, false⟩, ⟨SP0_WIN_CFG.EN n, .rw, false, false⟩]⟩,
  ⟨"HFR_CFG", 0x40880000, 1, 0x4, fun _ => [⟨HFR_CFG.CHAN, .rw, false, false⟩, ⟨HFR_CFG.CLASS, .rw, false, false⟩]⟩,
  ⟨"HFR_STAT", 0x40880004, 1, 0x4, fun _ => [⟨HFR_STAT.PRESENT, .ro, false, false⟩, ⟨HFR_STAT.INFLIGHT, .ro, false, false⟩, ⟨HFR_STAT.PENDING, .ro, false, false⟩, ⟨HFR_STAT.LAST_ALIVE, .ro, false, false⟩, ⟨HFR_STAT.LAST_TYPE, .ro, false, false⟩]⟩,
  ⟨"HFR_CNT", 0x40880008, 1, 0x4, fun _ => [⟨HFR_CNT.BAD, .rc, false, false⟩, ⟨HFR_CNT.DUP, .rc, false, false⟩, ⟨HFR_CNT.GAP, .rc, false, false⟩, ⟨HFR_CNT.REFUSED, .rc, false, false⟩]⟩,
  ⟨"HFR_ATTN", 0x4088000C, 1, 0x4, fun _ => [⟨HFR_ATTN.STOP, .w1c, false, false⟩, ⟨HFR_ATTN.DMA_END, .ro, false, false⟩, ⟨HFR_ATTN.ERR_LOG, .ro, false, false⟩, ⟨HFR_ATTN.REPLY, .w1c, false, false⟩, ⟨HFR_ATTN.FIFO, .ro, false, false⟩]⟩]

/-- Registers of R548, part 10. -/
def regTable9 : List RegRow := [
  ⟨"HFR_ATTN_EN", 0x40880010, 1, 0x4, fun _ => [⟨HFR_ATTN_EN.EN, .rw, false, false⟩]⟩,
  ⟨"HFR_DMA_MASK", 0x40880014, 1, 0x4, fun _ => [⟨HFR_DMA_MASK.MASK, .rw, false, false⟩]⟩,
  ⟨"HFR_REQ_STAT", 0x40880018, 1, 0x4, fun _ => [⟨HFR_REQ_STAT.PENDING, .ro, false, false⟩, ⟨HFR_REQ_STAT.ALIVE, .ro, false, false⟩, ⟨HFR_REQ_STAT.LEN, .ro, false, false⟩]⟩,
  ⟨"HFR_REQ_ADDR", 0x4088001C, 1, 0x4, fun _ => [⟨HFR_REQ_ADDR.CODE, .ro, false, false⟩]⟩,
  ⟨"HFR_REQ_RSP", 0x40880020, 1, 0x4, fun _ => [⟨HFR_REQ_RSP.DONE, .w1s, false, false⟩, ⟨HFR_REQ_RSP.RESULT, .rw, false, false⟩, ⟨HFR_REQ_RSP.LEN, .rw, false, false⟩]⟩,
  ⟨"HFR_REQ_BUF", 0x40881000, 1024, 0x4, fun n => [⟨HFR_REQ_BUF.WORD n, .ro, false, false⟩]⟩,
  ⟨"HFR_RSP_BUF", 0x40882000, 1024, 0x4, fun n => [⟨HFR_RSP_BUF.WORD n, .rw, false, false⟩]⟩,
  ⟨"DSP_CTRL", 0x40900000, 1, 0x4, fun _ => [⟨DSP_CTRL.EN, .rw, false, false⟩, ⟨DSP_CTRL.IF, .rw, false, false⟩, ⟨DSP_CTRL.LANES, .rw, false, false⟩, ⟨DSP_CTRL.FMT, .rw, false, false⟩, ⟨DSP_CTRL.APPLY, .w1s, false, false⟩, ⟨DSP_CTRL.APPLY_PEND, .ro, false, false⟩, ⟨DSP_CTRL.REFUSED, .w1c, false, false⟩, ⟨DSP_CTRL.CAUSE, .ro, false, false⟩]⟩,
  ⟨"DSP_STAT", 0x40900004, 1, 0x4, fun _ => [⟨DSP_STAT.RUN, .ro, false, false⟩, ⟨DSP_STAT.PLAN_SHORT, .ro, false, false⟩, ⟨DSP_STAT.ORDER_OK, .ro, false, false⟩, ⟨DSP_STAT.ACK_ERR, .w1c, false, false⟩, ⟨DSP_STAT.CMD_PEND, .ro, false, false⟩, ⟨DSP_STAT.CMD_REFUSED, .w1c, false, false⟩, ⟨DSP_STAT.LINE, .ro, false, false⟩]⟩,
  ⟨"DSP_CNT", 0x40900008, 1, 0x4, fun _ => [⟨DSP_CNT.UNDERRUN, .rc, false, false⟩, ⟨DSP_CNT.TE_MISS, .rc, false, false⟩, ⟨DSP_CNT.TE_SKIP, .rc, false, false⟩]⟩,
  ⟨"DSP_CLK", 0x4090000C, 1, 0x4, fun _ => [⟨DSP_CLK.N, .rw, false, false⟩, ⟨DSP_CLK.LR, .rw, false, false⟩]⟩,
  ⟨"DSP_HTIM0", 0x40900010, 1, 0x4, fun _ => [⟨DSP_HTIM0.HACT, .rw, false, false⟩, ⟨DSP_HTIM0.HSYNC, .rw, false, false⟩]⟩,
  ⟨"DSP_HTIM1", 0x40900014, 1, 0x4, fun _ => [⟨DSP_HTIM1.HFP, .rw, false, false⟩, ⟨DSP_HTIM1.HBP, .rw, false, false⟩]⟩,
  ⟨"DSP_VTIM0", 0x40900018, 1, 0x4, fun _ => [⟨DSP_VTIM0.VACT, .rw, false, false⟩, ⟨DSP_VTIM0.VSYNC, .rw, false, false⟩]⟩,
  ⟨"DSP_VTIM1", 0x4090001C, 1, 0x4, fun _ => [⟨DSP_VTIM1.VFP, .rw, false, false⟩, ⟨DSP_VTIM1.VBP, .rw, false, false⟩]⟩,
  ⟨"DSP_POL", 0x40900020, 1, 0x4, fun _ => [⟨DSP_POL.POLS, .rw, false, false⟩]⟩,
  ⟨"DSP_FB", 0x40900024, 1, 0x4, fun _ => [⟨DSP_FB.FB_OFS, .rw, false, false⟩, ⟨DSP_FB.STRIDE, .rw, false, false⟩]⟩,
  ⟨"DSP_PLANE", 0x40900028, 1, 0x4, fun _ => [⟨DSP_PLANE.EN, .rw, false, false⟩, ⟨DSP_PLANE.WSH, .rw, false, false⟩, ⟨DSP_PLANE.WZERO, .rw, false, false⟩]⟩,
  ⟨"DSP_WAVE_POS", 0x4090002C, 1, 0x4, fun _ => [⟨DSP_WAVE_POS.WAVE_X, .rw, false, false⟩, ⟨DSP_WAVE_POS.WAVE_Y, .rw, false, false⟩]⟩,
  ⟨"DSP_CUR_POS", 0x40900030, 1, 0x4, fun _ => [⟨DSP_CUR_POS.CUR_X, .rw, false, false⟩, ⟨DSP_CUR_POS.CUR_Y, .rw, false, false⟩]⟩,
  ⟨"DSP_CUR_COL", 0x40900034, 3, 0x4, fun n => [⟨DSP_CUR_COL.RGB n, .rw, false, false⟩]⟩,
  ⟨"DSP_BG", 0x40900040, 1, 0x4, fun _ => [⟨DSP_BG.RGB, .rw, false, false⟩]⟩,
  ⟨"DSP_LINECMP", 0x40900044, 1, 0x4, fun _ => [⟨DSP_LINECMP.LINE, .rw, false, false⟩]⟩,
  ⟨"DSP_TE", 0x40900048, 1, 0x4, fun _ => [⟨DSP_TE.EN, .rw, false, false⟩, ⟨DSP_TE.POL, .rw, false, false⟩, ⟨DSP_TE.TIMEOUT, .rw, false, false⟩]⟩]

/-- Registers of R548, part 11. -/
def regTable10 : List RegRow := [
  ⟨"DSP_DSI", 0x4090004C, 1, 0x4, fun _ => [⟨DSP_DSI.EOTP, .rw, false, false⟩, ⟨DSP_DSI.ACK, .rw, false, false⟩]⟩,
  ⟨"DSP_CMD", 0x40900050, 1, 0x4, fun _ => [⟨DSP_CMD.LEN, .rw, false, false⟩, ⟨DSP_CMD.GO, .w1s, false, false⟩]⟩,
  ⟨"DSP_CMD_DATA", 0x40900054, 1, 0x4, fun _ => [⟨DSP_CMD_DATA.DATA, .rw, false, false⟩]⟩,
  ⟨"DSP_CTAB", 0x40900400, 256, 0x4, fun n => [⟨DSP_CTAB.ENTRY n, .rw, false, false⟩]⟩,
  ⟨"DSP_CUR_BMP", 0x40900800, 256, 0x4, fun n => [⟨DSP_CUR_BMP.PIXELS n, .rw, false, false⟩]⟩,
  ⟨"STM_CTRL", 0x40A00000, 1, 0x4, fun _ => [⟨STM_CTRL.TDR_EN, .rw, true, true⟩, ⟨STM_CTRL.LAS_EN, .rw, true, true⟩, ⟨STM_CTRL.ABORT, .w1s, false, false⟩]⟩,
  ⟨"STM_STAT", 0x40A00004, 1, 0x4, fun _ => [⟨STM_STAT.TDR_ON, .ro, false, false⟩, ⟨STM_STAT.LAS_ON, .ro, false, false⟩, ⟨STM_STAT.TONE_ON, .ro, false, false⟩, ⟨STM_STAT.CAUSE, .ro, false, false⟩, ⟨STM_STAT.ABORTED, .w1c, false, false⟩]⟩,
  ⟨"STM_TDR", 0x40A00008, 1, 0x4, fun _ => [⟨STM_TDR.AMP, .rw, true, true⟩, ⟨STM_TDR.PAT, .rw, true, true⟩, ⟨STM_TDR.PAT_ID, .rw, true, true⟩, ⟨STM_TDR.DLY, .rw, true, true⟩]⟩,
  ⟨"STM_TDR_WIDTH", 0x40A0000C, 1, 0x4, fun _ => [⟨STM_TDR_WIDTH.WIDTH, .rw, true, true⟩]⟩,
  ⟨"STM_LAS_DLY", 0x40A00010, 1, 0x4, fun _ => [⟨STM_LAS_DLY.COARSE, .rw, true, true⟩, ⟨STM_LAS_DLY.FINE, .rw, true, true⟩]⟩,
  ⟨"STM_LAS_WIDTH", 0x40A00014, 1, 0x4, fun _ => [⟨STM_LAS_WIDTH.WIDTH, .rw, true, true⟩]⟩,
  ⟨"STM_AUDIO_CTRL", 0x40A00020, 1, 0x4, fun _ => [⟨STM_AUDIO_CTRL.RUN, .rw, false, false⟩, ⟨STM_AUDIO_CTRL.TONE_EN, .rw, false, false⟩, ⟨STM_AUDIO_CTRL.START_LVL, .rw, false, false⟩]⟩,
  ⟨"STM_AUDIO_SRC", 0x40A00024, 1, 0x4, fun _ => [⟨STM_AUDIO_SRC.TONE_SRC, .rw, false, false⟩, ⟨STM_AUDIO_SRC.SPK_SRC, .rw, false, false⟩, ⟨STM_AUDIO_SRC.TONE_ID, .rw, false, false⟩, ⟨STM_AUDIO_SRC.SPK_ID, .rw, false, false⟩]⟩,
  ⟨"STM_AUDIO_STAT", 0x40A00028, 1, 0x4, fun _ => [⟨STM_AUDIO_STAT.TONE_DEPTH, .ro, false, false⟩, ⟨STM_AUDIO_STAT.SPK_DEPTH, .ro, false, false⟩, ⟨STM_AUDIO_STAT.RUNNING, .ro, false, false⟩, ⟨STM_AUDIO_STAT.DROPS, .rc, false, false⟩]⟩,
  ⟨"STM_TONE_LVL", 0x40A0002C, 1, 0x4, fun _ => [⟨STM_TONE_LVL.ATT, .rw, false, false⟩]⟩,
  ⟨"STM_SLIP", 0x40A00030, 1, 0x4, fun _ => [⟨STM_SLIP.COUNT, .rc, false, false⟩]⟩,
  ⟨"STM_TONE_PUSH", 0x40A00040, 1, 0x4, fun _ => [⟨STM_TONE_PUSH.SAMPLE, .wo, false, false⟩]⟩,
  ⟨"STM_SPK_PUSH", 0x40A00044, 1, 0x4, fun _ => [⟨STM_SPK_PUSH.SAMPLE, .wo, false, false⟩]⟩,
  ⟨"STM_PAIR_PUSH", 0x40A00048, 1, 0x4, fun _ => [⟨STM_PAIR_PUSH.TONE, .wo, false, false⟩, ⟨STM_PAIR_PUSH.SPK, .wo, false, false⟩]⟩,
  ⟨"AMP_CTRL", 0x40A10000, 1, 0x4, fun _ => [⟨AMP_CTRL.EN, .rw, false, false⟩, ⟨AMP_CTRL.CLEAR, .w1s, false, false⟩, ⟨AMP_CTRL.VOL, .rw, false, false⟩, ⟨AMP_CTRL.RETRY, .rw, false, false⟩]⟩,
  ⟨"AMP_STAT", 0x40A10004, 1, 0x4, fun _ => [⟨AMP_STAT.STATE, .ro, false, false⟩, ⟨AMP_STAT.AMP_FAULT, .w1c, false, false⟩, ⟨AMP_STAT.THERM, .ro, false, false⟩, ⟨AMP_STAT.UVLO, .ro, false, false⟩, ⟨AMP_STAT.RETRIES, .ro, false, false⟩]⟩,
  ⟨"AMP_CNT", 0x40A10008, 1, 0x4, fun _ => [⟨AMP_CNT.TRIPS, .rc, false, false⟩]⟩,
  ⟨"KRB_CTRL", 0x40A20000, 1, 0x4, fun _ => [⟨KRB_CTRL.CLEAR, .w1s, false, false⟩]⟩,
  ⟨"KRB_STAT", 0x40A20004, 1, 0x4, fun _ => [⟨KRB_STAT.VIOL, .ro, false, false⟩, ⟨KRB_STAT.MON_FAIL, .ro, false, false⟩, ⟨KRB_STAT.READY, .ro, false, false⟩, ⟨KRB_STAT.TRIPPED, .ro, false, false⟩, ⟨KRB_STAT.OVR, .ro, false, false⟩, ⟨KRB_STAT.LIGHT_EN, .rw, false, false⟩, ⟨KRB_STAT.WR_REFUSED, .w1c, false, false⟩]⟩]

/-- Registers of R548, part 12. -/
def regTable11 : List RegRow := [
  ⟨"KRB_DC", 0x40A20008, 1, 0x4, fun _ => [⟨KRB_DC.DC, .ro, false, false⟩]⟩,
  ⟨"KRB_AC", 0x40A2000C, 1, 0x4, fun _ => [⟨KRB_AC.AC, .ro, false, false⟩]⟩,
  ⟨"KRB_LIGHT", 0x40A20010, 1, 0x4, fun _ => [⟨KRB_LIGHT.MEAN, .ro, false, false⟩]⟩,
  ⟨"KRB_LIGHT_THR", 0x40A20014, 1, 0x4, fun _ => [⟨KRB_LIGHT_THR.THR, .rw, false, false⟩]⟩,
  ⟨"KRB_QUIET", 0x40A20018, 1, 0x4, fun _ => [⟨KRB_QUIET.QUIET, .rw, false, false⟩]⟩,
  ⟨"KRB_UNLOCK", 0x40A20020, 1, 0x4, fun _ => [⟨KRB_UNLOCK.KEY, .wo, false, false⟩]⟩,
  ⟨"KRB_OVR", 0x40A20024, 1, 0x4, fun _ => [⟨KRB_OVR.MASK, .rw, false, false⟩, ⟨KRB_OVR.KEY, .wo, false, false⟩]⟩,
  ⟨"KRB_TRIP_LO", 0x40A20028, 1, 0x4, fun _ => [⟨KRB_TRIP_LO.TICK, .ro, false, false⟩]⟩,
  ⟨"KRB_TRIP_HI", 0x40A2002C, 1, 0x4, fun _ => [⟨KRB_TRIP_HI.TICK, .ro, false, false⟩]⟩,
  ⟨"KRB_CNT", 0x40A20030, 1, 0x4, fun _ => [⟨KRB_CNT.TRIPS, .rc, false, false⟩]⟩,
  ⟨"ERL_CTRL", 0x40B00000, 1, 0x4, fun _ => [⟨ERL_CTRL.RESTART, .w1s, false, false⟩]⟩,
  ⟨"ERL_STAT", 0x40B00004, 1, 0x4, fun _ => [⟨ERL_STAT.ROLE, .ro, false, false⟩, ⟨ERL_STAT.UPSTREAM, .ro, false, false⟩, ⟨ERL_STAT.HOPS, .ro, false, false⟩, ⟨ERL_STAT.ALIGNED, .ro, false, false⟩, ⟨ERL_STAT.CONFLICT, .ro, false, false⟩, ⟨ERL_STAT.LOCAL_IGN, .rc, false, false⟩, ⟨ERL_STAT.NOTIME, .rc, false, false⟩]⟩,
  ⟨"ERL_NET", 0x40B00008, 1, 0x4, fun _ => [⟨ERL_NET.ARM_EN, .rw, true, false⟩, ⟨ERL_NET.FIRE_TX, .rw, true, false⟩, ⟨ERL_NET.LEAD, .rw, true, false⟩]⟩,
  ⟨"ERL_MASTER_LO", 0x40B0000C, 1, 0x4, fun _ => [⟨ERL_MASTER_LO.ID, .ro, false, false⟩]⟩,
  ⟨"ERL_MASTER_HI", 0x40B00010, 1, 0x4, fun _ => [⟨ERL_MASTER_HI.ID, .ro, false, false⟩]⟩,
  ⟨"ERL_OFFSET", 0x40B00014, 1, 0x4, fun _ => [⟨ERL_OFFSET.THETA, .ro, false, false⟩]⟩,
  ⟨"ERL_WIN", 0x40B00018, 1, 0x4, fun _ => [⟨ERL_WIN.OPEN, .ro, false, false⟩]⟩,
  ⟨"ERL_PORT_CTRL", 0x40B00100, 2, 0x100, fun n => [⟨ERL_PORT_CTRL.EN n, .rw, false, false⟩, ⟨ERL_PORT_CTRL.ABORT n, .w1s, false, false⟩]⟩,
  ⟨"ERL_PORT_STAT", 0x40B00104, 2, 0x100, fun n => [⟨ERL_PORT_STAT.STATE n, .ro, false, false⟩, ⟨ERL_PORT_STAT.CAUSE n, .ro, false, false⟩]⟩,
  ⟨"ERL_PORT_CNT", 0x40B00108, 2, 0x100, fun n => [⟨ERL_PORT_CNT.CRC n, .rc, false, false⟩, ⟨ERL_PORT_CNT.REPLAY n, .rc, false, false⟩, ⟨ERL_PORT_CNT.VC0_LOST n, .rc, false, false⟩, ⟨ERL_PORT_CNT.REFUSED n, .rc, false, false⟩]⟩,
  ⟨"ERL_PORT_DELAY", 0x40B0010C, 2, 0x100, fun n => [⟨ERL_PORT_DELAY.DELAY n, .ro, false, false⟩]⟩,
  ⟨"SEC_OTP_ADDR", 0x40C00000, 1, 0x4, fun _ => [⟨SEC_OTP_ADDR.WORD, .rw, false, false⟩]⟩,
  ⟨"SEC_OTP_DATA", 0x40C00004, 1, 0x4, fun _ => [⟨SEC_OTP_DATA.DATA, .rw, false, false⟩]⟩,
  ⟨"SEC_OTP_CMD", 0x40C00008, 1, 0x4, fun _ => [⟨SEC_OTP_CMD.PROG, .w1s, false, false⟩, ⟨SEC_OTP_CMD.BUSY, .ro, false, false⟩, ⟨SEC_OTP_CMD.REFUSED, .w1c, false, false⟩]⟩]

/-- Registers of R548, part 13. -/
def regTable12 : List RegRow := [
  ⟨"LOG_CTRL", 0x40D00000, 1, 0x4, fun _ => [⟨LOG_CTRL.POP, .w1s, false, false⟩, ⟨LOG_CTRL.CLEAR, .w1s, false, false⟩]⟩,
  ⟨"LOG_STAT", 0x40D00004, 1, 0x4, fun _ => [⟨LOG_STAT.DEPTH, .ro, false, false⟩, ⟨LOG_STAT.LOST, .rc, false, false⟩, ⟨LOG_STAT.WAITING, .ro, false, false⟩]⟩,
  ⟨"LOG_IDX", 0x40D00008, 1, 0x4, fun _ => [⟨LOG_IDX.RD, .ro, false, false⟩, ⟨LOG_IDX.WR, .ro, false, false⟩]⟩,
  ⟨"LOG_ESEQ", 0x40D0000C, 1, 0x4, fun _ => [⟨LOG_ESEQ.NEXT, .ro, false, false⟩]⟩,
  ⟨"LOG_ENT", 0x40D00020, 8, 0x4, fun n => [⟨LOG_ENT.WORD n, .ro, false, false⟩]⟩,
  ⟨"LOG_ABORT_CTRL", 0x40D00040, 1, 0x4, fun _ => [⟨LOG_ABORT_CTRL.REQ, .w1s, false, false⟩, ⟨LOG_ABORT_CTRL.SEQ, .rw, false, false⟩]⟩,
  ⟨"LOG_ABORT_STAT", 0x40D00044, 1, 0x4, fun _ => [⟨LOG_ABORT_STAT.BUSY, .ro, false, false⟩, ⟨LOG_ABORT_STAT.SRC, .ro, false, false⟩, ⟨LOG_ABORT_STAT.COUNT, .rc, false, false⟩, ⟨LOG_ABORT_STAT.MERGED, .rc, false, false⟩]⟩,
  ⟨"LOG_ABORT_TIME", 0x40D00048, 1, 0x4, fun _ => [⟨LOG_ABORT_TIME.LAST, .ro, false, false⟩]⟩,
  ⟨"LOG_RST_CAUSE", 0x40D0004C, 1, 0x4, fun _ => [⟨LOG_RST_CAUSE.CAUSE, .ro, false, false⟩, ⟨LOG_RST_CAUSE.LAST_RUNG, .ro, false, false⟩, ⟨LOG_RST_CAUSE.WRITING, .ro, false, false⟩, ⟨LOG_RST_CAUSE.PRIOR, .ro, false, false⟩]⟩]

/-- Every register of R548. -/
def regTable : List RegRow :=
  regTable0 ++ regTable1 ++ regTable2 ++ regTable3 ++ regTable4 ++ regTable5 ++ regTable6 ++ regTable7 ++ regTable8 ++ regTable9 ++ regTable10 ++ regTable11 ++ regTable12

end Sys2Proof.Machine
end

