-- ==== Sys2Proof/Machine/Sparse.lean ====
section
/-! DEFINITION. Sparse storage: a list of key and value pairs with rising keys. Registers and memories are kept in it. -/

namespace Sys2Proof.Machine

/-- The value listed under a key. -/
def sparseFind {α : Type} (k : Nat) : List (Nat × α) → Option α
  | [] => none
  | (j, v) :: m => if j = k then some v else sparseFind k m

/-- Lists a value under a key, in the place that keeps the keys rising. -/
def sparseInsert {α : Type} (k : Nat) (v : α) : List (Nat × α) → List (Nat × α)
  | [] => [(k, v)]
  | (j, w) :: m =>
    if j = k then (k, v) :: m
    else if k < j then (k, v) :: (j, w) :: m
    else (j, w) :: sparseInsert k v m

/-- Takes a key off the list. -/
def sparseErase {α : Type} (k : Nat) : List (Nat × α) → List (Nat × α)
  | [] => []
  | (j, w) :: m => if j = k then sparseErase k m else (j, w) :: sparseErase k m

/-- Keys strictly rising, above a bound. -/
def sparseRising {α : Type} (lo : Nat) : List (Nat × α) → Bool
  | [] => true
  | (j, _) :: m => lo ≤ j && sparseRising (j + 1) m

end Sys2Proof.Machine
end

