-- ==== Sys2Proof/Machine/State.lean ====
section
/-! DEFINITION. The state of the block: plain data, everything the spec gives it, and the queue of waiting commands. A field's
value after `:=` is its value at reset. -/

namespace Sys2Proof.Machine

/-! ## Faults and the log (R528 to R536) -/

/-- One entry of the error log (R528). The VALID flag is 1 in every stored entry and the CRC is computed when the
entry is written to memory. -/
structure LogEntry where
  code : Nat
  unit : Nat
  cls : Nat
  prior : Bool
  eseq : Nat
  time : Nat
  d0 : Nat
  d1 : Nat
  deriving DecidableEq, Repr

/-- The log engine: entries awaiting their write (R530), faults held before the tick count starts (R580), the
retained copy of the last 8 stored entries in the always-on domain (R535). -/
structure LogState where
  hold : List LogEntry := []
  early : List LogEntry := []
  retained : List LogEntry := []
  deriving DecidableEq, Repr

/-- A queue as the last judged cycle left it (R321): its depth, its FULL depth, its watermark flag, and the watermark in effect. -/
structure QueueMon where
  depth : Nat := 0
  full : Bool := false
  wms : Bool := false
  wm : Nat := 0
  judged : Bool := false
  deriving DecidableEq, Repr

/-- The Tramlines between the raising and the delivering slot (R309): sources raised and not yet delivered, each with its raising
slot, and the lines that carry them, one entry for each event. `fresh` holds the arrivals of the present slot by stop, `ran` the tasks
that ran in a slot, `pinDue` the EVT pins' output starts (pin) and input events (4 + pin) to come with their slots, `pinOn` the ends of
running output pulses, `later` the event register writes that apply in the next slot (R323), `clears` the counters to clear at the
end of the slot (R316). -/
structure EvtState where
  raised : List (Nat × Nat) := []
  lines : List (Nat × Nat) := []
  fresh : List (Nat × Nat) := []
  ran : List (Nat × Nat) := []
  queues : List QueueMon := List.replicate 16 {}
  pinDue : List (Nat × Nat) := []
  pinOn : List (Nat × Nat) := []
  later : List (Nat × Nat) := []
  clears : List Nat := []
  deriving DecidableEq, Repr

/-- A global abort (R537 to R541): the slot of the first request, the sources of requests held until boot or a rung exit ends, and
whether the effects of R538 have been applied. -/
structure AbortState where
  since : Option Nat := none
  held : Nat := 0
  heldMore : Nat := 0
  acted : Bool := false
  deriving DecidableEq, Repr

/-! ## The plan (R19 to R62) -/

/-- Which plan runs: the boot plan in ROM (R576) or the plan of a store slot. -/
inductive PlanSource where
  | boot
  | slot (n : Nat)
  deriving DecidableEq, Repr

/-- The kind of a Boulevard run (R578). -/
inductive RunKind where
  | data | check
  deriving DecidableEq, Repr

/-- An open Boulevard run: owner, channel and kind (R578), its page when it has one, the check page for a check run (R268, R269), the
DMA channel bound to it (R284), whether its row has been taken from it (R270), and the owner of the earlier run for whose end it waits
(R270). -/
structure Run where
  owner : Owner
  ch : Nat
  kind : RunKind
  page : Option Nat
  bound : Option Nat
  dead : Bool
  waits : Option Owner
  deriving DecidableEq, Repr

/-- Execution, store, verification and swap of plans. `begun` says whether the present slot's claims have been executed; `queue` holds the
slots under verification, `runs` the open Boulevard runs, `refreshed` the banks refreshed in the current cycle and `closedAt` the
slots in which banks were closed (R41), `mrrOk` the clearing readings of R44 by channel. -/
structure PlanState where
  running : Bool := false
  active : PlanSource := .boot
  store : List (Nat × Nat) := []
  swap : Option (Nat × Nat) := none
  modeChange : Option Nat := none
  queue : List Nat := []
  period0 : Nat := 0
  firstPeriod : Bool := false
  runs : List Run := []
  late : List (Nat × Nat) := []
  refreshed : List (Nat × Nat) := []
  closedAt : List (Nat × Nat) := []
  mrrOk : List (Nat × Nat) := []
  begun : Bool := false
  deriving DecidableEq, Repr

/-! ## Boot, OTP and the ledger (R63 to R106) -/

/-- How far the boot has come (R63 to R95). -/
inductive BootPhase where
  | held        -- reset not yet released
  | refCheck    -- a candidate reference is being counted against the crystal
  | locking     -- the SCS is locking
  | headers     -- the slots' header records are being read
  | octal       -- the octal entry sequence runs
  | streaming   -- the image streams in
  | hostWait    -- waiting for a download and GO
  | verifying   -- loaded plans are being verified
  | swapping    -- the first plan's swap is pending
  | finishing   -- boot completes on the boot plan
  | done        -- BOOT_DONE raised
  | test        -- BOOT_MODE 0b11
  deriving DecidableEq, Repr

/-- A header record that passed the checks of R73, and the first 64 bytes of its slot as read at x1 (R65). -/
structure ImageHeader where
  tag : Nat
  seq : Nat
  size : Nat
  autostart : Nat
  policy : Nat
  octRead : Nat
  octDummy : Nat
  octFreq : Nat
  octWren : Nat
  octCfgCmd : Nat
  octCfgData : Nat
  octCfgAddr : Nat
  octCfgWait : Nat
  start : List Nat
  deriving DecidableEq, Repr

/-- What a ledger copy holds (R88): tag, sequence, generation, CONFIG and entries. -/
structure LedgerCopy where
  tag : Nat
  seq : Nat
  gen : Nat
  config : Nat
  entries : List (Nat × Nat)
  deriving DecidableEq, Repr

/-- A ledger write in progress (R92): the copy written, its bytes, and the lines still to be carried, the header's last. -/
structure LedgerWrite where
  copy : Nat
  bytes : List Nat
  lines : List Nat
  deriving DecidableEq, Repr

/-- A PLANS directory entry (R75). -/
structure PlanDir where
  mode : Nat
  config : Nat
  primary : Bool
  tagOk : Bool
  deriving DecidableEq, Repr

/-- Boot engine, image results, OTP and the settings ledger. `reasonA` and `reasonB` are the results of R73 for the headers
read, `trySlot` what TRY_SLOT named at this boot, `ledgerUsed` the CONFIG of the ledger
copy used (R87), `tag` and `imgSeq` are those of the image that boots. `lockDelay` is the time in slots from reset release to the first lock,
`flashHeld` whether SP0_RSTN is driven low (R64), `octSent` the commands of the octal entry with their address and data, and `octSince` when
they were issued (R65), `lines` what the boot engine has read of the download area, the last line first, and `want` how many lines it reads
(R69, R576), `ledger` the ledger's SRAM by 64-byte line: L0 in lines 0 to 127, L1 in 128 to 255 (R88). -/
structure BootState where
  phase : BootPhase := .held
  slotA : Option ImageHeader := none
  slotB : Option ImageHeader := none
  readA : Bool := false
  readB : Bool := false
  reasonA : Nat := 0
  reasonB : Nat := 0
  trySlot : Nat := 0
  tried : List Nat := []
  current : Nat := 0
  octal : Bool := false
  candidate : Nat := 0
  dir : List PlanDir := []
  restoredMode : Nat := 0
  defaultMode : Nat := 0
  ledgerUsed : Option Nat := none
  entry : Nat := 0
  tag : Nat := 0
  imgSeq : Nat := 0
  lockDelay : Nat := 0
  flashHeld : Bool := false
  octSent : List (Nat × Option (Nat × Nat)) := []
  octSince : Nat := 0
  lines : List (List Nat) := []
  want : Nat := 0
  ledger : List (Nat × List Nat) := []
  write : Option LedgerWrite := none
  newer : Bool := false
  cleared : Bool := false
  otpSet : List (Nat × Nat) := []
  otpBusy : Option (Nat × Nat × Nat) := none
  presN : Bool := false
  presFall : Option Nat := none
  sp1Open : Bool := false
  present : Bool := false
  synced : Bool := false
  deriving DecidableEq, Repr

/-! ## The Avenue (R107 to R145) -/

/-- A calibration cycle of a sub-converter (R116): the beat at which it ends, none while it waits to start (R119, R512), whether
the cycle before it failed, and whether it belongs to a reinstatement (R131). -/
structure Cal where
  ends : Option Nat
  second : Bool
  reinstating : Bool
  deriving DecidableEq, Repr

/-- An overlap of a handover (R114): the two sub-converters, the position, the first beat, and the sum of differences. -/
structure Overlap where
  incoming : Nat
  outgoing : Nat
  pos : Nat
  start : Nat
  sum : Int
  count : Nat
  deriving DecidableEq, Repr

/-- One quarter: the sub-converter at each position (none for a hole) and the overlap that runs. -/
structure Quarter where
  held : List (Option Nat)
  overlap : Option Overlap
  deriving DecidableEq, Repr

/-- A quarter as R115 leaves it after boot. -/
def Quarter.init (q : Nat) : Quarter := { held := (List.range 16).map (fun j => some (17 * q + j)), overlap := none }

/-- Flags of R201 that a beat of an input gives the records that hold it: 1 OVR, 2 LANE_SUSPECT, 4 HOLE. -/
structure Mark where
  beat : Nat
  input : Nat
  flags : Nat
  deriving DecidableEq, Repr

/-- The Avenue beside its registers: quarters, calibration cycles, map-outs that wait for the next beat, the stuck-code watch (code and
run length of each on-duty sub-converter, and whether the run began when it came on duty), the skew windows (samples, twice the sum of e·s,
the sum of s²; R118), the slot until which the equivalent-time phase settles, the phase, the committed PHASE it came from, the records
at it, the marks of past beats, the last non-hole sample and the last sample of each group by its lowest quarter, the next beat, and a
requested HALVE (input and store slot). -/
structure AveState where
  quarters : List Quarter := [Quarter.init 0, Quarter.init 1, Quarter.init 2, Quarter.init 3]
  cals : List (Nat × Cal) := [(16, ⟨none, false, false⟩), (33, ⟨none, false, false⟩), (50, ⟨none, false, false⟩), (67, ⟨none, false, false⟩)]
  mapouts : List Nat := []
  stuck : List (Nat × Nat × Nat × Bool) := []
  skew : List (Nat × Nat × Int × Nat) := []
  settling : Nat := 0
  phase : Nat := 0
  phaseBase : Nat := 0
  phaseRecs : Nat := 0
  marks : List Mark := []
  last : List (Nat × Int) := []
  prev : List (Nat × Int) := []
  beat : Nat := 0
  halve : Option (Nat × Nat) := none
  deriving DecidableEq, Repr

/-! ## Trigger units and decoders (R146 to R187). Times are in fraction LSBs of the unstepped tick count. -/

/-- What a unit detects (R155, R160): a completed condition, the opening of a qualified one, or its confirm or failure for the
candidate opened at a corrected time. -/
inductive HitKind where
  | cond
  | opening
  | confirm (cand : Int)
  | fail (cand : Int)
  deriving DecidableEq, Repr

/-- A detection: unit, decision slot, raw time, corrected time (R152). -/
structure Hit where
  unit : Nat
  slot : Nat
  raw : Int
  time : Int
  kind : HitKind
  deriving DecidableEq, Repr

/-- A qualified condition that has opened: raw and corrected time, and whether elapsed time has already settled it (R160). -/
structure Opening where
  raw : Int
  time : Int
  settled : Bool
  deriving DecidableEq, Repr

/-- Detection state of one trigger unit: the arming of the rising and falling detectors of LVL_A and LVL_B (R149), openings of its two
directions, the pattern terms' levels and detectors and whether the pattern was true and since when, the sequence (R158), holdoff (R157: the
end of the time holdoff that runs, and of the last one that has run out), the candidates open at the unit (R161), and the DATA bytes of a
SPAN (R166). -/
structure UnitState where
  armRA : Bool := false
  armFA : Bool := false
  armRB : Bool := false
  armFB : Bool := false
  openA : Option Opening := none
  openB : Option Opening := none
  terms : List (Bool × Bool × Bool) := []
  patTrue : Bool := false
  patSince : Option Opening := none
  seqB : Bool := false
  seqCount : Nat := 0
  seqCand : Option Int := none
  holdUntil : Option Int := none
  holdFloor : Option Int := none
  holdCount : Nat := 0
  holdAfter : Int := 0
  cands : List Int := []
  spanBytes : List (Nat × Nat × Nat) := []
  frame : Option (Nat × Int) := none
  deriving DecidableEq, Repr

/-- An owning fire or confirm on its way to the record engine (R6, R178, R221): unit, slot of arrival, time, whether it is a confirmed
candidate, a candidate's opening, and the decision slot. -/
structure Delivery where
  unit : Nat
  due : Nat
  time : Int
  confirm : Bool
  candidate : Bool
  decided : Nat
  deriving DecidableEq, Repr

/-- One logic line of a decoder as it was last seen: whether it has been seen, its level, and the arming of its detectors (R149). -/
structure LineState where
  seen : Bool := false
  level : Bool := true
  armR : Bool := false
  armF : Bool := false
  deriving DecidableEq, Repr

/-- A decoder (R163 to R165): its lines and its protocol engine. `next` is the next sampling point, `bits` the bits of the open frame
or word, `index` the next INDEX, `step` the protocol's own position, `acc` to `acc3` its registers (the protocols' definitions say
what each holds), `lastEdge` the last transition, `lastBit` the sampling
point of the last bit of a character. -/
structure DecState where
  lines : List LineState := [{}, {}, {}, {}]
  inFrame : Bool := false
  bits : List Bool := []
  start : Int := 0
  next : Option Int := none
  index : Nat := 0
  step : Nat := 0
  acc : Nat := 0
  acc2 : Nat := 0
  acc3 : Nat := 0
  run : Nat := 0
  lastEdge : Option Int := none
  lastBit : Int := 0
  deriving DecidableEq, Repr

/-- A field result on its way to the trigger units (R164, R167). -/
structure FieldResult where
  dec : Nat
  due : Nat
  field : Nat
  index : Nat
  value : Nat
  time : Int
  deriving DecidableEq, Repr

/-- The trigger block beside its registers: units, hits that await their decision slot, deliveries, the co-fire window of an owning record
(its id and last slot, R173), decoders and their results, the decoders whose lines name an input without a beat stream (R148), TRIG_IN's
level and its recent edges, the next slot whose timer instants are not done and the decision slots of instants to come (R170), the start
ticks of TRIG_OUT pulses to come and the end tick of the running one (R177), the unstepped count being meant, and the beat held back for its
successor's first sample with the two samples before it. -/
structure TrgState where
  units : List UnitState := [{}, {}, {}, {}]
  hits : List Hit := []
  deliveries : List Delivery := []
  cof : Option (Nat × Nat) := none
  decs : List DecState := [{}, {}, {}, {}]
  decNoSrc : List Bool := [false, false, false, false]
  results : List FieldResult := []
  trigIn : Bool := false
  edges : List (Int × Bool) := []
  timerSlot : Nat := 0
  timerDue : List Nat := []
  outStart : List Nat := []
  outEnd : Option Nat := none
  heldBeat : Option (Nat × List (Nat × List Int)) := none
  before : List (Nat × Int × Int) := []
  deriving DecidableEq, Repr

/-! ## Records (R188 to R220) -/

/-- Where a record stands between its arm and its commit (R191, R195, R207). -/
inductive RecPhase where
  | armed       -- SLOT: armed, no accepted fire
  | capturing   -- window not complete, or header not ready
  | numbered    -- sequence number assigned, header awaiting its claims
  deriving DecidableEq, Repr

/-- The ring of an ingest stream: its base, its bytes (in SLOT placement those of one ring slot), and the bytes of a beat (0 where the
stream writes nothing). -/
structure Ring where
  base : Nat := 0
  bytes : Nat := 0
  perBeat : Nat := 0
  deriving DecidableEq, Repr

/-- The settings of its generation that a record carries (R212): the fields its header names, the rings of the streams, the
equivalent-time offset of its phase (R120), and all field values. -/
structure RecGen where
  gen : Nat
  epoch : Nat
  carry : Bool
  length : Nat
  pre : Nat
  streams : Nat
  phase : Nat
  phaseAuto : Bool
  mode : Nat
  config : Nat
  place : Nat
  rings : List Ring
  offset : Int
  settings : List (Nat × Nat)
  deriving DecidableEq, Repr

/-- One record from its arm to its commit. Beats are device beat numbers; `id` is the model's own name for it; `hdr` holds the header blocks
still to be written (bit 0 header, bit 1 measurement block); `confirmTime` is the time that a confirm carries (R161); `gate` is the first
beat its measurements use (R241); `complete` says that a slot has ended with all the events of R195 past. -/
structure Rec where
  id : Nat
  phase : RecPhase
  gen : RecGen
  prov : Bool
  confirmed : Bool
  unit : Nat
  type : Nat
  time : Int
  cofMask : Nat
  cofs : List (Int × Nat)
  armBeat : Int
  first : Int
  last : Int
  ended : Bool
  ofs : Nat
  pos : Nat
  seg : Nat
  segFirst : Bool
  segLast : Bool
  flags : Nat
  confirmSlot : Nat
  confirmTime : Int
  seq : Nat
  mu : List Nat
  gate : Int
  delivered : Bool
  hdr : Nat
  queued : Bool
  complete : Bool
  deriving DecidableEq, Repr

/-- A committed ring slot under SLOT placement (R197). -/
structure RingSlot where
  pos : Nat
  seq : Nat
  released : Bool
  deriving DecidableEq, Repr

/-- A committed record as far as later rules need it (R202, R209, R293): number, first and last beat, ring slot, window length, streams,
placement, rings, the beat with stream beat number 0, and the address of its header. -/
structure Past where
  seq : Nat
  first : Int
  last : Int
  pos : Nat
  length : Nat
  streams : Nat
  place : Nat
  rings : List Ring
  startBeat : Int
  hdr : Nat
  deriving DecidableEq, Repr

/-- The bytes that a record's window holds in CONTINUOUS placement (R188, R209): its first and last beat, its streams, their rings and the
beat with stream beat number 0. -/
structure RingWindow where
  first : Int
  last : Int
  streams : Nat
  rings : List Ring
  startBeat : Int
  deriving DecidableEq, Repr

/-- A segment sequence (R198): the unit that counts it (4 for the shared one) and how many of its segments have an index. -/
structure Seg where
  unit : Nat
  index : Nat
  deriving DecidableEq, Repr

/-- A line of an ingest stream on its way to memory: address, bytes, byte enables, the first beat it holds a part of, and the slot in
which it reaches the buffer (R32, unit 0x06). -/
structure StreamLine where
  addr : Addr
  data : List Nat
  enables : List Bool
  beat : Int
  due : Nat
  deriving DecidableEq, Repr

/-- A capture that a stream takes up at a beat (R188, R191): its first beat, its last one once it is known, its ring, and the place of
its ring slot in the ring. -/
structure Capture where
  firstBeat : Int
  lastBeat : Option Int
  ring : Ring
  slotOfs : Nat
  deriving DecidableEq, Repr

/-- One ingest stream (R37, R123, R188): its ring, the beats it writes, the bytes not yet a line and how many of them lead the line only,
the capture it takes up next, lines coming to the buffer and lines in it, whether it issues, and the last beat of the captures whose lines
it issues to their end (R37). In SLOT placement `base` is the ring and `ringBytes` the bytes of one ring slot. -/
structure Stream where
  on : Bool := false
  base : Nat := 0
  ringBytes : Nat := 0
  perBeat : Nat := 0
  firstBeat : Int := 0
  lastBeat : Option Int := none
  packed : List Nat := []
  lead : Nat := 0
  packedBeat : Int := 0
  packedOfs : Nat := 0
  slotOfs : Nat := 0
  next : Int := 0
  later : Option Capture := none
  coming : List StreamLine := []
  lines : List StreamLine := []
  issuing : Bool := false
  drain : Option Int := none
  deriving DecidableEq, Repr

/-- The record engine: whether it runs or stops, its placement, the beat with stream beat number 0, a START that waits for its boundary
(R260) or for the ladder (R515, R519), the earliest next arm (R192), the records, committed ring slots, the next ring slot, the commit
queue, windows that later rules need, windows whose fence lifts, segment sequences (R198) and finished ones, the streams, the generation in
force, the number after the last record that REC_GEN.APPLIED tells of, whether a record's end awaits its arm (R198), and whether the newest
generation came with CARRY. -/
structure RecState where
  running : Bool := false
  stopping : Bool := false
  place : Nat := 0
  startBeat : Int := 0
  startDue : Option Nat := none
  startWaits : Bool := false
  armDue : Nat := 0
  recs : List Rec := []
  nextId : Nat := 0
  slots : List RingSlot := []
  nextPos : Nat := 0
  queue : List (List Nat) := []
  past : List Past := []
  lifting : List (Nat × Option Nat × RingWindow) := []
  segs : List Seg := []
  segsDone : List Nat := []
  streams : List Stream := List.replicate 8 {}
  appliedGen : Nat := 0
  appliedId : Nat := 0
  dead : Bool := false
  carry : Bool := false
  deriving DecidableEq, Repr

/-! ## Reduction, accumulation, persistence, measurement (R221 to R254) -/

/-- The settings of a reduction output (R251), with the generation they came with. -/
structure RedSet where
  src : Nat := 0
  mode : Nat := 0
  k : Nat := 0
  sink : Nat := 0
  wm : Nat := 32
  gen : Nat := 0
  deriving DecidableEq, Repr

/-- What an output delivers in a slot (R224, R228): a change of its settings, or the values of a group with their time, the beat of its first
sample, and the first and the last beat that contribute to them. -/
structure RedDue where
  slot : Nat
  change : Option RedSet := none
  time : Int := 0
  beat : Nat := 0
  from_ : Int := 0
  last : Int := 0
  values : List Int := []
  deriving DecidableEq, Repr

/-- One reduction output (R222 to R228): the settings that group samples (`cur`) and those that deliver (`out`), committed changes that wait for
a group boundary with their commit slots, the applied generation last looked at; the open group with its first sample's time and beat and its
first contributing beat; the open line with its time and beats; the next line number, the queue, and what is to be delivered. -/
structure RedOut where
  cur : RedSet := {}
  out : RedSet := {}
  changes : List (Nat × RedSet) := []
  seen : Nat := 0
  sum : Int := 0
  mn : Int := 0
  mx : Int := 0
  first : Int := 0
  count : Nat := 0
  start : Int := 0
  beat : Nat := 0
  from_ : Int := 0
  lineTime : Int := 0
  values : List Int := []
  lineFrom : Int := 0
  lineLast : Int := 0
  line : Nat := 0
  gap : Bool := false
  ovfLogged : Bool := false
  queue : List (List Nat) := []
  due : List RedDue := []
  deriving DecidableEq, Repr

/-- An output at reset: RED_OUT_CTRL.SRC of output n resets to n (R251). -/
def RedOut.init (n : Nat) : RedOut := { cur := { src := n }, out := { src := n } }

/-- One array of an accumulation unit (R230, R231). COUNT is sparse; the points lie in the Square. `dirty` says that its header is to be
written. -/
structure AuArray where
  base : Nat := 0
  points : Nat := 0
  ilv : Nat := 0
  shift : Nat := 0
  epoch : Option Nat := none
  gen : Nat := 0
  flags : Nat := 0
  nrec : Nat := 0
  satpts : Nat := 0
  counts : List (Nat × Nat) := []
  restart : Bool := false
  done : Bool := false
  dirty : Bool := false
  deriving DecidableEq, Repr

/-- A record an accumulation unit adds: its settings, first and last beat, phase slot, number of values, array, the next point to ask for, the
lines asked for and not yet written, whether a line has been written, whether all are, and whether the record has committed, with the
FLAGS of its commit. -/
structure AuRecord where
  recId : Nat
  gen : RecGen
  begun : Bool
  first : Int
  last : Int
  slot : Nat
  total : Nat
  array : Nat
  asked : Nat
  left : List Addr
  wrote : Bool
  added : Bool
  committed : Bool
  flags : Nat
  deriving DecidableEq, Repr

/-- One accumulation unit. -/
structure AuState where
  active : Nat := 0
  arrays : List AuArray := []
  cur : List AuRecord := []
  short : Bool := false
  restartAsked : Bool := false
  deriving DecidableEq, Repr

/-- A record the persistence unit has taken into a bitmap (R237, R238): its settings, its first and last beat, the marked bins, whether it has
committed, with its sequence number, and whether the bitmap is complete. -/
structure Bitmap where
  recId : Nat
  gen : RecGen
  first : Int
  last : Int
  bins : List Nat
  committed : Bool
  seq : Nat
  complete : Bool
  deriving DecidableEq, Repr

/-- The kinds of pass of R239; a RECORD pass has the record's sequence number and its bins. -/
inductive PassKind where
  | clear
  | record (seq : Nat) (bins : List Nat)
  | decay
  deriving DecidableEq, Repr

/-- The persistence unit. -/
structure PerState where
  maps : List Bitmap := []
  epoch : Option Nat := none
  waiting : List PassKind := []
  pass : Option (PassKind × Nat) := none
  frames : Nat := 0
  noClaims : Bool := false
  deriving DecidableEq, Repr

/-- The statistics of one measurement unit (R248), floats as binary32 words. -/
structure MuStat where
  n : Nat := 0
  mn : Nat := 0
  mx : Nat := 0
  mean : Nat := 0
  m2 : Nat := 0
  nans : Nat := 0
  epoch : Nat := 0
  deriving DecidableEq, Repr

/-- Reference levels a measurement unit keeps from the record before (R244): epoch, TOP and BASE. -/
structure MuLevels where
  epoch : Nat
  top : Int
  base : Int
  deriving DecidableEq, Repr

/-- The reduction chapter's units (`levels`: the 16 units' levels for SRC, then for SRC2), and the tap history (R221): per input and per
output the held beats, newest first, each with its beat number, its values in 1/16 LSB and its flags. -/
structure RedState where
  taps : List (List (Nat × List Int × Nat)) := []
  outs : List RedOut := [RedOut.init 0, RedOut.init 1, RedOut.init 2, RedOut.init 3]
  aus : List AuState := [{}, {}, {}, {}]
  per : PerState := {}
  stats : List MuStat := List.replicate 16 {}
  levels : List (Option MuLevels) := List.replicate 32 none
  deriving DecidableEq, Repr

/-! ## Memory engine (R255 to R280) and the Roundabout (R281 to R308) -/

/-- What an access of a client does at its claim or entry (R259). -/
inductive AccKind where
  | read | write | masked
  deriving DecidableEq, Repr

/-- Where the data of a completed access goes. -/
inductive AccTag where
  | none
  | dma (n : Nat)
  | load
  | store
  | group
  | display (lineNo : Nat)
  | header (seq : Nat)
  | au (n : Nat)
  | per
  | remote (port : Nat)
  | scrub
  deriving DecidableEq, Repr

/-- A pending access of a client: owner, line address, kind, 64 data bytes, byte enables, tag, and the first slot at which
it may be taken. -/
structure Acc where
  owner : Owner
  addr : Addr
  kind : AccKind
  data : List Nat
  enables : List Bool
  tag : AccTag
  ready : Nat
  deriving DecidableEq, Repr

/-- Read data on its way to its client (R32, units 0x07 and 0x0E). -/
structure Flight where
  due : Nat
  owner : Owner
  addr : Addr
  tag : AccTag
  data : List Nat
  bad : Bool
  fenced : Bool
  deriving DecidableEq, Repr

/-- A group that the gatherer takes together (R272): owner, channel, group, which of its eight lines have been written, and their bytes. -/
structure Group where
  owner : Owner
  ch : Nat
  group : Nat
  mask : Nat
  lines : List (List Nat)
  deriving DecidableEq, Repr

/-- The check bytes of a group on their way to the gatherer or held there (R272): owner, channel, group, the slot of their arrival, and for
each line the bytes that its check bytes stand for, where they are defined (R274). -/
structure Loaded where
  owner : Owner
  ch : Nat
  group : Nat
  due : Nat
  checks : List (Option (List Nat))
  deriving DecidableEq, Repr

/-- A Boulevard line on its way from its RD entry to its client (R32, unit 0x0E; R272): the slot of its delivery, owner, address, tag, the
bytes of the array, its words in error by number and whether uncorrectable, the places of its fenced bytes (R209), and its number among
the lines of its channel's work. -/
structure Reading where
  due : Nat
  owner : Owner
  addr : Addr
  tag : AccTag
  data : List Nat
  marks : List (Nat × Bool)
  fence : List Nat
  line : Nat
  deriving DecidableEq, Repr

/-- A group as Boulevard scrub has read it (R278): its index in KiB, its lines read so far by number with the bytes to write back (none
where a word is uncorrectable), whether an error was corrected, whether a client has written a line of it since, and the next line to write
back. -/
structure ScrubGroup where
  group : Nat
  lines : List (Nat × Option (List Nat))
  found : Bool
  cancelled : Bool
  next : Nat
  deriving DecidableEq, Repr

/-- The memory engine beside the memory contents: pending accesses, data in flight and Boulevard lines on their way, the Alley's turn and
scrub row of each bank, errors present by word, headers to rewrite with their addresses and the flags to set (R202), lines found
uncorrectable (R279), the gatherer's groups (R272), the check bytes of the Boulevard by line, as the bytes they stand for (R268), Boulevard
scrub (lines asked of the group by channel, groups read and groups to write back by channel), and the slot of a turn that serves the error
log (R276). -/
structure MemState where
  acc : List Acc := []
  flight : List Flight := []
  reading : List Reading := []
  turn : List (Nat × Nat) := []
  scrubRow : List (Nat × Nat) := []
  upsets : List (Addr × Bool × List Nat) := []
  hdrFix : List (Nat × Nat × Nat) := []
  badLines : List Addr := []
  ceLogged : Bool := false
  blvCeLogged : Bool := false
  written : List Group := []
  loaded : List Loaded := []
  ecwDone : List Group := []
  checks : List (Nat × List Nat) := []
  scrubDone : List (Nat × Nat) := []
  scrubRead : List (Nat × ScrubGroup) := []
  scrubFix : List (Nat × ScrubGroup) := []
  logTurn : Option Nat := none
  calLog : List (Nat × List Nat) := []
  training : Bool := false
  trainDue : Nat := 0
  blvTries : Nat := 0
  blvLoss : Nat := 0
  areaLoss : Nat := 0
  deriving DecidableEq, Repr

/-- A descriptor or template (R287, R288). -/
structure Desc where
  src : Nat
  dst : Nat
  slen : Nat
  sstr : Int
  scnt : Nat
  dlen : Nat
  dstr : Int
  dcnt : Nat
  skind : Nat
  dkind : Nat
  port : Nat
  last : Bool
  pulse : Bool
  cnt : Bool
  tag : Nat
  next : Nat
  deriving DecidableEq, Repr

/-- A staged line and the slot in which it arrived. -/
structure Staged where
  arrived : Nat
  data : List Nat
  deriving DecidableEq, Repr

/-- One DMA channel beside its registers. `readSince` is the slot since which its next read is pending (R284). -/
structure DmaCh where
  active : Bool := false
  fetch : Option Nat := none
  fetchIssued : Bool := false
  desc : Option Desc := none
  template : Option Desc := none
  srcLines : List Nat := []
  reads : Nat := 0
  writes : Nat := 0
  total : Nat := 0
  inFlight : Nat := 0
  staged : List Staged := []
  cqSeq : Option Nat := none
  dstPtr : Nat := 0
  readSince : Option Nat := none
  granted : Bool := false
  pacedOn : Bool := false
  haltAtEnd : Bool := false
  aborting : Option Nat := none
  deriving DecidableEq, Repr

/-- The Roundabout: channels, the round-robin position of each class, and the SP1 host output FIFO. -/
structure DmaState where
  chans : List DmaCh := List.replicate 32 {}
  rr : List (Nat × Nat) := []
  fifo : List (List Nat) := []
  deriving DecidableEq, Repr


/-! ## The Borilaond sequencer (R324 to R374) -/

/-- The system registers of R337, with the captures of R338. EPC and ESTAT hold levels 0 to 3, then X; `cycle` is the cycle count at slot
`cycleFrom`. -/
structure SysRegs where
  ie : Bool := false
  lvl : Nat := 0
  vbase : Word := 0
  causeCode : Nat := 0
  causeInfo : Nat := 0
  badaddr : Word := 0
  epc : Vector Word 5 := Vector.replicate 5 0
  estat : Vector Nat 5 := Vector.replicate 5 0
  irqEn : BitVec 64 := 0
  irqLvl : BitVec 128 := 0
  swi : BitVec 8 := 0
  cycle : Nat := 0
  cycleFrom : Nat := 0
  cycleCap : BitVec 64 := 0
  tickCap : BitVec 64 := 0
  tcmp : BitVec 64 := 0
  tcEn : Bool := false
  tcPend : Bool := false
  fenced : Bool := false
  multi : Bool := false
  deriving DecidableEq, Repr

/-- One store of the store buffer (R363): the core's address, the 40-bit address, size in bytes, data, and the slot from which it is the
head. -/
structure StoreEntry where
  raw : Nat
  addr : Addr
  size : Nat
  data : Nat
  head : Nat
  deriving DecidableEq, Repr

/-- An outstanding load (R357): its instruction, the core's address, the 40-bit address, size, sign extension, destination, the lines
awaited with their bytes once they came, and whether the data was uncorrectable or fenced. -/
structure LoadOut where
  pc : Word
  raw : Nat
  addr : Addr
  size : Nat
  signed : Bool
  d : Fin 16
  lines : List (Addr × Option (List Nat))
  bad : Bool
  fenced : Bool
  deriving DecidableEq, Repr

/-- The 512-byte group buffer (R368): Boulevard channel, group, contents by line, lines that came uncorrectable or fenced, whether dirty,
whether its write-back has been asked for, and the slot from which it is resident. -/
structure GroupBuf where
  ch : Nat
  group : Nat
  data : List (List Nat)
  bad : List Nat
  fenced : List Nat
  dirty : Bool
  flushing : Bool
  from_ : Nat
  deriving DecidableEq, Repr

/-- One XIP line buffer (R369): window, flash address of the line, contents, and the use count that ranks it. -/
structure XipLine where
  window : Nat
  addr : Addr
  data : List Nat
  used : Nat
  deriving DecidableEq, Repr

/-- An XIP line read (R369): window, address space line, flash address, and the slot in which it ends once started. -/
structure XipRead where
  window : Nat
  line : Addr
  flash : Addr
  ends : Option Nat
  deriving DecidableEq, Repr

/-- The core beside its memory-mapped registers. `busyUntil` is the slot from which the next instruction may issue, `ready` the slots from
which registers may be read (R358), `boundary` the slot of the next interrupt boundary (R372), `div` a running division: its address, its d
and the value of d before it (R366). `port` gives for ITCM (0) and DTCM (1) the first cycle in which its port is free, and (2) the cycle
after the last ITCM fetch (R361). `storeErr` is a refused store: address and whether protected (R347). -/
structure SeqState where
  g : Vector Word 16 := Vector.replicate 16 0
  pc : Word := 0
  sys : SysRegs := {}
  storeErr : Option (Nat × Bool) := none
  buffer : List StoreEntry := []
  load : Option LoadOut := none
  group : Option GroupBuf := none
  groupWant : Option (Nat × Nat) := none
  xip : List XipLine := []
  xipMiss : Option XipRead := none
  xipUse : Nat := 0
  busyUntil : Nat := 0
  ready : List (Nat × Nat) := []
  boundary : Nat := 0
  div : Option (Word × Fin 16 × Word) := none
  abortAt : Option Nat := none
  released : Bool := false
  waitLogged : Bool := false
  port : List (Nat × Nat) := []
  deriving DecidableEq, Repr

/-! ## Serial ports (R375 to R404) -/

/-- A command-queue entry: control word and data (R379). -/
structure SpEntry where
  word : Nat
  data : Nat
  deriving DecidableEq, Repr

/-- One command-driven port (SP0 or SP2): its queues, the entry that runs with the slot in which it ends (0 in slave role), the code of the
asserted select (in slave role 0, and 1 once the select is expected to rise), the SPn_CFG word in effect, the slot from which the
select may be asserted again (R381), the select code that decoded selects drive (R382), and the slot of the last port abort (R402). -/
structure SpPort where
  queue : List SpEntry := []
  rx : List Nat := []
  cur : Option (SpEntry × Nat) := none
  sel : Option Nat := none
  cfg : Nat := 0
  idleUntil : Nat := 0
  code : Nat := 0
  abortAt : Option Nat := none
  deriving DecidableEq, Repr

/-- The serial ports, the slot of the last SP1 transaction (R96), the slot of the last port abort of SP1 (R402), and the bytes that the last
read phase drove (R398). -/
structure SpState where
  p0 : SpPort := {}
  p2 : SpPort := {}
  sp1Clock : Nat := 0
  sp1Abort : Option Nat := none
  sp1Out : List Nat := []
  deriving DecidableEq, Repr


/-! ## Host frames (R396 to R421) -/

/-- A frame as the port passes it on (R405): its type, class, flags, ALIVE, length, address, payload words and CRC. -/
structure Frame where
  type : Nat
  cls : Nat
  flags : Nat
  alive : Nat
  len : Nat
  addr : Nat
  payload : List Nat
  crc : Nat
  deriving DecidableEq, Repr

/-- A reply (R407), without its CRC, which is computed from the rest when the reply is sent. -/
structure Reply where
  status : Nat := 0
  alive : Nat := 0
  kind : Nat := 0
  result : Nat := 0
  errIdx : Nat := 0
  payload : List Nat := []
  deriving DecidableEq, Repr

/-- An executed frame that has not completed (R414): the frame, whether its work is done, the payload of its reply so far, the
first failure, whether its reply is to be discarded, its number, how many words or lines are done, and how many lines a begun BULK takes. -/
structure InFlight where
  frame : Frame
  done : Bool
  payload : List Nat
  result : Nat
  errIdx : Nat
  discard : Bool
  serial : Nat
  next : Nat := 0
  lines : Option Nat := none
  deriving DecidableEq, Repr

/-- The host-frames engine: the last executed frame (ALIVE and CRC), the stored and the current reply, the frame that the current reply
answers while it is PENDING, frames in flight by arrival, the flags of the previous transaction's frame (1 bad, 2 duplicate, 4 gap), the
number of the last executed frame, the frame whose register write runs, whether a bad frame and a gap have been logged since HFR_CNT was
read, the frame that uses the DMA channel or the boot plan's claims, the reply that the last read phase sent, and the slot in which a BULK last
took a line (R417). -/
structure HfrState where
  last : Option (Nat × Nat) := none
  stored : Reply := {}
  current : Reply := {}
  currentOf : Option Nat := none
  flight : List InFlight := []
  prev : Nat := 0
  serial : Nat := 0
  running : Option Nat := none
  badLogged : Bool := false
  gapLogged : Bool := false
  dmaFrame : Option Nat := none
  sent : Reply := {}
  bulkSlot : Option Nat := none
  deriving DecidableEq, Repr

/-! ## Display (R422 to R439) -/

/-- A panel init entry (R78): delay in ms and the command bytes. -/
structure InitEntry where
  delay : Nat
  bytes : List Nat
  deriving DecidableEq, Repr

/-- Scan-out: `applied` the staged fields in effect and `pending` those of an accepted APPLY with its slot (R427). A frame's start and the
next one's are in N-ths of a slot, N being the applied one (R425); `line` is the next line to send. `fetched` holds the 64-byte lines
that have arrived: display line, address, slot, bytes. `initNext` is the next init entry and its slot, `initEnd` the slot in which the list
ended (R436); `cmd` a pending panel command with the slot of its write (R437). `lastHead` and `lastLine` are the last line sent, `sent` the
last command sent with its packet code; `sync` is the sync event of the last line and `eotp` whether EoTp ended its burst (R432, R433). `asked` says
that an APPLY is to be judged in the next slot (R427), and `cmps` holds the writes of DSP_LINECMP since the last line, each with its slot and
the value before it (R438). -/
structure DspState where
  applied : List (Nat × Nat) := []
  pending : Option (List (Nat × Nat) × Nat) := none
  frameStart : Nat := 0
  nextStart : Nat := 0
  line : Nat := 0
  inFrame : Bool := false
  firstDue : Option Nat := none
  teWait : Bool := false
  curPos : Nat × Nat := (0, 0)
  fetched : List (Nat × Addr × Nat × List Nat) := []
  lateLogged : Bool := false
  teLogged : Bool := false
  initList : List InitEntry := []
  initNext : Option (Nat × Nat) := none
  initEnd : Option Nat := none
  ackDue : Option Nat := none
  cmd : Option (List Nat × Nat) := none
  sent : List Nat := []
  lastHead : List Nat := []
  lastLine : List Nat := []
  sync : Option Nat := none
  eotp : Bool := false
  asked : Bool := false
  cmps : List (Nat × Nat) := []
  deriving DecidableEq, Repr

/-! ## Line side (R440 to R463) -/

/-- A stimulus table (R79). -/
structure StimTable where
  id : Nat
  kind : Nat
  data : List Nat
  deriving DecidableEq, Repr

/-- A stimulus pulse: its leading and trailing edge in eighths of a tick of the unstepped count, FINE in ps, and the amplitude of a TDR step
in mV (R443, R446). -/
structure Pulse where
  rise : Int
  fall : Int
  fine : Nat
  level : Nat
  deriving DecidableEq, Repr

/-- Stimulus, kerb check, audio and speaker bridge beside their registers. `settings` holds the stimulus settings in effect, `seenGen` the
applied generation they were taken from and `commitSlot` the slot of the last commit (R442); `launches` counts launches since a setting
applied (R444). `samples` are the latest 100 of LINE_SNS, newest first; `replaced` says that the self-check takes the place of the next one
(R450). `recent` holds CH3's latest beats and the four sums the quiet mean's parts: over the millisecond and over the windows before
launches, `quietDue` the launches whose window is still to be summed (R449). `ampEn`, `toneEn`, `toneLvl`, `vol` and `ampRetry` are the
settings that the last audio tick applied (R459); `ampDue`, `softAt` and `playAt` time the bridge (R461), and `tripAt` is the slot of its
last trip with whether that counted as a failed retry. -/
structure LineSideState where
  tables : List StimTable := []
  settings : List (Nat × Nat) := []
  commitSlot : Nat := 0
  seenGen : Nat := 0
  launches : Nat := 0
  tdrPulse : Option Pulse := none
  lasPulse : Option Pulse := none
  samples : List Int := []
  replaced : Bool := false
  judged : Nat := 0
  recent : List (Nat × List Int) := []
  msSum : Int := 0
  msCount : Nat := 0
  quietDue : List Int := []
  quietSum : Int := 0
  quietCount : Nat := 0
  selfPass : Nat := 0
  unlockedAt : Option Nat := none
  toneFifo : List Nat := []
  spkFifo : List Nat := []
  tonePos : Nat := 0
  spkPos : Nat := 0
  toneLast : Nat := 0
  spkLast : Nat := 0
  popped : Bool := false
  slipLogged : Bool := false
  toneEn : Bool := false
  toneLvl : Nat := 0
  vol : Nat := 12
  ampEn : Bool := false
  ampRetry : Nat := 8
  ticks : Nat := 0
  ampDue : Nat := 0
  softAt : Nat := 0
  playAt : Nat := 0
  retry : Bool := false
  tripAt : Option (Nat × Bool) := none
  vdda18Lost : Bool := false
  deriving DecidableEq, Repr


/-! ## The Erost link (R464 to R488) -/

/-- A beacon (R472). -/
structure Beacon where
  id : Nat
  master : Nat
  hops : Nat
  upstream : Nat
  conflict : Bool
  deriving DecidableEq, Repr

/-- A VC0 message (R478): KIND, HOP, LSLOT, bytes 2 to 5 and bytes 6 to 7. -/
structure Timing where
  kind : Nat
  hop : Nat
  lslot : Nat
  tick : Nat
  frac : Nat
  deriving DecidableEq, Repr

/-- A packet of VC1 to VC3 (R468). -/
structure Packet where
  vc : Nat
  seq : Nat
  addr : Nat
  tag : Nat
  status : Nat
  data : List Nat
  /-- The slot of its receipt. -/
  since : Nat := 0
  deriving DecidableEq, Repr

/-- A window that other units may reach (R80, R482). -/
structure Window where
  base : Nat
  length : Nat
  perm : Nat
  ports : Nat
  rate : Nat
  opened : Bool
  deriving DecidableEq, Repr

/-- A read request of a DMA channel that awaits its completion (R486). -/
structure RemoteRead where
  tag : Nat
  chan : Nat
  since : Nat
  deriving DecidableEq, Repr

/-- One Erost port: training and retry (R465), the partner's last beacon with its slot, the last beacon sent with its slot (R472), VC0
messages launched and the quarter slot from which the lane is free (R479), the transmit queue (posted writes and completions), the read
requests to send, the quarter slot from which the link is free, the replay buffer and the slot of the last send (R469), sequence
numbers and credits by VC, accepted packets that wait in the receive buffer (R485), accepted reads that await their data
(R484), outgoing reads (R486), the requests each window admitted in an interval, the launch time of the last TREQ in 1/256 ticks (R475), and
the last acknowledge and NAK sent by VC. -/
structure ErlPort where
  trainFrom : Nat := 0
  retryAt : Option Nat := none
  trainLogged : Bool := false
  partner : Nat := 0
  beacon : Option (Beacon × Nat) := none
  sentBeacon : Option (Beacon × Nat) := none
  vc0 : List Timing := []
  vc0Free : Nat := 0
  vc0Logged : Bool := false
  refusedLogged : Bool := false
  tx : List Packet := []
  reqs : List Packet := []
  txFree : Nat := 0
  replay : List Packet := []
  sentAt : Nat := 0
  nextSeq : List (Nat × Nat) := []
  expect : List (Nat × Nat) := []
  credits : List (Nat × Nat) := []
  waiting : List Packet := []
  held : List Packet := []
  reads : List RemoteRead := []
  nextTag : Nat := 0
  admitted : List (Nat × Nat) := []
  rateFrom : Nat := 0
  treq : Option Int := none
  acks : List (Nat × Nat) := []
  naks : List (Nat × Nat) := []
  deriving DecidableEq, Repr

/-- The Erost link beside its registers: ports, windows, the last 16 offsets (twice θ in 1/256 tick), the exchanges in a row within
2 ps (R476), START and STOP to come with their ticks (R480), and the master and upstream port last chosen. -/
structure ErlState where
  portA : ErlPort := {}
  portB : ErlPort := {}
  windows : List Window := []
  thetas : List Int := []
  good : Nat := 0
  armAt : List (Nat × Bool) := []
  lastMaster : Option Nat := none
  lastUpstream : Option Nat := none
  deriving DecidableEq, Repr

/-! ## Clocks (R489 to R509) and power (R510 to R527) -/

/-- A scheduled step of the tick count (R491): what it loads or adds, and whether PPS asked for it. -/
inductive TickStep where
  | load (tick : Nat)
  | add (ticks : Int) (pps : Bool)
  deriving DecidableEq, Repr

/-- Monitoring history of one reference (R498, R500): whether present, complete windows since it became present, consecutive
windows neither BAD nor LOST and consecutive GOOD windows (both up to 10), and the edges of its last complete windows, newest first. -/
structure RefMon where
  present : Bool := false
  windows : Nat := 0
  clean : Nat := 10
  good : Nat := 0
  edges : List Nat := []
  deriving DecidableEq, Repr

/-- The clock block beside its registers: the references by index, steps of the tick count to come with the slot that asked for each,
switch instants in fraction LSBs of the unstepped count (R504), accepted PPS edges in 1/64 tick, newest first, whether a rejected edge
has been logged since the counter was read, the slot from which LOCK counts again (R490), the slot before which a glide cannot end
(R503), the glide under way as its signed length in slots from its switch, the frequency that holdover freezes as a fraction of the nominal
(R505), the crystal's edges of the last windows, and the tick from which windows run (R498). -/
structure ClkState where
  refs : List RefMon := [{ present := true }, { present := true }, {}, {}, {}]
  step : List (Nat × TickStep) := []
  switches : List Int := []
  ppsEdges : List Int := []
  ppsLogged : Bool := false
  relockFrom : Nat := 0
  glideUntil : Nat := 0
  glide : Int := 0
  held : Option (Nat × Nat) := none
  xtal : List Nat := []
  windowFrom : Int := 0
  deriving DecidableEq, Repr

/-- An exit under way: the rung left, whether it leads to IDLE whatever demands hold (R522), and its slot (R518). -/
structure PwrExit where
  from_ : Nat
  idle : Bool
  since : Nat
  deriving DecidableEq, Repr

/-- The power ladder beside its registers: the rung of an entry under way (R517), the exit under way, the level of PWR_GOOD and whether
its lateness has been logged (R521), evaluations with a margin in a row and the slot of the last one (R524, R526), whether the sequencer
and the fabric are stopped, and the ABSENT_POLICY rung that waits for records in flight: 2 IDLE, 3 DOZE (R96). -/
structure PwrState where
  entry : Option Nat := none
  exit : Option PwrExit := none
  good : Bool := false
  lateLogged : Bool := false
  okEvals : Nat := 0
  lastEval : Option Nat := none
  seqStopped : Bool := false
  fabricStopped : Bool := false
  policy : Option Nat := none
  deriving DecidableEq, Repr

/-- The test access port (R572, R573): the code of the instruction in force (IDCODE after TAP reset, 15 for BYPASS), and the DATA and DONE of
REGACC's data register. -/
structure JtagState where
  instruction : Nat := 2
  data : Nat := 0
  done : Bool := false
  deriving DecidableEq, Repr

/-! ## The whole machine -/

/-- The block and its queue of waiting commands.

`now` counts slots: before the tick count starts it counts from reset release, from then on from tick 0 (`tickOn`), and it
never steps. The tick count is `4 * now + tickAdj` once it runs (R491). `regs` holds every register field of R548 that
differs from its reset value, for Kept fields the staging copy; `committed` is what the last generation commit took, and
`applied` what the acquisition runs on (R211, R212). `mem` holds ITCM, DTCM, the Square and the Boulevard by 40-bit address. `freeCtr`
is the model's own: it counts the free values drawn. -/
structure State where
  now : Nat
  tickOn : Bool
  tickAdj : Int
  regs : List (Nat × Nat)
  committed : List (Nat × Nat)
  applied : List (Nat × Nat)
  mem : List Host.Cell
  plan : PlanState
  boot : BootState
  log : LogState
  evt : EvtState
  abort : AbortState
  ave : AveState
  trg : TrgState
  record : RecState
  red : RedState
  memory : MemState
  dma : DmaState
  seq : SeqState
  sp : SpState
  hfr : HfrState
  dsp : DspState
  line : LineSideState
  erl : ErlState
  clk : ClkState
  pwr : PwrState
  jtag : JtagState
  freeCtr : Nat
  pending : List Instr
  deriving DecidableEq, Repr

/-- Why a step stops with a fault. No meaning of this model raises one: the spec gives every command an effect. -/
inductive Fault where
  /-- Raised by nobody. Safe. -/
  | none
  deriving DecidableEq, Repr

/-- Why a step is refused. -/
inductive Refusal where
  /-- Raised by an arm of exec that has no meaning yet. Safe. -/
  | notModelled (mnemonic : String)
  deriving DecidableEq, Repr



/-- The machine right after the power-on reset of R63, before RESET_RELEASE: every register field at its reset value (an empty list: each is
listed only while it differs), nothing in memory, no plan running, and no command waiting. -/
def State.reset : State where
  now := 0
  tickOn := false
  tickAdj := 0
  regs := []
  committed := []
  applied := []
  mem := []
  plan := {}
  boot := {}
  log := {}
  evt := {}
  abort := {}
  ave := {}
  trg := {}
  record := {}
  red := {}
  memory := {}
  dma := {}
  seq := {}
  sp := {}
  hfr := {}
  dsp := {}
  line := {}
  erl := {}
  clk := {}
  pwr := {}
  jtag := {}
  freeCtr := 0
  pending := []

end Sys2Proof.Machine
end

