-- ==== Sys2Proof/Machine/Ops.lean ====
section
/-! DEFINITION. The shared operations over the state: register fields, time, faults (R528 to R534, R580), events and stops (R309 to
R316), memory bytes and lines (R255 to R258). -/

namespace Sys2Proof.Machine

/-! ## Plain helpers -/

/-- Bits `lo .. lo + n - 1` of a number. -/
def bits (v lo n : Nat) : Nat := v / 2 ^ lo % 2 ^ n

/-- One bit of a number. -/
def bit (v i : Nat) : Bool := v / 2 ^ i % 2 == 1

/-- A Bool as a bit. -/
def b2n (b : Bool) : Nat := if b then 1 else 0

/-- The little-endian bytes of a number. -/
def leBytes : Nat → Nat → List Nat
  | 0, _ => []
  | n + 1, v => v % 256 :: leBytes n (v / 256)

/-- The number that little-endian bytes hold. -/
def ofLe : List Nat → Nat
  | [] => 0
  | b :: bs => b % 256 + 256 * ofLe bs

/-- Two's complement reading of the low `n` bits. -/
def signed (n v : Nat) : Int :=
  let u := v % 2 ^ n
  if n ≠ 0 ∧ 2 ^ (n - 1) ≤ u then (u : Int) - 2 ^ n else u

/-- The low `n` bits of an integer, as a number. -/
def toBits (n : Nat) (v : Int) : Nat := (v % (2 ^ n : Int)).toNat

/-- Clips an integer to a closed range. -/
def clip (lo hi v : Int) : Int := if v < lo then lo else if hi < v then hi else v

/-- Division rounded up. -/
def ceilDiv (a b : Nat) : Nat := (a + b - 1) / b

/-- The entry listed at a place, or a stand-in. -/
def nth {α : Type} (l : List α) (i : Nat) (d : α) : α := l.getD i d

/-- Replaces the entry at a place by its image. -/
def modifyNth {α : Type} (f : α → α) : Nat → List α → List α
  | _, [] => []
  | 0, x :: xs => f x :: xs
  | i + 1, x :: xs => x :: modifyNth f i xs

/-- A slice of a list of bytes. -/
def slice (l : List Nat) (ofs n : Nat) : List Nat := (l.drop ofs).take n

/-- The first place at which a test holds. -/
def findIdx? {α : Type} (p : α → Bool) : List α → Option Nat
  | [] => none
  | x :: xs => if p x then some 0 else (findIdx? p xs).map (· + 1)

/-- Takes out the first entry that a test accepts. -/
def takeFirst {α : Type} (p : α → Bool) : List α → Option (α × List α)
  | [] => none
  | x :: xs => if p x then some (x, xs) else (takeFirst p xs).map (fun r => (r.1, x :: r.2))

/-- The value under a key of a plain association list, or a stand-in. -/
def look (l : List (Nat × Nat)) (k d : Nat) : Nat := ((l.find? (fun p => p.1 == k)).map (·.2)).getD d

/-- Puts a value under a key of a plain association list. -/
def put (l : List (Nat × Nat)) (k v : Nat) : List (Nat × Nat) := (k, v) :: l.filter (fun p => p.1 != k)

/-! ## Register fields (R14, R575) -/

/-- The value a list of field values gives a field: the listed one, or the reset value. -/
def regGet (F : Fld) (m : List (Nat × Nat)) : Nat := (sparseFind F.key m).getD F.reset

/-- Sets a field in a list of field values; a value equal to the reset value is not listed. -/
def regSet (F : Fld) (v : Nat) (m : List (Nat × Nat)) : List (Nat × Nat) :=
  if v % 2 ^ F.width = F.reset then sparseErase F.key m else sparseInsert F.key (v % 2 ^ F.width) m

/-- A register field as it stands: for a Kept field, its staging copy (R211). DEDUCED: log entry 31. -/
def get (F : Fld) (s : State) : Nat := regGet F s.regs

/-- Sets a register field. -/
def set (F : Fld) (v : Nat) (s : State) : State := { s with regs := regSet F v s.regs }

/-- A Kept field as the last generation commit took it (R211). -/
def com (F : Fld) (s : State) : Nat := regGet F s.committed

/-- A Kept field as the acquisition runs on it (R212). -/
def app (F : Fld) (s : State) : Nat := regGet F s.applied

/-- Whether a one-bit field is set. -/
def on (F : Fld) (s : State) : Bool := get F s == 1

/-- Sets a one-bit field from a Bool. -/
def setB (F : Fld) (b : Bool) (s : State) : State := set F (b2n b) s

/-- Counts one more in a saturating counter field. -/
def bump (F : Fld) (s : State) : State := set F (if get F s + 1 < 2 ^ F.width then get F s + 1 else 2 ^ F.width - 1) s

/-- Counts one more in a counter field that wraps. -/
def count (F : Fld) (s : State) : State := set F (get F s + 1) s

/-! ## Time (R3, R491) and free values -/

/-- The tick count at the start of the present slot (R3, R491). -/
def tick (s : State) : Nat := if s.tickOn then (4 * (s.now : Int) + s.tickAdj).toNat else 0

/-- The present time in fraction LSBs of the unstepped tick count. -/
def nowLsb (s : State) : Int := (s.now : Int) * 4 * 65536

/-- The slot within the plan period (R3, R61). -/
def slotOf (s : State) : Nat := if s.tickOn then s.now % 4096 else 0

/-- The device beat of the present slot: a beat is two slots (R3). -/
def beatNow (s : State) : Nat := s.now / 2

/-- The first plan-period boundary that lies at least `k` slots after the present slot (R50). -/
def boundaryAfter (s : State) (k : Nat) : Nat := (s.now + k + 4095) / 4096 * 4096

/-- Draws a free value and advances the counter of draws. -/
def draw (s : State) : Nat × State := (Config.freeNat s.freeCtr, { s with freeCtr := s.freeCtr + 1 })

/-- A quotient whose rounding the spec does not state: of the two whole numbers beside it, one by a free value. -/
def roundFree (num : Int) (den : Nat) (s : State) : Int × State :=
  if num % (den : Int) = 0 then (num / den, s)
  else
    let f := draw s
    (num / den + (f.1 % 2 : Nat), f.2)

/-! ## Faults (R528 to R534, R580) -/

/-- The class of a fault code by the table of R533: 0 I, 1 R, 2 G, 3 S, 4 M, 5 D. -/
def faultClass (code : Nat) : Nat :=
  if code ∈ [0x0113, 0x0206, 0x0207, 0x0405, 0x0601, 0x0603, 0x0901, 0x0903, 0x0A03, 0x0B01, 0x0B02, 0x0C04, 0x0D03, 0x1102] then 0
  else if code ∈ [0x0109, 0x0110, 0x0403, 0x0605, 0x0606, 0x0704, 0x0802, 0x0A01, 0x0A05, 0x0C01, 0x0C06, 0x0D04, 0x0E07, 0x0E08,
    0x1003] then 1
  else if code ∈ [0x0104, 0x0208, 0x0301, 0x0302, 0x0501, 0x0504, 0x0505, 0x0608, 0x0701, 0x0702, 0x0902, 0x0904, 0x0A02, 0x0D01,
    0x0D02, 0x0D05, 0x0D07, 0x0D08, 0x0E01, 0x0E02, 0x0E03, 0x0E06, 0x0E0A, 0x0E0B] then 3
  else if code ∈ [0x0111, 0x0201, 0x0203, 0x0401, 0x0402, 0x0502, 0x0503, 0x0602, 0x0604, 0x0E05, 0x0F03, 0x0F06, 0x0F07] then 4
  else if code ∈ [0x0112, 0x0F05, 0x1002, 0x1005, 0x1101] then 5
  else 2

/-- Whether an entry of the same slot comes before another: by CODE, then UNIT (R529). -/
def logBefore (a b : LogEntry) : Bool := a.code < b.code || (a.code == b.code && a.unit < b.unit)

/-- Puts an entry, given with the next ESEQ, among the waiting ones: before those of its own slot that follow it by CODE and UNIT, which
move one ESEQ on (R529). -/
def insertEntry (e : LogEntry) (l : List LogEntry) : List LogEntry :=
  let same := fun (x : LogEntry) => !x.prior && x.time == e.time && 0 < e.time && logBefore e x
  let moved := (l.filter same).length
  if moved = 0 then l ++ [e]
  else
    let old := l.filter (fun x => !(same x))
    let late := l.filter same
    old ++ [{ e with eseq := (e.eseq + 2 ^ 32 - moved) % 2 ^ 32 }] ++ late.map (fun x => { x with eseq := (x.eseq + 1) % 2 ^ 32 })

/-- An entry takes its ESEQ and a place in the hold, or is dropped and counted in LOST (R529, R530). -/
def holdEntry (e : LogEntry) (s : State) : State :=
  let e' := { e with eseq := get LOG_ESEQ.NEXT s, time := tick s }
  let s := count LOG_ESEQ.NEXT s
  if s.log.hold.length < 16 then { s with log.hold := insertEntry e' s.log.hold } else bump LOG_STAT.LOST s

/-- A fault is detected: it is logged with its unit and details; before the tick count starts it is held (R580). -/
def fault (code unit d0 d1 : Nat) (s : State) : State :=
  let e : LogEntry := { code := code, unit := unit % 256, cls := faultClass code, prior := false, eseq := 0, time := 0,
                        d0 := d0 % 2 ^ 32, d1 := d1 % 2 ^ 32 }
  if s.tickOn then holdEntry e s else { s with log.early := s.log.early ++ [e] }

/-- A fault whose details hold an address (R533). -/
def faultAddr (code unit addr : Nat) (s : State) : State := fault code unit addr (bits addr 32 8 * 256) s

/-! ## Events and stops (R309 to R316) -/

/-- Events of a source raised in the present slot. -/
def raisedNow (src : Nat) (s : State) : Nat := (s.evt.raised.filter (fun e => e.1 == s.now && e.2 == src)).length

/-- The lines that carry a source by the SRC values in effect (R309). -/
def carriers (src : Nat) (s : State) : List Nat :=
  (List.range 64).filter (fun n => get (EVT_LINE_SRC.SRC n) s == src)

/-- Raises an event of a source in the present slot: one event for each source and slot, up to 3 of REC_COMMIT (R310, R312). -/
def raise (src : Nat) (s : State) : State :=
  if raisedNow src s < (if src = 0x08 then 3 else 1) then
    { s with evt.raised := s.evt.raised ++ [(s.now, src)],
             evt.lines := s.evt.lines ++ (carriers src s).map (fun n => (s.now, n)) }
  else s

/-- Whether a stop's task has run in the present slot. -/
def hasRun (stop : Nat) (s : State) : Bool := s.evt.ran.contains (s.now, stop)

/-- Whether a stop's task may run in the present slot: COUNT, which stands as the previous slot left it, is not zero and the task has not run
in this slot (R314). -/
def canRun (stop : Nat) (s : State) : Bool := 0 < get (EVT_STOP_CNT.COUNT stop) s && !(hasRun stop s)

/-- A task runs: it uses one count of its stop in this slot (R314). -/
def consume (stop : Nat) (s : State) : State :=
  { s with evt.ran := (s.now, stop) :: s.evt.ran.filter (fun e => e.1 == s.now) }

/-- Events arrive at a stop in the present slot (R313). -/
def arrive (stop n : Nat) (s : State) : State :=
  { s with evt.fresh := put s.evt.fresh stop (look s.evt.fresh stop 0 + n) }

/-- The evaluation of a stop's counter for the slot (R314): the arrivals are added and a task's count is used; of the result, what exceeds 15
is lost, and the first overrun since the last clear is logged. -/
def evalStop (stop : Nat) (s : State) : State :=
  let c := get (EVT_STOP_CNT.COUNT stop) s + look s.evt.fresh stop 0 - b2n (hasRun stop s)
  if c ≤ 15 then set (EVT_STOP_CNT.COUNT stop) c s
  else
    let s' := set (EVT_STOP_CNT.COUNT stop) 15 s
    if on (EVT_STOP_CNT.OVERRUN stop) s then s'
    else fault 0x0801 stop 0 0 (set (EVT_STOP_CNT.OVERRUN stop) 1 s')

/-! ## Memory bytes and lines (R255 to R258) -/

/-- Square base address (R255). -/
abbrev sqBase : Addr := 0x60000000

/-- Boulevard base address of the 40-bit masters (R255). -/
abbrev blvBase : Addr := 0x100000000

/-- How often the Boulevard has lost its contents, and how often the download area has since the Square was zeroed. -/
abbrev Losses := Nat × Nat

/-- What a byte reads as that nothing has written: 0 in ITCM, DTCM and the Square (R262), a free value in the download area after a boot
from it (R69) and in the Boulevard (R274). -/
def unlisted (loss : Losses) (a : Addr) : Byte :=
  if a < blvBase then (if 0 < loss.2 ∧ sqBase ≤ a ∧ a < sqBase + 0x1000000 then Config.downloadByte loss.2 a else 0)
  else Config.boulevardByte loss.1 a

/-- The byte a memory holds at an address. -/
def memGet (loss : Losses) (a : Addr) (m : List Host.Cell) : Byte := (sparseFind a m).getD (unlisted loss a)

/-- A memory with one byte written: a byte equal to the unlisted value takes no entry. DESIGN CHOICE: log entry 26. -/
def memSet (loss : Losses) (a : Addr) (v : Byte) (m : List Host.Cell) : List Host.Cell :=
  if v = unlisted loss a then sparseErase a m else sparseInsert a v m

/-- The canonical form of a memory: addresses strictly rising, no entry equal to what an unlisted address reads as. -/
def Memory.wf (loss : Losses) (m : List Host.Cell) : Bool :=
  sparseRising 0 m && m.all (fun c => c.2 != unlisted loss c.1)

/-- The losses so far. -/
def lossOf (s : State) : Losses := (s.memory.blvLoss, s.memory.areaLoss)

/-- One byte of memory. -/
def readByte (a : Addr) (s : State) : Byte := memGet (lossOf s) a s.mem

/-- Writes one byte of memory. -/
def writeByte (a : Addr) (v : Byte) (s : State) : State := { s with mem := memSet (lossOf s) a v s.mem }

/-- Bytes of memory from an address up. -/
def readBytes (a : Addr) (n : Nat) (s : State) : List Nat := (List.range n).map (fun i => (readByte (a + i) s).toNat)

/-- Writes bytes from an address up. -/
def writeBytes (a : Addr) : List Nat → State → State
  | [], s => s
  | b :: bs, s => writeBytes (a + 1) bs (writeByte a (BitVec.ofNat 8 b) s)

/-- Writes the bytes of a line whose enables are set. -/
def writeMasked (a : Addr) : List Nat → List Bool → State → State
  | b :: bs, e :: es, s => writeMasked (a + 1) bs es (if e then writeByte a (BitVec.ofNat 8 b) s else s)
  | _, _, s => s

/-- The line of an address. -/
def lineOf (a : Addr) : Addr := a / 64 * 64

/-- The Square bank of an address (R258). -/
def bankOf (a : Addr) : Nat := a / 64 % 64

/-- Whether an address lies in the Square (R255). -/
def inSquare (a : Addr) : Bool := sqBase ≤ a && a < sqBase + 0x2000000

/-- The capacity of the Boulevard in bytes, by DENSITY on both channels (R280). -/
def blvCapacity (s : State) : Nat :=
  match get BLV_STAT.DENSITY s with
  | 0 => 0
  | d => 2 * 2 ^ (29 + d)

/-- Whether a 40-bit address lies in the Boulevard's data space (R267). -/
def inBlv (a : Addr) (s : State) : Bool := blvBase ≤ a && a < blvBase + blvCapacity s / 8 * 7

/-- The Boulevard channel of an address (R267). -/
def blvCh (a : Addr) : Nat := (a - blvBase) / 64 % 2

/-- The channel offset of a Boulevard address (R267). -/
def blvOfs (a : Addr) : Nat := (a - blvBase) / 128 * 64 + a % 64

/-- The page of a Boulevard address (R267). -/
def blvPage (a : Addr) : Nat := blvOfs a / 4096

/-- The check group of a Boulevard address (R268). -/
def blvGroup (a : Addr) : Nat := blvOfs a / 512

/-- The address at a channel offset: the inverse of R267. -/
def blvAddr (c ofs : Nat) : Addr := blvBase + ofs / 64 * 128 + c * 64 + ofs % 64

/-- The data bank of a page (R267). -/
def blvBank (page : Nat) : Nat := page % 14

end Sys2Proof.Machine
end

