-- ==== Sys2Proof/Machine/Crc.lean ====
section
/-! DEFINITION. CRC-32C (Castagnoli), as every checksum of the spec named so uses it: reflected polynomial 0x82F63B78, initial value and
final XOR 0xFFFFFFFF. -/

namespace Sys2Proof.Machine

/-- One bit step of the reflected division. -/
def crcStep (poly : Nat) : Nat → Nat → Nat
  | 0, r => r
  | n + 1, r => crcStep poly n (if r % 2 = 1 then (r / 2) ^^^ poly else r / 2)

/-- The running remainder over a list of bytes. -/
def crcBytes : Nat → List Nat → Nat
  | r, [] => r
  | r, b :: bs => crcBytes (crcStep 0x82F63B78 8 (r ^^^ (b % 256))) bs

/-- CRC-32C of a list of bytes. -/
def crc32c (l : List Nat) : Nat := crcBytes 0xFFFFFFFF l ^^^ 0xFFFFFFFF

/-- A most-significant-bit-first CRC over bits, with its width, polynomial and initial value. -/
def crcBits (width poly : Nat) : Nat → List Bool → Nat
  | r, [] => r
  | r, b :: bs =>
    let top := bit r (width - 1)
    let r' := (r * 2) % 2 ^ width
    crcBits width poly (if top != b then r' ^^^ poly else r') bs

end Sys2Proof.Machine
end

