-- ==== Sys2Proof/Machine/Memory.lean ====
section
/-! DEFINITION. How an access reaches memory: SECDED errors (R262, R279), protected regions (R263, R264), fenced bytes (R209), unmapped
addresses (R257), and the pending accesses of the plan's clients (R259). -/

namespace Sys2Proof.Machine

/-! ## Where records and arrays lie -/

/-- The ring base of an ingest stream by a list of field values (R188). -/
def ringBase (i : Nat) (m : List (Nat × Nat)) : Addr :=
  regGet (REC_RING_BASE_LO.ADDR i) m * 64 + regGet (REC_RING_BASE_HI.ADDR i) m * 2 ^ 32

/-- The address of the header of a sequence number by the settings of its record (R200, R212). -/
def headerAddr (m : List (Nat × Nat)) (seq : Nat) : Addr :=
  sqBase + regGet REC_HDR_BASE.BASE m * 128 + seq % (regGet REC_HDR_ENTRIES.ENTRIES m + 1) * 128

/-- The address of a record's header. -/
def Rec.hdrAddr (r : Rec) : Addr := headerAddr r.gen.settings r.seq

/-- Whether a ring beat position belongs to the window of beats `first` to `last`, in a ring of `len` beats; beat numbers are
stream beat numbers (R188, R209). -/
def posInWindow (first last : Int) (pos len : Nat) : Bool :=
  0 < len && ((pos : Int) - first) % (len : Int) ≤ last - first

/-- The stream beat number of a beat. -/
def streamBeat (b : Int) (s : State) : Int := b - s.record.startBeat

/-- The beat of a window whose bytes of stream `i` lie at an address, in a ring of CONTINUOUS placement. -/
def RingWindow.beatAt (w : RingWindow) (i : Nat) (a : Addr) : Option Int :=
  let t := nth w.rings i {}
  if bit w.streams i && 0 < t.perBeat && t.base ≤ a && a < t.base + t.bytes then
    let pos := (a - t.base) / t.perBeat
    let len := t.bytes / t.perBeat
    let f := w.first - w.startBeat
    if posInWindow f (w.last - w.startBeat) pos len then some (w.first + ((pos : Int) - f) % (len : Int)) else none
  else none

/-- The bytes of an open record's window. -/
def Rec.window (r : Rec) (s : State) : RingWindow := ⟨r.first, r.last, r.gen.streams, r.gen.rings, s.record.startBeat⟩

/-- The bytes of a committed record's window. -/
def Past.window (r : Past) : RingWindow := ⟨r.first, r.last, r.streams, r.rings, r.startBeat⟩

/-- Whether the line at an address holds a part of a window kept in ring slot `pos` or in the ring (R188, R293). -/
def windowTouches (place pos length : Nat) (w : RingWindow) (line : Addr) : Bool :=
  (List.range 8).any (fun i => bit w.streams i &&
    (if place = 0 then
       let t := nth w.rings i {}
       let lo := t.base + pos * length * t.perBeat
       lo ≤ line + 63 && line < lo + length * t.perBeat
     else (List.range 64).any (fun k => (w.beatAt i (line + k)).isSome)))

/-- Whether the window or header of an open record holds a line. An armed record's window is the ring slot it writes. -/
def recTouches (r : Rec) (line : Addr) (s : State) : Bool :=
  windowTouches r.gen.place r.pos r.gen.length (r.window s) line ||
  (r.phase == .numbered && (line == r.hdrAddr || line == r.hdrAddr + 64))

/-- Whether the window or header of a committed record holds a line (R202). -/
def pastTouches (r : Past) (line : Addr) : Bool :=
  windowTouches r.place r.pos r.length r.window line || line == r.hdr || line == r.hdr + 64

/-- Sets a flag bit of R201 in the records that a test accepts; of one whose header is written already, the header is to be rewritten. -/
def flagRecs (n : Nat) (p : Rec → Bool) (s : State) : State :=
  let late := s.record.recs.filter (fun r => p r && r.phase == .numbered && !(bit r.hdr 0) && !(bit r.flags n))
  { s with record.recs := s.record.recs.map (fun r => if p r then { r with flags := r.flags ||| 2 ^ n } else r)
           memory.hdrFix := s.memory.hdrFix ++ late.map (fun r => (r.seq, r.hdrAddr, 2 ^ n)) }

/-- Marks every open record CORRUPT (R55). -/
def markOpen (s : State) : State := flagRecs 4 (fun _ => true) s

/-- Whether a line belongs to an array of an accumulation unit. -/
def arrayTouches (a : AuArray) (line : Addr) : Bool :=
  a.epoch.isSome && sqBase + a.base ≤ line && line < sqBase + a.base + 0x440 + 4 * a.points

/-- What an uncorrectable line does to the records and arrays that hold it (R202, R279). -/
def hitLine (line : Addr) (s : State) : State :=
  let s := flagRecs 4 (fun r => recTouches r line s) s
  { s with
    memory.hdrFix := s.memory.hdrFix ++ ((s.record.past.filter (fun r => pastTouches r line)).map (fun r => (r.seq, r.hdr, 16))).filter
      (fun q => !(s.memory.hdrFix.contains q))
    memory.badLines := line :: s.memory.badLines.filter (fun l => l != line)
    red.aus := s.red.aus.map (fun u => { u with arrays := u.arrays.map (fun a =>
      if arrayTouches a line then { a with flags := a.flags ||| 256 } else a) }) }

/-- Whether a record's window holds a line already found uncorrectable (R279). -/
def windowBad (r : Rec) (s : State) : Bool :=
  s.memory.badLines.any (fun l => windowTouches r.gen.place r.pos r.gen.length (r.window s) l)

/-! ## Fences (R209) -/

/-- The windows that fence bytes, each with the windows whose bytes it does not fence: a provisional record fences until the slot after its
commit or abandonment, but no byte of another ordinary, confirmed or committed record (DEDUCED, log entry 8). -/
def fences (s : State) : List (RingWindow × List RingWindow) :=
  let shown := fun (r : Rec) => r.phase != .armed && r.gen.place == 1 && (!r.prov || r.confirmed)
  let past := s.record.past.filter (fun p => p.place == 1)
  (s.record.recs.filter (fun r => r.prov)).map (fun r =>
    (r.window s, (s.record.recs.filter (fun x => x.id != r.id && shown x)).map (fun x => x.window s) ++ past.map Past.window)) ++
  (s.record.lifting.filter (fun l => l.1 == s.now)).map (fun l =>
    (l.2.2, (s.record.recs.filter shown).map (fun x => x.window s) ++ (past.filter (fun p => some p.seq != l.2.1)).map Past.window))

/-- Whether a byte of memory is fenced. -/
def byteFenced (a : Addr) (s : State) : Bool :=
  (fences s).any (fun f => (List.range 8).any (fun i =>
    match f.1.beatAt i a with
    | none => false
    | some b => !(f.2.any (fun v => v.beatAt i a == some b))))

/-- The places of a line's fenced bytes. Nothing is fenced while no provisional record is. -/
def fencePlaces (line : Addr) (s : State) : List Nat :=
  if (fences s).isEmpty then [] else (List.range 64).filter (fun i => byteFenced (line + i) s)

/-- A line as a fenced reader sees it: its fenced bytes read as zero. -/
def maskPlaces (data : List Nat) (places : List Nat) : List Nat :=
  if places.isEmpty then data else data.mapIdx (fun i b => if places.contains i then 0 else b)

/-! ## Errors in memory (R262, R277, R279) -/

/-- The upset of a 64-bit word, or of a 32-bit word of ITCM and DTCM: whether it is uncorrectable, and the bytes as they stand in the
array. -/
def upsetOf (w : Addr) (s : State) : Option (Bool × List Nat) :=
  (s.memory.upsets.find? (fun u => u.1 == w)).map (·.2)

/-- A word without upset. -/
def clearUpset (w : Addr) (s : State) : State :=
  { s with memory.upsets := s.memory.upsets.filter (fun u => u.1 != w) }

/-- A word with an upset. -/
def putUpset (w : Addr) (bad : Bool) (raw : List Nat) (s : State) : State :=
  { s with memory.upsets := (w, bad, raw) :: (clearUpset w s).memory.upsets }

/-- The words of a line in error, by number, with their upsets. -/
def lineUpsets (line : Addr) (s : State) : List (Nat × Bool × List Nat) :=
  (List.range 8).filterMap (fun i => (upsetOf (line + 8 * i) s).map (fun u => (i, u)))

/-- Counts and logs a correctable error (R262, R279: logged once per counter read). -/
def correctable (line : Addr) (s : State) : State :=
  if inSquare line then
    let s := set SQ_ECC_ADDR.UE 0 (set SQ_ECC_ADDR.LINE ((line - sqBase) / 64) (bump SQ_ECC.CE s))
    if s.memory.ceLogged then s else faultAddr 0x0601 0 line { s with memory.ceLogged := true }
  else
    let s := set BLV_ECC_ADDR_LO.ADDR (line / 64) (set BLV_ECC_ADDR_HI.ADDR (line / 2 ^ 32) (set BLV_ECC_ADDR_HI.UE 0 (bump BLV_ECC.CE s)))
    if s.memory.blvCeLogged then s else faultAddr 0x0603 0 line { s with memory.blvCeLogged := true }

/-- Counts an uncorrectable error. -/
def countUe (line : Addr) (s : State) : State :=
  if inSquare line then set SQ_ECC_ADDR.UE 1 (set SQ_ECC_ADDR.LINE ((line - sqBase) / 64) (bump SQ_ECC.UE s))
  else set BLV_ECC_ADDR_LO.ADDR (line / 64) (set BLV_ECC_ADDR_HI.ADDR (line / 2 ^ 32) (set BLV_ECC_ADDR_HI.UE 1 (bump BLV_ECC.UE s)))

/-- Counts the `n` uncorrectable words of a line, logs the line and marks what holds it (R279). -/
def uncorrectable (owner : Owner) (line : Addr) (n : Nat) (s : State) : State :=
  hitLine line (faultAddr (if inSquare line then 0x0602 else 0x0604) owner line ((List.range n).foldl (fun s _ => countUe line s) s))

/-- A line is decoded with the words in error, by number and whether uncorrectable: correctable words are counted first (R262, R279). -/
def eccCount (owner : Owner) (line : Addr) (marks : List (Nat × Bool)) (s : State) : State :=
  let s := (marks.filter (fun m => !m.2)).foldl (fun s _ => correctable line s) s
  let ue := (marks.filter (fun m => m.2)).length
  if ue = 0 then s else uncorrectable owner line ue s

/-- A Square line as its check bits deliver it: data, the numbers of its uncorrectable words, and the state after counting (R262,
R279). -/
def eccRead (owner : Owner) (line : Addr) (s : State) : List Nat × List Nat × State :=
  match lineUpsets line s with
  | [] => (readBytes line 64 s, [], s)
  | ws =>
    let bad := ws.filter (fun w => w.2.1)
    let word := fun (i : Nat) => match bad.find? (fun w => w.1 == i) with
      | some w => w.2.2
      | none => readBytes (line + 8 * i) 8 s
    ((List.range 8).flatMap word, bad.map (·.1), eccCount owner line (ws.map (fun w => (w.1, w.2.1))) s)

/-- What a write of bytes into a word does to its upset, `none` for a byte it leaves: it ends a correctable upset and, where it writes the
whole word, an uncorrectable one. -/
def upsetWrite (w : Addr) (new : List (Option Nat)) (s : State) : State :=
  if new.all (·.isNone) then s
  else match upsetOf w s with
    | none => s
    | some (bad, raw) =>
      if !bad || new.all (·.isSome) then clearUpset w s
      else putUpset w true ((raw.zip new).map (fun p => p.2.getD p.1)) s

/-- What a write into a line does to its upsets, byte by byte: `none` for a byte it leaves. A line left without an uncorrectable word is no
longer one of those found so. -/
def lineMend (line : Addr) (new : List (Option Nat)) (s : State) : State :=
  let s := if s.memory.upsets.isEmpty then s
    else (List.range 8).foldl (fun s i => upsetWrite (line + 8 * i) ((new.drop (8 * i)).take 8) s) s
  if s.memory.badLines.contains line && !((lineUpsets line s).any (fun w => w.2.1)) then
    { s with memory.badLines := s.memory.badLines.filter (fun l => l != line) }
  else s

/-! ## Writes (R257, R264) -/

/-- Whether a client may write at a Square offset (R263, R264). -/
def mayWrite (owner : Owner) (ofs : Nat) (s : State) : Bool :=
  let base := app SQ_ACC.BASE s * 2 ^ 20
  let top := base + app SQ_ACC.SIZE s * 2 ^ 20
  if 0x1880000 ≤ ofs && ofs < 0x1900000 then false
  else if base ≤ ofs && ofs < top then (0x10 ≤ owner && owner ≤ 0x13) || owner == 0x18
  else if 0x1E00000 ≤ ofs then owner == 0x20 || owner == 0x24 || owner == 0x2C || owner == 0x2D
  else true

/-- A dropped protected write is counted and logged (R264). -/
def protDrop (owner : Owner) (addr : Addr) (s : State) : State :=
  faultAddr 0x0606 owner addr (set SQ_PROT.OWNER owner (bump SQ_PROT.DROPS s))

/-- An access to an unmapped address is logged with its owner (R257). DEDUCED: log entry 45. -/
def unmapped (owner : Owner) (addr : Addr) (s : State) : State := faultAddr 0x0605 owner addr s

/-- What becomes of a line write. -/
inductive WriteResult where
  | ok | prot | addr
  deriving DecidableEq, Repr

/-- The bytes that a write with byte enables gives a line. -/
def written (data : List Nat) (enables : List Bool) : List (Option Nat) :=
  (List.range 64).map (fun i => if nth enables i false then some (nth data i 0) else none)

/-- Whether a unit of R32 is late in this slot with the result of a number (R54, kind 3). -/
def isLate (unit number : Nat) (s : State) : Bool := s.plan.late.contains (unit, number)

/-- A write to a line of the Square or the Boulevard by a client: protected and unmapped lines are dropped (R257, R264); one that the memory
does not take in time is absent (R54). -/
def lineWrite (owner : Owner) (line : Addr) (data : List Nat) (enables : List Bool) (s : State) : WriteResult × State :=
  if isLate (if inSquare line then 0x08 else 0x0D) owner s then (.ok, s)
  else if inSquare line then
    if mayWrite owner (line - sqBase) s then (.ok, lineMend line (written data enables) (writeMasked line data enables s))
    else (.prot, protDrop owner line s)
  else if inBlv line s then (.ok, lineMend line (written data enables) (writeMasked line data enables s))
  else (.addr, unmapped owner line s)

/-- A write of the memory engine's own into a line of the Square: its upsets end as in a client's write. -/
def engineWrite (a : Addr) (b : List Nat) (s : State) : State :=
  let o := a - lineOf a
  lineMend (lineOf a) ((List.range 64).map (fun i => if o ≤ i && i < o + b.length then some (nth b (i - o) 0) else none)) (writeBytes a b s)

/-- The byte enables of a whole line. -/
def allOn : List Bool := List.replicate 64 true

/-! ## The ports of ITCM and DTCM (R361). A sequencer cycle is two slots (R354). -/

/-- The TCM of an address: 0 ITCM, 1 DTCM. -/
def tcmOf (a : Addr) : Option Nat :=
  if a < 0x40000 then some 0 else if 0x100000 ≤ a ∧ a < 0x120000 then some 1 else none

/-- The present sequencer cycle. -/
def coreCycle (s : State) : Nat := s.now / 2

/-- Whether the port of the TCM at an address is free in the present cycle. -/
def portFree (a : Addr) (s : State) : Bool :=
  match tcmOf a with
  | some t => look s.seq.port t 0 ≤ coreCycle s
  | none => true

/-- The port of the TCM at an address is taken for `n` cycles from the first in which it is free. -/
def takePort (a : Addr) (n : Nat) (s : State) : State :=
  match tcmOf a with
  | some t => { s with seq.port := put s.seq.port t (Nat.max (look s.seq.port t 0) (coreCycle s) + n) }
  | none => s

/-- Whether a fetch has the port of ITCM in the present cycle, which keeps a store drain that has not waited 4 cycles from it. -/
def fetchTook (a : Addr) (s : State) : Bool := tcmOf a == some 0 && coreCycle s < look s.seq.port 2 0

/-- A fetch from ITCM has the port in the present cycle. -/
def tookFetch (s : State) : State := { s with seq.port := put s.seq.port 2 (coreCycle s + 1) }

/-! ## Pending accesses (R259) and data in flight (R32) -/

/-- Adds a pending access at the end of its owner's order. -/
def addAcc (a : Acc) (s : State) : State := { s with memory.acc := s.memory.acc ++ [a] }

/-- Whether a Square claim of an owner with an OP looks at an access: the oldest such one is its (R259). -/
def claimSees (owner : Owner) (bank op : Nat) (now : Nat) (a : Acc) : Bool :=
  a.owner == owner && inSquare a.addr && bankOf a.addr == bank && a.ready ≤ now && (if op = 0 then a.kind == .read else a.kind != .read)

/-- Whether a claim with an OP may take the access it finds: a write claim only one of a whole line (R259). -/
def claimTakes (op : Nat) (a : Acc) : Bool :=
  match op with
  | 0 => true
  | 1 => a.kind == .write
  | 2 => true
  | _ => false

/-- Puts read data on its way to its client. -/
def addFlight (f : Flight) (s : State) : State := { s with memory.flight := s.memory.flight ++ [f] }

/-- Bytes of a number in a list of 64, from an offset: the line data of a narrow store. -/
def placeBytes (ofs : Nat) (bs : List Nat) : List Nat :=
  (List.range 64).map (fun i => if ofs ≤ i && i < ofs + bs.length then nth bs (i - ofs) 0 else 0)

/-- Byte enables of `n` bytes from an offset. -/
def placeEnables (ofs n : Nat) : List Bool := (List.range 64).map (fun i => decide (ofs ≤ i ∧ i < ofs + n))

end Sys2Proof.Machine
end

