-- ==== Sys2Proof/Machine/PlanImage.lean ====
section
/-! DEFINITION. The plan image: header, slot table, command table and declarations (R25 to R32), the plan store (R47, R60), and the boot plan in
ROM (R576). -/

namespace Sys2Proof.Machine

/-- A plan image as the verifier and the fabric read it: 32,768 words. -/
abbrev PlanImage := Array Nat

/-- The words of a store slot (R47): a word nothing has written is 0 (DESIGN CHOICE, log entry 3). -/
def storeImage (slot : Nat) (s : State) : PlanImage :=
  s.plan.store.foldl (fun a w => if slot * 32768 ≤ w.1 ∧ w.1 < (slot + 1) * 32768 then a.setIfInBounds (w.1 - slot * 32768) w.2 else a)
    (Array.replicate 32768 0)

/-- A word of a plan image at a byte offset that is a multiple of 4. -/
def PlanImage.word (p : PlanImage) (ofs : Nat) : Nat := p.getD (ofs / 4) 0

/-- A byte of a plan image. -/
def PlanImage.byte (p : PlanImage) (ofs : Nat) : Nat := bits (p.word ofs) (8 * (ofs % 4)) 8

/-- A 16-bit field of a plan image. -/
def PlanImage.half (p : PlanImage) (ofs : Nat) : Nat := p.byte ofs + 256 * p.byte (ofs + 1)

/-- A word of the store. -/
def storeWord (w : Nat) (s : State) : Nat := (sparseFind w s.plan.store).getD 0

/-- The store with one word written. -/
def setStoreWord (w v : Nat) (s : State) : State :=
  { s with plan.store := if v % 2 ^ 32 = 0 then sparseErase w s.plan.store else sparseInsert w (v % 2 ^ 32) s.plan.store }

/-- Header fields of R26. -/
def PlanImage.magic (p : PlanImage) : Nat := p.word 0
def PlanImage.mode (p : PlanImage) : Nat := p.byte 0x0A
def PlanImage.config (p : PlanImage) : Nat := p.byte 0x0B
def PlanImage.size (p : PlanImage) : Nat := p.word 0x0C
def PlanImage.sqOfs (p : PlanImage) : Nat := p.word 0x10
def PlanImage.blvOfs (p : PlanImage) : Nat := p.word 0x14
def PlanImage.ownOfs (p : PlanImage) : Nat := p.word 0x18
def PlanImage.latOfs (p : PlanImage) : Nat := p.word 0x1C
def PlanImage.ownCount (p : PlanImage) : Nat := p.byte 0x20
def PlanImage.planId (p : PlanImage) : Nat := p.word 0x24

/-- A Square claim (R27). -/
structure Claim where
  owner : Owner
  bank : Nat
  op : Nat
  deriving DecidableEq, Repr

/-- A Boulevard command entry (R29), with its bits that must be zero and SLOTCHK. -/
structure Entry where
  op : Nat
  ch : Nat
  open' : Bool
  close : Bool
  owner : Owner
  deriving DecidableEq, Repr

/-- An owner declaration (R30). -/
structure Decl where
  code : Nat
  use : Nat
  need : Nat
  window : Nat
  perWindow : Nat
  produce : Nat
  prefill : Nat
  depth : Nat
  deriving DecidableEq, Repr

/-- A claim from its 16 bits. -/
def claimOf (w : Nat) : Claim := ⟨bits w 8 8, bits w 2 6, bits w 0 2⟩

/-- The raw 16 bits of claim `c` of slot `s`. -/
def PlanImage.rawClaim (p : PlanImage) (s c : Nat) : Nat := p.half (p.sqOfs + 16 * s + 2 * c)

/-- Claim `c` of slot `s` (R27). -/
def PlanImage.claim (p : PlanImage) (s c : Nat) : Claim := claimOf (p.rawClaim s c)

/-- The raw 64 bits of the command entry of a slot. -/
def PlanImage.rawEntry (p : PlanImage) (s : Nat) : Nat := p.word (p.blvOfs + 8 * s) + 2 ^ 32 * p.word (p.blvOfs + 8 * s + 4)

/-- A command entry from its 64 bits. -/
def entryOf (w : Nat) : Entry := ⟨bits w 0 4, bits w 4 1, bit w 5, bit w 6, bits w 16 8⟩

/-- The command entry of a slot (R29). -/
def PlanImage.entry (p : PlanImage) (s : Nat) : Entry := entryOf (p.rawEntry s)

/-- Owner declaration `i` (R30). -/
def PlanImage.decl (p : PlanImage) (i : Nat) : Decl :=
  let o := p.ownOfs + 16 * i
  ⟨p.byte o, p.byte (o + 1), p.half (o + 2), p.half (o + 4), p.half (o + 6), p.half (o + 8), p.half (o + 10), p.half (o + 12)⟩

/-- Every owner declaration. -/
def PlanImage.decls (p : PlanImage) : List Decl := (List.range p.ownCount).map p.decl

/-- Pseudo owner codes of the boot plan's two further clients, which R23 does not number: the SP1 download path and the boot
engine (R576; DESIGN CHOICE, log entry 9). -/
abbrev ownerDownload : Owner := 0x40
abbrev ownerBoot : Owner := 0x41

/-- The claims of a slot of the boot plan (R576): the Alley and the SP1 download path name one bank in one slot, and both accesses are executed.
DESIGN CHOICE: log entry 130. -/
def bootClaims (s : Nat) : List Claim :=
  [⟨0x30, s % 64, 0⟩, ⟨ownerDownload, s % 64, 2⟩, ⟨ownerBoot, (s + 32) % 64, 0⟩]

/-- The command entry of a slot of the boot plan (R576). -/
def bootEntry (s : Nat) : Entry :=
  if s = 16 then ⟨6, 0, false, false, 0x30⟩
  else if s = 48 then ⟨6, 1, false, false, 0x30⟩
  else if s % 64 = 0 then ⟨5, 0, false, false, 0x30⟩
  else if s % 64 = 32 then ⟨5, 1, false, false, 0x30⟩
  else ⟨0, 0, false, false, 0⟩

/-- The store slot of the active plan, none for the boot plan. -/
def activeSlot (s : State) : Option Nat :=
  match s.plan.active with
  | .boot => none
  | .slot n => some n

/-- The claims of slot `k` of the active plan, in their places. -/
def claimsAt (k : Nat) (s : State) : List Claim :=
  match activeSlot s with
  | none => bootClaims k
  | some n =>
    let ofs := storeWord (n * 32768 + 4) s + 16 * k
    (List.range 4).flatMap (fun i =>
      let w := storeWord (n * 32768 + ofs / 4 + i) s
      [claimOf (bits w 0 16), claimOf (bits w 16 16)])

/-- The command entry of slot `k` of the active plan. -/
def activeEntry (k : Nat) (s : State) : Entry :=
  match activeSlot s with
  | none => bootEntry k
  | some n =>
    let ofs := storeWord (n * 32768 + 5) s + 8 * k
    entryOf (storeWord (n * 32768 + ofs / 4) s + 2 ^ 32 * storeWord (n * 32768 + ofs / 4 + 1) s)

/-- CONFIG of the active plan: 0 while the boot plan runs (R9, R576). -/
def activeConfig (s : State) : Nat :=
  match activeSlot s with
  | none => 0
  | some n => bits (storeWord (n * 32768 + 2) s) 24 8

/-- MODE and CONFIG in a store slot's header (R9, R26). -/
def storeMode (n : Nat) (s : State) : Nat := bits (storeWord (n * 32768 + 2) s) 16 8
def storeConfig (n : Nat) (s : State) : Nat := bits (storeWord (n * 32768 + 2) s) 24 8

/-- Whether a store slot holds a plan: its first word is the MAGIC (R9). -/
def storeHolds (n : Nat) (s : State) : Bool := storeWord (n * 32768) s == 0x4E4C5056

/-- The owner declaration of a code in a store slot, where there is one. -/
def storeDecl (n code : Nat) (s : State) : Option Decl :=
  let img := storeImage n s
  img.decls.find? (fun d => d.code == code)

/-- The declaration of an owner in the active plan. -/
def activeDecl (code : Nat) (s : State) : Option Decl :=
  match activeSlot s with
  | none => none
  | some n => storeDecl n code s

/-- Active input channels of a CONFIG: 1 for A1, 2 for A2, 4 for A4, none without acquisition (R2, R26). -/
def configInputs (c : Nat) : Nat :=
  match c with
  | 1 => 1
  | 2 => 2
  | 3 => 4
  | _ => 0

/-- Samples per beat and input, S (R107): 64, 32, 16; the A1 value without acquisition (R574). -/
def samplesPerBeat (c : Nat) : Nat :=
  match c with
  | 2 => 32
  | 3 => 16
  | _ => 64

end Sys2Proof.Machine
end

