-- ==== Sys2Proof/Machine/Avenue.lean ====
section
/-! DEFINITION. The Avenue (R107 to R145): sampling, correction, rotation, calibration, failure and holes, equivalent-time phase. -/

namespace Sys2Proof.Machine

/-! ## Quarters and inputs (R107, R108) -/

/-- The input that QSEL selects for a quarter, by the settings in force (R107, R138). -/
def qsel (q : Nat) (s : State) : Nat := bits (app AVE_CFG.QSEL s) (2 * q) 2

/-- The quarter groups of a CONFIG: lowest quarter, number of quarters, input (R107). With CONFIG 0 each quarter takes its own
QSEL, as in A4. -/
def groups (cfg : Nat) (s : State) : List (Nat × Nat × Nat) :=
  match cfg with
  | 1 => [(0, 4, qsel 0 s)]
  | 2 => [(0, 2, qsel 0 s), (2, 2, qsel 2 s)]
  | _ => [(0, 1, qsel 0 s), (1, 1, qsel 1 s), (2, 1, qsel 2 s), (3, 1, qsel 3 s)]

/-- The effective input of a quarter (R107). -/
def effInput (q : Nat) (s : State) : Nat :=
  match activeConfig s with
  | 1 => qsel 0 s
  | 2 => qsel (q / 2 * 2) s
  | _ => qsel q s

/-- Whether an input has a beat stream in a CONFIG (R148, R574). -/
def hasStream (cfg input : Nat) (s : State) : Bool :=
  cfg != 0 && (groups cfg s).any (fun g => g.2.2 == input)

/-- The sub-converter at a position of a quarter, none for a hole. -/
def heldAt (q pos : Nat) (s : State) : Option Nat :=
  match s.ave.quarters[q]? with
  | none => none
  | some qt => (qt.held.getD pos none)

/-- The position a sub-converter holds. -/
def posOf (sc : Nat) (s : State) : Option Nat :=
  match s.ave.quarters[sc / 17]? with
  | none => none
  | some qt => findIdx? (fun h => h == some sc) qt.held

/-- AVE_Q_STAT fields of a quarter (R142). -/
def qState (q : Nat) : Fld := ⟨AVE_Q_STAT.addr, 8 * q, 2, 0⟩
def qHoles (q : Nat) : Fld := ⟨AVE_Q_STAT.addr, 8 * q + 2, 2, 0⟩
def qInterp (q : Nat) : Fld := ⟨AVE_Q_STAT.addr, 8 * q + 4, 1, 0⟩

/-- The target position of a quarter (R115, R140). -/
def targetPos (q : Nat) (s : State) : Nat := bits (get AVE_ROT_STAT.TARGET s) (4 * q) 4

/-- Moves the target position of a quarter. -/
def setTarget (q p : Nat) (s : State) : State :=
  let t := get AVE_ROT_STAT.TARGET s
  set AVE_ROT_STAT.TARGET (t - targetPos q s * 2 ^ (4 * q) + p * 2 ^ (4 * q)) s

/-- The off-duty sub-converters of a quarter that have not failed, lowest first. -/
def spares (q : Nat) (s : State) : List Nat :=
  ((List.range 17).map (fun j => 17 * q + j)).filter (fun sc => (posOf sc s).isNone && get (AVE_SC_STAT.STATE sc) s != 5)

/-- Replaces a quarter. -/
def setQuarter (q : Nat) (f : Quarter → Quarter) (s : State) : State :=
  { s with ave.quarters := modifyNth f q s.ave.quarters }

/-! ## Correction (R110, R111) -/

/-- Rounds a fraction half away from zero. -/
def roundHalfAway (num : Int) (den : Nat) : Int :=
  if 0 ≤ num then (2 * num + den) / (2 * den) else -((2 * (-num) + den) / (2 * den))

/-- The Avenue sample of a raw code before the clamp (R110). -/
def corrected (x : Nat) (sc input : Nat) (s : State) : Int :=
  let ofs := signed 16 (get (AVE_SC_OFFSET.OFFSET sc) s)
  let gain : Int := get (AVE_SC_GAIN.GAIN sc) s
  let trim := signed 16 (app (AVE_CH_UTRIM.UTRIM input) s)
  roundHalfAway ((16 * ((x : Int) - 2048) - ofs) * gain + trim * 32768) 524288

/-- The 12-bit clamp of R110. -/
def clamp12 (v : Int) : Int := clip (-2048) 2047 v

/-- The Avenue sample of a raw code (R110). -/
def sampleOf (x sc input : Nat) (s : State) : Int := clamp12 (corrected x sc input s)

/-- Whether a sample is over-range (R111). -/
def overRange (x sc input : Nat) (s : State) : Bool :=
  x == 0 || x == 4095 || corrected x sc input s != sampleOf x sc input s

/-- One beat of an input as the Avenue passes it to the taps. -/
structure InputBeat where
  input : Nat
  y : List Int
  flags : Nat
  deriving DecidableEq, Repr

/-- The samples of a group before hole replacement, none at a hole (R108). -/
def rawGroup (g : Nat × Nat × Nat) (codes : List Nat) (s : State) : List (Option Int) :=
  (List.range (16 * g.2.1)).map (fun k =>
    (heldAt (g.1 + k % g.2.1) (k / g.2.1) s).map (fun sc => sampleOf (nth codes sc 2048) sc g.2.2 s))

/-- Replaces each hole by the mean of its nearest neighbours in the sample sequence, `before` and `after` lying in the beats beside
(R129). A hole without a neighbour on one side takes the other's value. -/
def fillHoles (before after : Option Int) : List (Option Int) → List Int
  | [] => []
  | some y :: rest => y :: fillHoles (some y) after rest
  | none :: rest =>
    let next := match (rest.find? (·.isSome)) with | some (some v) => some v | _ => after
    let v := match before, next with
      | some a, some b => roundHalfAway (a + b) 2
      | some a, none => a
      | none, some b => b
      | none, none => 0
    v :: fillHoles before after rest

/-- The last non-hole sample of a group before the present beat (R129). -/
def lastOf (g : Nat × Nat × Nat) (s : State) : Option Int := (s.ave.last.find? (fun l => l.1 == g.1)).map (·.2)

/-- One beat of a group: samples with holes replaced, and its OVR and HOLE flags. -/
def groupBeat (g : Nat × Nat × Nat) (codes ahead : List Nat) (s : State) : InputBeat :=
  let raw := rawGroup g codes s
  let next := match (rawGroup g ahead s).find? (·.isSome) with | some (some v) => some v | _ => none
  let ovr := (List.range (16 * g.2.1)).any (fun k =>
    match heldAt (g.1 + k % g.2.1) (k / g.2.1) s with
    | some sc => overRange (nth codes sc 2048) sc g.2.2 s
    | none => false)
  { input := g.2.2, y := fillHoles (lastOf g s) next raw, flags := b2n ovr + 4 * b2n (raw.any (·.isNone)) }

/-- The beat streams of the active configuration, one for each quarter group (R107). -/
def groupBeats (codes ahead : List Nat) (s : State) : List InputBeat :=
  if activeConfig s = 0 then [] else (groups (activeConfig s) s).map (fun g => groupBeat g codes ahead s)

/-- The beat of each input as its clients take it: the samples of the group with the lower-numbered quarters (R148; DEDUCED for ingest and
taps, log entry 11), with the flags of every group that takes the input (R111, R128). -/
def inputBeats (codes ahead : List Nat) (s : State) : List InputBeat :=
  let l := groupBeats codes ahead s
  (List.range 4).filterMap (fun i =>
    (l.find? (fun b => b.input == i)).map (fun b =>
      { b with flags := (l.filter (fun x => x.input == i)).foldl (fun f x => f ||| x.flags) 0 }))

/-! ## Failure of a sub-converter (R125 to R130) -/

/-- Marks a beat of an input for the records that hold it (R126). -/
def addMark (m : Mark) (s : State) : State :=
  if m.flags = 0 then s else { s with ave.marks := m :: s.ave.marks }

/-- Takes the calibration cycle, the watch and the skew window of a sub-converter away. -/
def dropCal (sc : Nat) (s : State) : State :=
  { s with ave.cals := s.ave.cals.filter (fun c => c.1 != sc), ave.stuck := s.ave.stuck.filter (fun c => c.1 != sc),
           ave.skew := s.ave.skew.filter (fun c => c.1 != sc) }

/-- A sub-converter takes up duty at a position (R126). -/
def takeDuty (sc pos : Nat) (s : State) : State :=
  let q := sc / 17
  set (AVE_SC_STAT.STATE sc) 0 (set (AVE_SC_STAT.POS sc) pos
    (setQuarter q (fun t => { t with held := t.held.set pos (some sc) }) (dropCal sc s)))

/-- A sub-converter that becomes off duty starts a calibration cycle (R116), once no hold and no IDLE keeps it waiting (R119, R512). -/
def startCal (sc : Nat) (second reinstating : Bool) (s : State) : State :=
  let s := dropCal sc s
  set (AVE_SC_STAT.STATE sc) 1 { s with ave.cals := s.ave.cals ++ [(sc, ⟨none, second, reinstating⟩)] }

/-- Verified plans of the current mode's family with a CONFIG, lowest slot first (R130). -/
def plansOf (mode cfg : Nat) (s : State) : List Nat :=
  (List.range 8).filter (fun n => bit (get SQ_PLAN_STAT.VALID s) n && storeHolds n s && storeMode n s == mode && storeConfig n s == cfg)

/-- Whether the PLANS directory marks the plan of a store slot PRIMARY for a mode (R75). The mark stays with the store slot when its plan is
overwritten at run time; the spec does not say. DESIGN CHOICE: log entry 109. -/
def isPrimary (mode n : Nat) (s : State) : Bool :=
  match s.boot.dir[n]? with
  | some d => d.primary && d.mode == mode
  | none => false

/-- Of several store slots, the PRIMARY one for a mode, else the lowest. -/
def choosePlan (mode : Nat) (l : List Nat) (s : State) : Option Nat :=
  match l.find? (fun n => isPrimary mode n s) with
  | some n => some n
  | none => l.head?

/-- Sets a pending swap to a store slot from the present slot (R49). -/
def pendSwap (n : Nat) (s : State) : State :=
  set SQ_PLAN_STAT.PENDING n (set SQ_PLAN_STAT.SWAP_PENDING 1 { s with plan.swap := some (n, s.now), ave.halve := none })

/-- HALVE: a swap to a plan of the next lower rate is requested, or fault 0x0205 says that it is impossible (R130). -/
def requestHalve (input : Nat) (s : State) : State :=
  let mode := get SYS_MODE.ACTIVE s
  let cfg := activeConfig s
  match (if cfg = 1 ∨ cfg = 2 then choosePlan mode (plansOf mode (cfg + 1) s) s else none) with
  | none => fault 0x0205 input 0 0 s
  | some n => { pendSwap n s with ave.halve := some (input, n) }

/-- A position becomes a hole (R128). -/
def openHole (sc pos : Nat) (s : State) : State :=
  let q := sc / 17
  let s := setQuarter q (fun t => { t with held := t.held.set pos none }) s
  let s := set (qState q) 2 (bump (qHoles q) (setB (qInterp q) true s))
  let s := raise 0x2A (fault 0x0203 sc 0 0 s)
  if on AVE_FAIL_POLICY.POLICY s then requestHalve (effInput q s) s else s

/-- An attempt ends: the target position advances by one (R115). One that a failure ends counts as an attempt too (DEDUCED, log entry 35). -/
def endOverlap (q : Nat) (o : Overlap) (s : State) : State :=
  setTarget q ((o.pos + 1) % 16) (setQuarter q (fun t => { t with overlap := none }) s)

/-- A sub-converter has failed in beat `d`, with a cause of R125 (R126, R128). -/
def failSc (sc cause d : Nat) (s : State) : State :=
  let q := sc / 17
  let pos := posOf sc s
  let ov := match s.ave.quarters[q]? with | some t => t.overlap | none => none
  let s := set (AVE_SC_CTRL.MAPOUT sc) 1 (set (AVE_SC_STAT.STATE sc) 5 (set (AVE_SC_STAT.CAUSE sc) cause (dropCal sc s)))
  let s := raise 0x28 (fault 0x0201 sc 0 cause s)
  -- an overlap that the failure ends: the outgoing one stays on duty, or the incoming one takes its place
  let s := match ov with
    | some o =>
      if o.incoming = sc then set (AVE_SC_STAT.STATE o.outgoing) 0 (endOverlap q o s)
      else if o.outgoing = sc then endOverlap q o s
      else s
    | none => s
  let s := match pos with | some _ => addMark ⟨d, effInput q s, 2⟩ s | none => s
  let normal := get (qState q) s == 0
  let sp := (spares q s).filter (fun x => x != sc)
  let s := match pos with
    | none => s
    | some p =>
      match sp.head? with
      | some x =>
        let s := match (match s.ave.quarters[q]? with | some t => t.overlap | none => none) with
          | some o => if o.incoming = x then set (AVE_SC_STAT.STATE o.outgoing) 0 (endOverlap q o s) else s
          | none => s
        takeDuty x p s
      | none => openHole sc p s
  if normal && (spares q s).isEmpty then raise 0x29 (fault 0x0202 q 0 0 (if get (qState q) s = 0 then set (qState q) 1 s else s)) else s

/-! ## Rotation (R113 to R115) -/

/-- The rotation interval P in beats (R113, R140). -/
def rotInterval (s : State) : Nat := 1024 * Nat.max 16 (app AVE_ROT_CTRL.INTERVAL s)

/-- Whether rotation is held (R119). -/
def rotHeld (s : State) : Bool := app AVE_ROT_CTRL.ROT_HOLD s == 1

/-- Handover beat of a quarter: an attempt starts the 16-beat overlap when the quarter is NORMAL, no hold is set and the spare is
ready (R113, R114). The beat is the next one to reach the Avenue. -/
def handoverAttempt (q : Nat) (s : State) : State :=
  let h := s.ave.beat
  let p := rotInterval s
  let ready := (spares q s).find? (fun sc => get (AVE_SC_STAT.STATE sc) s == 2)
  match s.ave.quarters[q]?, ready with
  | some t, some inc =>
    let pos := targetPos q s
    match t.held.getD pos none with
    | some out =>
      if h % p = q * p / 4 ∧ get (qState q) s = 0 ∧ ¬ rotHeld s ∧ t.overlap = none then
        set (AVE_SC_STAT.STATE inc) 3 (set (AVE_SC_STAT.STATE out) 4
          (setQuarter q (fun t => { t with overlap := some ⟨inc, out, pos, h, 0, 0⟩ }) s))
      else s
    | none => s
  | _, _ => s

/-- Meaning of HANDOVER_ATTEMPT. -/
def execHandoverAttempt (q : Nat) (s : State) : Host.Outcome State Fault Refusal := .next (handoverAttempt q s)

/-- Counts a mismatch of a sub-converter, which fails at 3 (R114, R125). -/
def countMismatch (sc d : Nat) (s : State) : State :=
  let s := bump (AVE_SC_STAT.MISMATCH sc) s
  if get (AVE_SC_STAT.MISMATCH sc) s = 3 ∧ get (AVE_SC_STAT.STATE sc) s ≠ 5 then failSc sc 3 d s else s

/-- The end of an overlap: the handover completes, or a mismatch cancels it; the target advances either way (R114, R115). -/
def handoverSwitch (q : Nat) (s : State) : State :=
  match s.ave.quarters[q]? with
  | none => s
  | some t =>
    match t.overlap with
    | none => s
    | some o =>
      if s.ave.beat < o.start + 16 then s
      else
        let lim : Int := app AVE_FAIL_POLICY.MATCH_LIM s
        let s := endOverlap q o s
        if lim * o.count < o.sum ∨ o.sum < -(lim * o.count) then
          let s := fault 0x0206 o.incoming 0 0 (set (AVE_SC_STAT.STATE o.incoming) 2 (set (AVE_SC_STAT.STATE o.outgoing) 0 s))
          let s := bump AVE_ROT_STAT.CANCELS s
          countMismatch o.incoming (s.ave.beat - 1) (countMismatch o.outgoing (s.ave.beat - 1) s)
        else
          let s := set (AVE_SC_STAT.MISMATCH o.incoming) 0 (set (AVE_SC_STAT.MISMATCH o.outgoing) 0 s)
          startCal o.outgoing false false (takeDuty o.incoming o.pos s)

/-- Meaning of HANDOVER_SWITCH. -/
def execHandoverSwitch (q : Nat) (s : State) : Host.Outcome State Fault Refusal := .next (handoverSwitch q s)

/-! ## Calibration (R116 to R118, R131) -/

/-- Beats of a calibration cycle (R116). -/
abbrev calBeats : Nat := 8336

/-- The trims a cycle computes (R117) from the sums of its 4,096 codes at each level: OFFSET, GAIN, the unlimited and the limited
SKEW. -/
def calTrims (sc sumLow sumHigh : Nat) (s : State) : Int × Int × Int × Int :=
  let offset := roundHalfAway (8 * ((sumLow : Int) + sumHigh) - 2048 * 65536 - Config.factoryMid sc) 4096
  let gain := if sumLow < sumHigh then roundHalfAway (2048 * (Config.factorySpan sc : Int)) (sumHigh - sumLow) else 0
  let old := signed 10 (get (AVE_SC_SKEW.SKEW sc) s)
  let est := if on (AVE_SC_SKEW_EST.VALID sc) s then signed 10 (get (AVE_SC_SKEW_EST.EST sc) s) else 0
  (offset, gain, old + est, old + clip (-16) 16 est)

/-- Queues the line of a sub-converter for the calibration log (R118, R263): 64 bytes, whose layout the spec does not give (DESIGN
CHOICE, log entry 12: OFFSET, GAIN, SKEW, NOISE as 16-bit fields, then zero). -/
def logCalibration (sc : Nat) (s : State) : State :=
  let line := leBytes 2 (get (AVE_SC_OFFSET.OFFSET sc) s) ++ leBytes 2 (get (AVE_SC_GAIN.GAIN sc) s) ++
    leBytes 2 (get (AVE_SC_SKEW.SKEW sc) s) ++ leBytes 2 (get (AVE_SC_NOISE.NOISE sc) s) ++ List.replicate 56 0
  { s with memory.calLog := s.memory.calLog ++ [(sc, line)] }

/-- A quarter returns to NORMAL when a spare is there again, with its target at position 0 (R115), or loses a hole when one fills it (R131).
DEDUCED: log entry 35. -/
def reinstated (sc : Nat) (s : State) : State :=
  let q := sc / 17
  match s.ave.quarters[q]? with
  | none => s
  | some t =>
    match findIdx? (fun h => h.isNone) t.held with
    | some p =>
      let s := takeDuty sc p s
      let left := (t.held.filter (·.isNone)).length - 1
      let s := set (qHoles q) (Nat.min left 3) s
      if left = 0 then setB (qInterp q) false (set (qState q) 1 s) else s
    | none => setTarget q 0 (set (qState q) 0 (set (AVE_SC_STAT.STATE sc) 2 s))

/-- A calibration cycle ends with the means of its two levels, given as sums of 4,096 codes, and the level noises in 1/8 LSB rms
(R117, R125, R131). -/
def calibrationCycleEnd (sc sumLow sumHigh noiseLow noiseHigh : Nat) (s : State) : State :=
  match (s.ave.cals.find? (fun c => c.1 == sc)).map (·.2) with
  | none => s
  | some c =>
    if s.ave.beat < c.ends.getD (s.ave.beat + 1) then s
    else
      let tr := calTrims sc sumLow sumHigh s
      let lim := app AVE_FAIL_POLICY.NOISE_LIM s
      let noise := Nat.max noiseLow noiseHigh
      let pass := -1024 ≤ tr.1 && tr.1 ≤ 1024 && 0x6000 ≤ tr.2.1 && tr.2.1 ≤ 0xA000 && noise ≤ lim &&
        -256 ≤ tr.2.2.1 && tr.2.2.1 ≤ 255
      let s := set (AVE_SC_NOISE.NOISE sc) (Nat.min noise 255) (dropCal sc s)
      if pass then
        let s := set (AVE_SC_OFFSET.OFFSET sc) (toBits 16 tr.1) (set (AVE_SC_GAIN.GAIN sc) (toBits 16 tr.2.1)
          (set (AVE_SC_SKEW.SKEW sc) (toBits 10 tr.2.2.2) s))
        let s := logCalibration sc (set (AVE_SC_STAT.STATE sc) 2 s)
        if c.reinstating then reinstated sc s else s
      else if !c.second then startCal sc true c.reinstating (logCalibration sc (fault 0x0207 sc 0 0 s))
      else if c.reinstating then
        fault 0x0208 sc 0 0 (set (AVE_SC_CTRL.MAPOUT sc) 1 (set (AVE_SC_STAT.STATE sc) 5 (set (AVE_SC_STAT.CAUSE sc) 2 s)))
      else failSc sc 2 s.ave.beat s

/-- Meaning of CALIBRATION_CYCLE_END. -/
def execCalibrationCycleEnd (sc sumLow sumHigh noiseLow noiseHigh : Nat) (s : State) : Host.Outcome State Fault Refusal :=
  .next (calibrationCycleEnd sc sumLow sumHigh noiseLow noiseHigh s)

/-- A skew window of 2^20 samples ends: the ratio of its sums becomes the estimate, which is valid when the sum of s² reached 2^30 LSB²
(R118), and a new window begins. -/
def skewWindowEnd (sc : Nat) (s : State) : State :=
  match s.ave.skew.find? (fun w => w.1 == sc) with
  | none => s
  | some (_, n, es, ss) =>
    if n < 2 ^ 20 then s
    else
      let est := clip (-512) 511 (Config.skewSteps (activeConfig s) es ss)
      set (AVE_SC_SKEW_EST.EST sc) (toBits 10 est) (setB (AVE_SC_SKEW_EST.VALID sc) (decide (2 ^ 30 ≤ ss))
        { s with ave.skew := s.ave.skew.filter (fun w => w.1 != sc) })

/-- Meaning of SKEW_WINDOW_END. -/
def execSkewWindowEnd (sc : Nat) (s : State) : Host.Outcome State Fault Refusal := .next (skewWindowEnd sc s)

/-! ## The watch and the register commands (R125, R131, R134, R135) -/

/-- The effective STUCK_LEN (R141). -/
def stuckLen (s : State) : Nat := Nat.min 1024 (Nat.max 8 (app AVE_FAIL_POLICY.STUCK_LEN s))

/-- The stuck-code watch concludes on an on-duty sub-converter (R125, cause 1): another one of the quarter changed its code within the same
beats. -/
def stuckWatch (sc : Nat) (s : State) : State :=
  match (s.ave.stuck.find? (fun w => w.1 == sc)).map (·.2) with
  | none => s
  | some (code, n, _) =>
    let len := stuckLen s
    if len ≤ n ∧ code ≠ 0 ∧ code ≠ 4095 ∧ (posOf sc s).isSome ∧
        (s.ave.stuck.any (fun w => w.1 / 17 == sc / 17 && w.1 != sc && w.2.2.1 < len && !w.2.2.2)) = true then
      failSc sc 1 (s.ave.beat - 1) s
    else s

/-- Meaning of STUCK_WATCH. -/
def execStuckWatch (sc : Nat) (s : State) : Host.Outcome State Fault Refusal := .next (stuckWatch sc s)

/-- Whether the device is in SERVICE mode. -/
def inService (s : State) : Bool := get SYS_MODE.ACTIVE s == 7

/-- A write of 1 to FORCE_FAIL, in SERVICE only (R125, R135). -/
def forceFail (sc : Nat) (s : State) : State :=
  if inService s && sc < 68 && get (AVE_SC_STAT.STATE sc) s != 5 then failSc sc 4 (s.ave.beat - 1) s else s

/-- Meaning of FORCE_FAIL. -/
def execForceFail (sc : Nat) (s : State) : Host.Outcome State Fault Refusal := .next (forceFail sc s)

/-- A write of MAPOUT: a 1 maps out at the next beat, in SERVICE only; a 0 clears the field and changes no sub-converter. The field is not
staged (R135, R211). DEDUCED: log entry 110. -/
def mapoutWrite (sc value : Nat) (s : State) : State :=
  if 68 ≤ sc then s
  else if !(bit value 0) then set (AVE_SC_CTRL.MAPOUT sc) 0 s
  else if inService s && get (AVE_SC_STAT.STATE sc) s != 5 && !(s.ave.mapouts.contains sc) then
    { s with ave.mapouts := s.ave.mapouts ++ [sc] }
  else s

/-- Meaning of MAPOUT_WRITE. -/
def execMapoutWrite (sc value : Nat) (s : State) : Host.Outcome State Fault Refusal := .next (mapoutWrite sc value s)

/-- A write of 1 to REINSTATE: MAPOUT clears and a calibration cycle starts, off duty (R131). -/
def reinstate (sc : Nat) (s : State) : State :=
  if sc < 68 && get (AVE_SC_STAT.STATE sc) s == 5 then
    startCal sc false true (set (AVE_SC_CTRL.MAPOUT sc) 0 (set (AVE_SC_STAT.CAUSE sc) 0 (set (AVE_SC_STAT.MISMATCH sc) 0 s)))
  else s

/-- Meaning of REINSTATE. -/
def execReinstate (sc : Nat) (s : State) : Host.Outcome State Fault Refusal := .next (reinstate sc s)

/-- A write of AVE_SC_CTRL: MAPOUT, FORCE_FAIL and REINSTATE of one write (R135). -/
def scCtrlWrite (sc value : Nat) (s : State) : State :=
  let s := mapoutWrite sc value s
  let s := if bit value 2 then forceFail sc s else s
  if bit value 1 then reinstate sc s else s

/-- A write of a trim: dropped with TRIM_REFUSED for an on-duty sub-converter outside SERVICE (R134). -/
def trimWrite (addr value : Nat) (s : State) : State :=
  let sc := (addr - 0x40100000) / 0x100
  let r := (addr - 0x40100000) % 0x100
  if addr < 0x40100000 ∨ 68 ≤ sc then s
  else if (posOf sc s).isSome ∧ ¬ inService s then set AVE_STAT.TRIM_REFUSED 1 s
  else if r = 0x08 then set (AVE_SC_OFFSET.OFFSET sc) value s
  else if r = 0x0C then set (AVE_SC_GAIN.GAIN sc) value s
  else if r = 0x10 then set (AVE_SC_SKEW.SKEW sc) value s
  else s

/-- Meaning of TRIM_WRITE. -/
def execTrimWrite (addr value : Nat) (s : State) : Host.Outcome State Fault Refusal := .next (trimWrite addr value s)

/-! ## Equivalent-time phase (R120, R121) -/

/-- The range of PHASE in a CONFIG (R120, R574). -/
def phaseRange (cfg : Nat) : Nat :=
  match cfg with
  | 2 => 128
  | 3 => 256
  | _ => 64

/-- Records at each phase before an automatic advance (R143). -/
def etPer (s : State) : Nat := if app AVE_ET_CTRL.PER s = 0 then 4096 else app AVE_ET_CTRL.PER s

/-- Whether an automatic advance is due (R121). -/
def etDue (s : State) : Bool := app AVE_ET_CTRL.AUTO s == 1 && etPer s ≤ s.ave.phaseRecs

/-- A new applied phase: the interpolator settles for 32 slots (R121). -/
def setPhase (p : Nat) (s : State) : State :=
  let s := set AVE_ET_STAT.COUNT 0 { s with ave.phaseRecs := 0 }
  if p = s.ave.phase then s else { s with ave.phase := p, ave.settling := s.now + 32 }

/-- Whether a record is armed or still takes beats: its phase does not change (R121, R212). -/
def sampling (s : State) : Bool := s.record.recs.any (fun r => !r.ended)

/-- ET_PHASE_ADVANCE: with AUTO set, after every PER records the phase advances by STEP (R121). -/
def etPhaseAdvance (s : State) : State :=
  if etDue s && !(sampling s) then setPhase ((s.ave.phase + app AVE_ET_CTRL.STEP s) % phaseRange (activeConfig s)) s else s

/-- Meaning of ET_PHASE_ADVANCE. -/
def execEtPhaseAdvance (s : State) : Host.Outcome State Fault Refusal := .next (etPhaseAdvance s)

/-- The equivalent-time offset E in fraction LSBs: 128 for each PHASE code (R120). -/
def etOffset (s : State) : Int := 128 * (s.ave.phase : Int)

/-! ## What a beat does to the quarters (R113 to R126) -/

/-- The watch follows the codes of the on-duty sub-converters. -/
def watchCodes (codes : List Nat) (s : State) : State :=
  { s with ave.stuck := (List.range 68).filterMap (fun sc =>
      if (posOf sc s).isSome then
        let x := nth codes sc 2048
        match (s.ave.stuck.find? (fun w => w.1 == sc)).map (·.2) with
        | some (c, n, f) => some (sc, x, if c = x then (n + 1, f) else (1, false))
        | none => some (sc, x, 1, true)
      else none) }

/-- The sums of a skew window with one more sample: `y0`, `y1` and `y2` are the samples before, at and after it (R118). -/
def skewAdd (w : Nat × Int × Nat) (y0 y1 y2 : Int) : Nat × Int × Nat :=
  if 2 ^ 20 ≤ w.1 then w
  else (w.1 + 1, w.2.1 + (2 * y1 - y0 - y2) * (y2 - y0), w.2.2 + ((y2 - y0) * (y2 - y0)).toNat)

/-- The skew detectors of a group take its beat, and the group's last samples are kept (R118, R129). -/
def skewGroup (codes ahead : List Nat) (g : Nat × Nat × Nat) (s : State) : State :=
  let raw := rawGroup g codes s
  let next := rawGroup g ahead s
  let y := fillHoles (lastOf g s) ((next.find? (·.isSome)).join) raw
  let before := ((s.ave.prev.find? (fun l => l.1 == g.1)).map (·.2)).getD (nth y 0 0)
  let all := (before :: y) ++ [((fillHoles y.getLast? none next).head?).getD 0]
  let new := (List.range (16 * g.2.1)).filterMap (fun k =>
    (heldAt (g.1 + k % g.2.1) (k / g.2.1) s).map (fun sc =>
      (sc, skewAdd (((s.ave.skew.find? (fun w => w.1 == sc)).map (·.2)).getD (0, 0, 0)) (nth all k 0) (nth all (k + 1) 0) (nth all (k + 2) 0))))
  { s with ave.skew := s.ave.skew.filter (fun w => !(new.any (fun x => x.1 == w.1))) ++ new
           ave.prev := (g.1, y.getLastD 0) :: s.ave.prev.filter (fun l => l.1 != g.1)
           ave.last := match (raw.reverse.find? (·.isSome)).join with
             | some v => (g.1, v) :: s.ave.last.filter (fun l => l.1 != g.1)
             | none => s.ave.last }

/-- Overlaps add the difference of incoming and outgoing, both corrected (R114). -/
def addOverlaps (codes : List Nat) (s : State) : State :=
  { s with ave.quarters := s.ave.quarters.mapIdx (fun q t =>
      { t with overlap := t.overlap.map (fun o =>
          if o.count < 16 then
            let i := effInput q s
            { o with sum := o.sum + sampleOf (nth codes o.incoming 2048) o.incoming i s
                              - sampleOf (nth codes o.outgoing 2048) o.outgoing i s
                     count := o.count + 1 }
          else o) }) }

/-- Waiting calibration cycles start unless a hold lasts or their quarter is DEGRADED and they are not a reinstatement (R119, R127). -/
def startCals (b : Nat) (s : State) : State :=
  if rotHeld s then s
  else { s with ave.cals := s.ave.cals.map (fun c =>
    match c.2.ends with
    | some _ => c
    | none => if get (qState (c.1 / 17)) s = 0 ∨ c.2.reinstating then (c.1, { c.2 with ends := some (b + calBeats) }) else c) }

/-- The quarters' side of beat `b`, after its samples have been taken. With CONFIG 0 the detectors run as in A4 (R107). -/
def aveBeat (b : Nat) (codes ahead : List Nat) (s : State) : State :=
  let s := startCals b (addOverlaps codes (watchCodes codes s))
  let s := (groups (activeConfig s) s).foldl (fun s g => skewGroup codes ahead g s) s
  let due := s.ave.mapouts
  let s := { s with ave.mapouts := [] , ave.beat := b + 1 }
  due.foldl (fun s sc => if get (AVE_SC_STAT.STATE sc) s = 5 then s else failSc sc 4 b s) s

end Sys2Proof.Machine
end

