-- ==== Sys2Proof/Machine/Ladder.lean ====
section
/-! DEFINITION. What other chapters need of the power ladder (R515, R518, R522): whether the fabric converts, and waking. -/

namespace Sys2Proof.Machine

/-- Whether the device is in RUN with its exit completed: demands have their effect (R515). -/
def awake (s : State) : Bool := get PWR_STAT.RUNG s == 0 && s.pwr.exit.isNone

/-- Whether the sub-converters convert and the taps run: in POISED and RUN, after the exit from IDLE (R511, R512). -/
def converting (s : State) : Bool :=
  get PWR_STAT.RUNG s ≤ 1 && (match s.pwr.exit with | some x => x.from_ < 2 | none => true)

/-- An entry under way is abandoned before the PS code changes: the sequencer goes on (R517). -/
def abandonEntry (s : State) : State :=
  if s.pwr.entry.isNone then s
  else
    let s := set PWR_STAT.MOVING 0 { s with pwr.entry := none }
    if s.pwr.seqStopped && !s.pwr.fabricStopped then
      { s with pwr.seqStopped := false, seq.sys.cycleFrom := s.now, seq.busyUntil := Nat.max s.seq.busyUntil (s.now + s.now % 2) }
    else s

/-- An exit from DOZE, NAP or DORMANT starts: the PS code changes, and from NAP and DORMANT the PMIC has to show PWR_GOOD anew; `lost` says
that it has just done so (R518, R521). -/
def startExit (idle lost : Bool) (s : State) : State :=
  let from_ := get PWR_STAT.RUNG s
  set PWR_STAT.MOVING 1 { s with pwr.exit := some ⟨from_, idle, s.now⟩, pwr.lateLogged := false, pwr.good := s.pwr.good && (from_ == 3 || lost) }

/-- A wake (R517, R522): in DOZE, NAP and DORMANT an exit starts, from DOZE with the rails as they are; before the PS code changes it
abandons the entry. -/
def wake (cause : Nat) (s : State) : State :=
  if s.pwr.fabricStopped then
    match s.pwr.exit with
    | some _ => s
    | none => set PWR_STAT.WAKE_CAUSE cause (startExit (cause == 6 || cause == 7) (cause == 7) s)
  else if s.pwr.entry.isSome then set PWR_STAT.WAKE_CAUSE cause (abandonEntry s)
  else s

/-- A wake by a source that PWR_WAKE_EN must enable. -/
def wakeIf (enable cause : Nat) (s : State) : State := if bit (get PWR_WAKE_EN.EN s) enable then wake cause s else s

end Sys2Proof.Machine
end

