-- ==== Sys2Proof/Machine/Records.lean ====
section
/-! DEFINITION. The record engine (R188 to R220): arm, fire acceptance, windows, provisional records, header, commit, stop and abort, and the
ingest streams' packing (R37, R123). -/

namespace Sys2Proof.Machine

/-- Beat length in fraction LSBs: 8 ticks. -/
abbrev beatLsb : Int := 524288

/-- The mode in effect. -/
def mode (s : State) : Nat := get SYS_MODE.ACTIVE s

/-! ## Streams -/

/-- Values that a reduction mode gives for each group (R225). -/
def redWidth (m : Nat) : Nat := if m = 1 ∨ m = 3 then 2 else 1

/-- Bytes per beat of an ingest stream by the settings of a list of field values and a CONFIG (R123, R225): 0 where its source has no
beat stream. -/
def bytesPerBeat (i cfg : Nat) (m : List (Nat × Nat)) (s : State) : Nat :=
  let sb := samplesPerBeat cfg
  let ch := regGet (AVE_IS_CTRL.CH i) m
  if regGet (AVE_IS_CTRL.RED i) m = 1 then
    if hasStream cfg (regGet (RED_OUT_CTRL.SRC ch) m) s && regGet (RED_OUT_CTRL.SINK ch) m == 0 &&
        2 ^ regGet (RED_OUT_CTRL.K ch) m ≤ sb then
      2 * redWidth (regGet (RED_OUT_CTRL.MODE ch) m) * sb / 2 ^ regGet (RED_OUT_CTRL.K ch) m
    else 0
  else if hasStream cfg ch s then
    match regGet (AVE_IS_CTRL.FMT i) m with
    | 0 => sb * 3 / 2
    | 1 => sb
    | _ => 2 * sb
  else 0

/-- The bytes of a list of 12-bit samples: groups of two in three bytes, which is the layout of R123 for P12. -/
def packP12 : List Int → List Nat
  | a :: b :: rest =>
    let x := toBits 12 a
    let y := toBits 12 b
    x % 256 :: (x / 256 + y % 16 * 16) :: y / 16 :: packP12 rest
  | [a] => [toBits 12 a % 256, toBits 12 a / 256]
  | [] => []

/-- The bytes of one beat in a format (R123). -/
def packBeat (fmt : Nat) (y : List Int) : List Nat :=
  match fmt with
  | 0 => packP12 y
  | 1 => y.map (fun v => toBits 8 (v / 16))
  | _ => y.flatMap (fun v => leBytes 2 (toBits 16 v))

/-- Replaces an ingest stream. -/
def setStream (i : Nat) (f : Stream → Stream) (s : State) : State :=
  { s with record.streams := modifyNth f i s.record.streams }

/-- The first beat that reaches the Avenue later than slot `k` (R191). -/
def beatAfter (k : Nat) : Int := ((k : Int) - 40) / 2 + 1

/-- The placement of a list of field values in a mode: ROLL streams as CONTINUOUS does. -/
def placeOf (m : List (Nat × Nat)) (s : State) : Nat := if mode s = 4 then 1 else regGet REC_CFG.PLACE m

/-- The rings of the streams by a list of field values (R188): no bytes for a stream that writes nothing. -/
def ringsOf (m : List (Nat × Nat)) (s : State) : List Ring :=
  (List.range 8).map (fun i =>
    let b := bytesPerBeat i (activeConfig s) m s
    if bit (regGet REC_CFG.STREAMS m) i && 0 < b then
      ⟨ringBase i m, (if placeOf m s = 0 then regGet REC_LEN.LENGTH m else regGet REC_RING_LEN.LEN m) * b, b⟩
    else {})

/-- A line of a stream from the bytes at its place in the ring: in the Square with enables for the bytes it writes; in the Boulevard, which has
no masked write (R266), whole. -/
def streamLine (t : Stream) (bytes : List Nat) (lead : Nat) (beat : Int) (now : Nat) : StreamLine :=
  ⟨t.base + t.slotOfs + t.packedOfs, placeBytes 0 bytes,
   if blvBase ≤ t.base then allOn else placeEnables lead (bytes.length - lead), beat, now + 4⟩

/-- Puts the whole lines of a stream's packed bytes on their way to its buffer (R32, unit 0x06); with `flush` the rest as well
(DEDUCED, log entry 15). -/
def packLines (fuel : Nat) (flush : Bool) (now : Nat) (beat : Int) (t : Stream) : Stream :=
  match fuel with
  | 0 => t
  | n + 1 =>
    if 64 ≤ t.packed.length then
      packLines n flush now beat { t with
        packed := t.packed.drop 64
        lead := 0
        packedOfs := (t.packedOfs + 64) % t.ringBytes
        packedBeat := beat
        coming := t.coming ++ [streamLine t (t.packed.take 64) t.lead t.packedBeat now] }
    else if flush && t.lead < t.packed.length then
      { t with packed := [], lead := 0, packedOfs := (t.packedOfs + 64) % t.ringBytes,
               coming := t.coming ++ [streamLine t t.packed t.lead t.packedBeat now] }
    else t

/-- At STOP a Boulevard stream completes its last group on each channel with lines of zero (R272): the lines of a 1 KiB block alternate
between the channels. DEDUCED: log entry 111. -/
def padGroup (now : Nat) (beat : Int) (t : Stream) : Stream :=
  let k := t.packedOfs % 1024 / 64
  let block := t.packedOfs - t.packedOfs % 1024
  let left := if k = 0 then [] else (List.range 16).filter (fun j => k ≤ j && (2 ≤ k || j % 2 == 0))
  if left.isEmpty then t
  else { t with packedOfs := (block + 1024) % t.ringBytes, coming := t.coming ++ left.map (fun j =>
    ⟨t.base + t.slotOfs + block + 64 * j, List.replicate 64 0, allOn, beat, now + 4⟩) }

/-- A stream closes after its last beat: the rest of its bytes goes out, and with `pad` its last group is completed. -/
def closeStream (pad : Bool) (now : Nat) (b : Int) (t : Stream) : Stream :=
  let t := packLines 1 true now b t
  if pad && blvBase ≤ t.base then padGroup now b t else t

/-- A stream takes up its next capture at the first beat that belongs to it. -/
def takeUp (b : Int) (t : Stream) : Stream :=
  match t.later with
  | some c =>
    if c.firstBeat ≤ b then
      { t with on := 0 < c.ring.perBeat, base := c.ring.base, ringBytes := c.ring.bytes, perBeat := c.ring.perBeat, firstBeat := c.firstBeat,
               lastBeat := c.lastBeat, packed := [], lead := 0, packedOfs := 0, slotOfs := c.slotOfs, next := c.firstBeat, later := none }
    else t
  | none => t

/-- A stream takes the bytes of a beat when it writes that beat, and closes after its last one (R188, R191, R272). -/
def streamBeatIn (pad : Bool) (now : Nat) (b : Int) (bytes : List Nat) (t : Stream) : Stream :=
  let t := takeUp b t
  if t.on && 0 < t.ringBytes && t.firstBeat ≤ b && (match t.lastBeat with | some l => b ≤ l | none => true) then
    let t := { t with packedBeat := if t.packed.length ≤ t.lead then b else t.packedBeat, packed := t.packed ++ bytes, next := b + 1 }
    let t := packLines (bytes.length / 64 + 2) false now b t
    if t.lastBeat == some b then closeStream pad now b t else t
  else t

/-- Whether a stream that closes completes its last group: STOP ends CONTINUOUS and ROLL streaming (R272). -/
def padsAtEnd (s : State) : Bool := s.record.place == 1 || mode s == 4

/-- The beat on the Avenue in a slot. -/
def avenueBeat (slot : Nat) : Int := ((slot : Int) - 40) / 2

/-- A stream fed by an input takes its bytes of beat `b`, packed in its format (R123). -/
def streamInput (b : Int) (beats : List InputBeat) (s : State) (i : Nat) : State :=
  if app (AVE_IS_CTRL.RED i) s = 1 then s
  else
    let bytes := match beats.find? (fun x => x.input == app (AVE_IS_CTRL.CH i) s) with
      | some x => packBeat (app (AVE_IS_CTRL.FMT i) s) x.y
      | none => []
    setStream i (streamBeatIn (padsAtEnd s) s.now b bytes) s

/-- Every stream fed by an input takes its bytes of beat `b`. -/
def streamsBeat (b : Int) (beats : List InputBeat) (s : State) : State :=
  (List.range 8).foldl (streamInput b beats) s

/-- Every stream fed by reduction output `out` takes the values of beat `b` at their delivery, in P16 (R224, R225). -/
def streamsReduced (out : Nat) (b : Int) (values : List Int) (s : State) : State :=
  (List.range 8).foldl (fun s i =>
    if app (AVE_IS_CTRL.RED i) s = 1 ∧ app (AVE_IS_CTRL.CH i) s = out then
      setStream i (streamBeatIn (padsAtEnd s) s.now b (values.flatMap (fun v => leBytes 2 (toBits 16 v)))) s
    else s) s

/-- Whether the Boulevard or the Square holds a ring; the DEPTH of an ingest owner in the active plan: its declaration's, or the bound
of invariant 0x04 where it has none (R30, R54). -/
def streamDepth (i : Nat) (s : State) : Nat :=
  match activeDecl (i + 1) s with
  | some d => d.depth
  | none => if blvBase ≤ (nth s.record.streams i {}).base then 64 else 8

/-- PREFILL of an ingest owner in the active plan. -/
def streamPrefill (i : Nat) (s : State) : Nat :=
  match activeDecl (i + 1) s with
  | some d => d.prefill
  | none => 0

/-- A breach of the verified plan is counted, logged and marks the open records (R54, R55). -/
def breach (kind : Nat) (owner : Owner) (s : State) : State :=
  let s := fault 0x0111 owner 0 kind (set SQ_BREACH.OWNER owner (set SQ_BREACH.KIND kind (bump SQ_BREACH.COUNT s)))
  if kind = 5 then s else markOpen s

/-- Whether a stream issues (R37): from the slot in which its buffer first holds PREFILL lines of the capture until its record ends; the lines
left then are issued to the last. DEDUCED: log entry 106. -/
def streamIssue (now prefill : Nat) (t : Stream) : Stream :=
  let own := (t.lines.filter (fun x => match t.drain with | some d => d < x.beat | none => true)).length
  match t.lastBeat with
  | some l =>
    if 2 * l + 40 ≤ (now : Int) then { t with issuing := false, drain := some l }
    else { t with issuing := t.issuing || (t.on && decide (0 < own ∧ prefill ≤ own)) }
  | none => { t with issuing := t.issuing || (t.on && decide (0 < own ∧ prefill ≤ own)) }

/-- Lines that arrive at a stream's buffer in this slot; one that finds DEPTH lines is discarded (R54, kind 2). -/
def landStream (i : Nat) (s : State) : State :=
  let due := (nth s.record.streams i {}).coming.filter (fun l => l.due ≤ s.now)
  let s := setStream i (fun t => { t with coming := t.coming.filter (fun l => s.now < l.due) }) s
  let depth := if due.isEmpty then 0 else streamDepth i s
  let s := due.foldl (fun s l =>
    if depth ≤ (nth s.record.streams i {}).lines.length then breach 2 (i + 1) s
    else setStream i (fun t => { t with lines := t.lines ++ [l] }) s) s
  setStream i (streamIssue s.now (streamPrefill i s)) s

/-! ## Settings at an arm (R212, R179, R121) -/

/-- The PHASE range of the active configuration applied to a committed value. -/
def phaseOf (s : State) : Nat := com AVE_ET_CTRL.PHASE s % phaseRange (activeConfig s)

/-- The fields that a PATTERN unit's terms rest on (R156). -/
def patFields (n : Nat) : List Fld :=
  [TRG_CTRL.TYPE n, TRG_PAT.CODE n, TRG_PAT.FUNC n] ++ (List.range 4).flatMap (fun i => [TRG_CH_THR.THR i, TRG_CH_THR.HYS i])

/-- The fields that a decoder rests on (R187). -/
def decFields (n : Nat) : List Fld :=
  [DEC_CFG.PROTO n, DEC_CFG.LINE n, DEC_CFG.INV n, DEC_RATE.PERIOD n, DEC_RATE2.PERIOD n, DEC_FMT.FMT n, DEC_SYNC.PATTERN n, DEC_SYNC.LEN n]

/-- Whether two lists of field values differ in some of the fields. -/
def differIn (l : List Fld) (a b : List (Nat × Nat)) : Bool := l.any (fun f => regGet f a != regGet f b)

/-- A unit at an arm instant with new settings: its pulse, slope, interval, pattern-duration and sequence state clears (R179); terms of a
pattern that has changed are taken anew. -/
def UnitState.renew (changed : Bool) (u : UnitState) : UnitState :=
  { u with openA := none, openB := none, patSince := none, seqB := false, seqCount := 0, seqCand := none, spanBytes := [], frame := none,
           terms := if changed then [] else u.terms }

/-- The newest committed generation comes into force at an arm instant: trigger units clear their detection state when it is new to them
(R179, R212), and a decoder whose settings change begins anew (DEDUCED, log entry 37). -/
def applyGen (s : State) : State :=
  if s.record.appliedGen = get REC_GEN.GEN s ∧ s.applied = s.committed then s
  else { s with applied := s.committed, record.appliedGen := get REC_GEN.GEN s,
                trg.units := s.trg.units.mapIdx (fun n u => u.renew (differIn (patFields n) s.applied s.committed)),
                trg.decs := s.trg.decs.mapIdx (fun n d => if differIn (decFields n) s.applied s.committed then {} else d) }

/-- The settings a record takes at its arm instant (R212, R213). -/
def genOf (s : State) : RecGen :=
  { gen := get REC_GEN.GEN s, epoch := get REC_EPOCH.EPOCH s, carry := s.record.carry,
    length := app REC_LEN.LENGTH s, pre := app REC_PRE.PRE s, streams := app REC_CFG.STREAMS s,
    phase := s.ave.phase, phaseAuto := app AVE_ET_CTRL.AUTO s == 1,
    mode := mode s, config := activeConfig s, place := s.record.place, rings := ringsOf s.applied s, offset := etOffset s,
    settings := s.applied }

/-- Counts a record at the phase it takes (R121, R143). -/
def countPhase (s : State) : State :=
  set AVE_ET_STAT.CUR s.ave.phase (set AVE_ET_STAT.COUNT (Nat.min 4095 (s.ave.phaseRecs + 1)) { s with ave.phaseRecs := s.ave.phaseRecs + 1 })

/-- A record arms with the settings in force: REC_GEN.APPLIED and the phase statistics follow (R143, R220). -/
def noteArm (s : State) : State :=
  countPhase (set REC_GEN.APPLIED (get REC_GEN.GEN s) { s with record.appliedId := s.record.nextId + 1 })

/-- A committed PHASE that is new comes into force before an arm, and settles for 32 slots (R121). -/
def newPhase (s : State) : State :=
  if com AVE_ET_CTRL.PHASE s = s.ave.phaseBase then s
  else setPhase (phaseOf s) { s with ave.phaseBase := com AVE_ET_CTRL.PHASE s }

/-! ## Segments (R198) -/

/-- The sequence that a fire unit counts in (R175, R198): its own with INDEP in CONTINUOUS placement, else the shared one, 4. -/
def seqUnit (place unit : Nat) (m : List (Nat × Nat)) : Nat := if place = 1 ∧ regGet (TRG_CTRL.INDEP unit) m = 1 then unit else 4

/-- The sequence of a record. -/
def Rec.seqUnit (r : Rec) : Nat := Machine.seqUnit r.gen.place r.unit r.gen.settings

/-- How many segments of a sequence have an index. -/
def segIndex (u : Nat) (s : State) : Nat := ((s.record.segs.find? (fun g => g.unit == u)).map (·.index)).getD 0

/-- How many segments of a sequence are taken: those with an index, and the open records that will take one. A record takes its index with
its sequence number, so that an abandoned one leaves no gap (R196, R208; DEDUCED, log entry 21). -/
def segTaken (u : Nat) (s : State) : Nat :=
  segIndex u s + (s.record.recs.filter (fun r => r.phase != .numbered && r.seqUnit == u)).length

/-- Whether a sequence has no segment left to take: all are taken and AUTO is clear (R198). -/
def segClosed (u : Nat) (s : State) : Bool :=
  mode s == 1 && (s.record.segsDone.contains u || (app REC_SEG.AUTO s == 0 && app REC_SEG.COUNT s < segTaken u s))

/-- Whether a sequence has begun and has segments left: it counts as one open record (R50), so a pending swap does not hold its arms
(log entry 21). -/
def seqOpen (u : Nat) (s : State) : Bool :=
  mode s == 1 && s.record.running && !s.record.stopping && !(segClosed u s) && segTaken u s % (app REC_SEG.COUNT s + 1) != 0

/-- Whether any sequence is open. -/
def anySeqOpen (s : State) : Bool := (List.range 5).any (fun u => seqOpen u s)

/-- The index that a record takes in its sequence, with SEG_FIRST and SEG_LAST (R198, R201). -/
def takeSeg (r : Rec) (s : State) : Rec × State :=
  if r.gen.mode ≠ 1 then (r, s)
  else
    let u := r.seqUnit
    let i := segIndex u s
    let n := regGet REC_SEG.COUNT r.gen.settings
    let next := if n ≤ i ∧ regGet REC_SEG.AUTO r.gen.settings = 1 then 0 else i + 1
    ({ r with seg := i, segFirst := i == 0, segLast := decide (n ≤ i), flags := r.flags ||| (64 * b2n (i == 0)) ||| (128 * b2n (decide (n ≤ i))) },
     { s with record.segs := ⟨u, next⟩ :: s.record.segs.filter (fun g => g.unit != u) })

/-! ## Holds (R194) -/

/-- Descriptors queued and reservations (R205, R220). -/
def cqFill (s : State) : Nat := s.record.queue.length + s.record.recs.length

/-- Records waiting in the header FIFO (R194, R318 queue 5). -/
def headerFifo (s : State) : Nat := (s.record.recs.filter (·.queued)).length

/-- The ring slot that the next arm takes, in a ring of the newest generation (R188, R212). -/
def nextSlotPos (s : State) : Nat := s.record.nextPos % Nat.max 1 (com REC_RING_LEN.LEN s)

/-- Whether the next ring slot holds a committed record not yet released. -/
def slotTaken (s : State) : Bool := s.record.slots.any (fun r => r.pos == nextSlotPos s && !r.released)

/-- Whether the engine waits for the Boulevard after a DORMANT exit: the active plan carries Boulevard data entries (R519). -/
def blvHold (s : State) : Bool :=
  on PWR_STAT.BLV_WAIT s && (List.range 4096).any (fun k => (let op := (activeEntry k s).op
    op == 1 || op == 2))

/-- The holds of R194 and R519, as REC_STAT.HELD shows them; `seq` says whether a segment sequence goes on through a pending swap. -/
def heldWith (seq : Bool) (s : State) : Nat :=
  b2n (s.record.place == 0 && app REC_CFG.RMODE s == 0 && slotTaken s) +
  2 * b2n (cqFill s == 256) + 4 * b2n (32 ≤ headerFifo s) +
  8 * b2n ((on SQ_PLAN_STAT.SWAP_PENDING s && !seq) || on SQ_PLAN_STAT.MARGIN_STOP s || s.record.stopping || !s.record.running || s.record.startWaits || blvHold s)

/-- The holds as REC_STAT.HELD shows them. -/
def held (s : State) : Nat := heldWith (anySeqOpen s) s

/-- The holds for a record of a fire unit. -/
def heldFor (u : Nat) (s : State) : Nat := heldWith (seqOpen u s) s

/-- The engine goes to STOPPED once it stops and no record is left (R216). -/
def maybeStop (s : State) : State :=
  if s.record.running && s.record.stopping && s.record.recs.isEmpty then
    { s with record.running := false, record.stopping := false, record.startDue := none, record.dead := false }
  else s

/-! ## Streams at a start, an arm and an end (R188, R191, R216, R260) -/

/-- The streams take up a ring slot from beat `a` (R188, R191). -/
def armStreams (pos : Nat) (a : Int) (s : State) : State :=
  (ringsOf s.applied s).zipIdx.foldl (fun s r => setStream r.2 (fun t =>
    if 0 < r.1.perBeat then { t with later := some ⟨a, none, r.1, pos * r.1.bytes⟩ } else t) s) s

/-- The streams of CONTINUOUS placement begin with beat `b0`, which has stream beat number 0 (R188). -/
def streamsStart (b0 : Int) (s : State) : State :=
  (ringsOf s.applied s).zipIdx.foldl (fun s r => setStream r.2 (fun t =>
    { t with later := if 0 < r.1.perBeat then some ⟨b0, none, r.1, 0⟩ else none }) s) { s with record.startBeat := b0 }

/-- The last beat that a stream writes becomes known. -/
def Stream.endAt (l : Int) (t : Stream) : Stream :=
  match t.later with
  | some c => { t with later := some { c with lastBeat := some l } }
  | none => { t with lastBeat := some l }

/-- Streaming ends with beat `l`, or with the beat already taken (R188, R216). -/
def streamsEnd (l : Int) (s : State) : State :=
  { s with record.streams := s.record.streams.map (fun t =>
      let t := { t with later := none }
      if t.on && t.lastBeat.isNone then
        (if l < t.next then closeStream true s.now (t.next - 1) { t with lastBeat := some (t.next - 1) } else { t with lastBeat := some l })
      else t) }

/-- Where a stream stands in a new ring at its next beat (R188, R212): the rest of its bytes goes out, and it goes on at the place of that
beat's stream beat number. DEDUCED: log entry 112. -/
def Stream.moveTo (r : Ring) (startBeat : Int) (now : Nat) (t : Stream) : Stream :=
  if t.later.isSome ∨ (t.base = r.base ∧ t.ringBytes = r.bytes ∧ t.perBeat = r.perBeat) ∨ t.lastBeat.isSome then t
  else
    let t := packLines 1 true now (t.next - 1) t
    let w := (t.next - startBeat).toNat
    let o := if r.bytes = 0 then 0 else w * r.perBeat % r.bytes
    { t with on := 0 < r.perBeat, base := r.base, ringBytes := r.bytes, perBeat := r.perBeat, packed := List.replicate (o % 64) 0,
             lead := o % 64, packedOfs := o / 64 * 64, packedBeat := t.next, slotOfs := 0 }

/-- A generation that comes into force moves the streams of CONTINUOUS placement into its rings (R212). -/
def streamsMove (s : State) : State :=
  { s with record.streams := (s.record.streams.zip (ringsOf s.applied s)).map (fun p => p.1.moveTo p.2 s.record.startBeat s.now) }

/-- Drops a SLOT record that no fire has taken (R216, R217). Lines of earlier records stay. -/
def dropArmed (s : State) : State :=
  match s.record.recs.find? (fun r => r.phase == .armed) with
  | none => s
  | some r => { s with
      record.recs := s.record.recs.filter (fun x => x.id != r.id)
      record.streams := s.record.streams.map (fun t =>
        let mine := t.later.isNone && t.on && t.firstBeat == r.armBeat
        { t with later := none,
                 lastBeat := if mine then some (r.armBeat - 1) else t.lastBeat,
                 packed := if mine then [] else t.packed,
                 issuing := if mine then false else t.issuing,
                 coming := t.coming.filter (fun l => l.beat < r.armBeat), lines := t.lines.filter (fun l => l.beat < r.armBeat) }) }

/-- Streams whose ring lies in the Square make a start wait for a period boundary (R260). -/
def startsInSquare (m : List (Nat × Nat)) : Bool :=
  (List.range 8).any (fun i => bit (regGet REC_CFG.STREAMS m) i && inSquare (ringBase i m))

/-- The engine starts in the placement of the newest generation (R188, R212, R216, R260). In CONTINUOUS the streams start with the first beat
after the start. -/
def enterPlace (s : State) : State :=
  let s := { s with record.place := com REC_CFG.PLACE s }
  if s.record.place = 1 ∨ mode s = 4 then
    let s := applyGen s
    let sq := startsInSquare s.committed
    let due := if sq then boundaryAfter s 2 else s.now
    streamsStart (if sq then ((due : Int) - 40) / 2 else beatAfter s.now) { s with record.startDue := some due }
  else { s with record.startDue := some s.now, record.armDue := Nat.max s.now s.record.armDue, record.nextPos := 0 }

/-! ## Arm in SLOT placement (R191, R192) -/

/-- A record armed in this slot (R191). -/
def armed (s : State) : Option Rec := s.record.recs.find? (fun r => r.phase == .armed)

/-- A new record with the settings in force. -/
def newRec (unit type : Nat) (t : Int) (prov : Bool) (a first last : Int) (ofs pos : Nat) (s : State) : Rec :=
  { id := s.record.nextId, phase := .capturing, gen := genOf s, prov := prov, confirmed := !prov, unit := unit, type := type, time := t,
    cofMask := 0, cofs := [], armBeat := a, first := first, last := last, ended := false, ofs := ofs, pos := pos, seg := 0, segFirst := false,
    segLast := false, flags := 256 * b2n s.record.carry + 2048 * b2n (app AVE_ET_CTRL.AUTO s == 1), confirmSlot := s.now, confirmTime := t, seq := 0, mu := [],
    gate := first, delivered := false, hdr := 3, queued := false, complete := false }

/-- Adds a record to the open ones. -/
def addRec (r : Rec) (s : State) : State := { s with record.recs := s.record.recs ++ [r], record.nextId := s.record.nextId + 1 }

/-- Whether the newest generation changes the placement. -/
def placeChanges (s : State) : Bool := com REC_CFG.PLACE s != s.record.place

/-- A SLOT record arms in this slot (R191, R197). -/
def armSlot (s : State) : State :=
  let s := noteArm (applyGen s)
  let recycled := slotTaken s
  let pos := nextSlotPos s
  let a := beatAfter s.now
  let s := addRec { newRec 0 0 0 false a a a 0 pos s with phase := .armed } (armStreams pos a s)
  let s := if recycled then bump REC_COUNT.RECYCLED s else s
  { s with record.slots := s.record.slots.filter (fun x => x.pos != pos), record.dead := false }

/-- RECORD_ARM: in SLOT placement, once an arm is due and nothing holds it, the engine applies the newest generation and arms
(R191, R192, R194, R121, R212). A change of the applied phase settles first. A generation that changes PLACE comes into force here too, once
no record takes beats (DEDUCED, log entry 112). -/
def recordArm (s : State) : State :=
  if sampling s ∨ ¬ awake s ∨ mode s = 4 ∨ s.record.running = false ∨ s.now < s.record.startDue.getD 0 then s
  else if placeChanges s then
    if heldFor 4 s / 2 ≠ 0 then s
    else if s.record.place = 0 then (if s.now < s.record.armDue then s else enterPlace s)
    else enterPlace (streamsEnd (avenueBeat s.now) s)
  else if s.record.place ≠ 0 ∨ s.now < s.record.armDue ∨ heldFor 4 s ≠ 0 ∨ segClosed 4 s ∨ etDue s then s
  else
    let s := newPhase s
    if s.now < s.ave.settling then s else armSlot s

/-- Meaning of RECORD_ARM. -/
def execRecordArm (s : State) : Host.Outcome State Fault Refusal := .next (recordArm s)

/-! ## Windows and acceptance (R190, R191, R193) -/

/-- The trigger beat of a time, with the equivalent-time offset of its record (R190). -/
def trigBeat (t offset : Int) : Int := (t - offset) / beatLsb

/-- The confirmation horizon in beats (R189). -/
def horizonBeats (cfg : Nat) : Nat :=
  match cfg with
  | 2 => 131072
  | 3 => 262144
  | _ => 65536

/-- A fire of a unit decided in this slot finds an armed record that takes it (R191). A fire offered during a hold is discarded (R194). -/
def acceptSlot (unit type : Nat) (t : Int) (s : State) : Option State :=
  match armed s with
  | none => none
  | some r =>
    let f := trigBeat t r.gen.offset - r.gen.pre
    let l := f + r.gen.length - 1
    if r.armBeat ≤ f ∧ avenueBeat s.now < l ∧ heldFor 4 s = 0 then
      let r' := { r with
        phase := .capturing, unit := unit, type := type, time := t, first := f, last := l, confirmSlot := s.now, confirmTime := t,
        ofs := ((f - r.armBeat) % (r.gen.length : Int)).toNat, gate := f }
      some { s with
        record.recs := s.record.recs.map (fun x => if x.id == r.id then r' else x)
        record.streams := (s.record.streams.zip r.gen.rings).map (fun p => if 0 < p.2.perBeat then p.1.endAt l else p.1) }
    else none

/-- The state that a fire or candidate in CONTINUOUS placement is judged in: a new PHASE comes into force once no record takes beats. -/
def phaseReady (s : State) : State :=
  if s.record.place = 1 && s.record.running && !(sampling s) then newPhase s else s

/-- Whether no phase change holds an opening (R121). -/
def phaseSettled (s : State) : Bool :=
  com AVE_ET_CTRL.PHASE s == s.ave.phaseBase && s.ave.settling ≤ s.now && !(etDue s)

/-- Opens a record in CONTINUOUS placement (R193): ordinary, or provisional for a candidate. Its opening is its arm instant (R212); of a
provisional one nothing shows before its commit (R208). -/
def openWindow (unit type : Nat) (t : Int) (prov : Bool) (s : State) : Option State :=
  let f0 := trigBeat t (etOffset s) - com REC_PRE.PRE s
  let ringLen : Int := com REC_RING_LEN.LEN s
  let room := if prov then (s.record.recs.filter (·.prov)).length < 32
              else (s.record.recs.filter (fun r => !r.prov && !r.ended)).length < 4
  let u := seqUnit 1 unit s.committed
  if s.record.place = 1 ∧ mode s ≠ 4 ∧ room = true ∧ ¬ placeChanges s ∧ heldFor u s = 0 ∧ 0 ≤ streamBeat f0 s ∧
      avenueBeat s.now - ringLen + horizonBeats (activeConfig s) < f0 ∧ ¬ segClosed u s ∧
      s.record.startDue.getD 0 ≤ s.now ∧ phaseSettled s = true then
    let s := streamsMove (applyGen s)
    let w := (streamBeat f0 s).toNat
    let r := newRec unit type t prov f0 f0 (f0 + app REC_LEN.LENGTH s - 1) (w % 2 ^ 32) (w % Nat.max 1 (app REC_RING_LEN.LEN s)) s
    some (addRec r (if prov then s else noteArm s))
  else none

/-- A fire is offered to the record engine: whether it opens a record, else it is discarded (R176). -/
def offerFire (unit type : Nat) (t : Int) (s : State) : Bool × State :=
  if ¬ awake s ∨ mode s = 4 then (false, s)
  else
    let s := phaseReady s
    match (if s.record.place = 0 then acceptSlot unit type t s else openWindow unit type t false s) with
    | some s' => (true, s')
    | none => (false, s)

/-- A candidate is offered: it is counted, and counted as abandoned too when no provisional record opens (R194, R207, R210). -/
def offerCandidate (unit type : Nat) (t : Int) (s : State) : Bool × State :=
  let s := count REC_PROV_OPENED.COUNT s
  let s := if awake s then phaseReady s else s
  match (if awake s then openWindow unit type t true s else none) with
  | some s' => (true, s')
  | none => (false, count REC_PROV_ABANDONED.COUNT s)

/-- The provisional record of a unit's candidate. -/
def provOf (unit : Nat) (t : Int) (s : State) : Option Rec :=
  s.record.recs.find? (fun r => r.prov && !r.confirmed && r.unit == unit && r.time == t)

/-- A candidate is confirmed in this slot by a condition of its own time (R161, R162, R207): its record carries SPEC. -/
def confirmRec (unit : Nat) (t own : Int) (s : State) : Bool × State :=
  match provOf unit t s with
  | none => (false, s)
  | some r =>
    (true, { s with record.recs := s.record.recs.map (fun x =>
      if x.id == r.id then { x with confirmed := true, confirmSlot := s.now, confirmTime := own, queued := x.ended, flags := x.flags ||| 32 }
      else x) })

/-- A provisional record is abandoned: its context is freed, its fence lifts in the next slot (R207, R209, R210). -/
def abandonRec (unit : Nat) (t : Int) (s : State) : State :=
  match provOf unit t s with
  | none => s
  | some r =>
    maybeStop (count REC_PROV_ABANDONED.COUNT { s with
      record.recs := s.record.recs.filter (fun x => x.id != r.id),
      record.lifting := (s.now, none, r.window s) :: s.record.lifting.filter (fun l => l.1 == s.now),
      red.per.maps := s.red.per.maps.filter (fun m => m.recId != r.id) })

/-! ## Record end, header and commit (R190, R195 to R205) -/

/-- The slot of a record's end (R190). -/
def endSlot (r : Rec) : Int := 2 * r.last + 40

/-- The slot in which a record's header becomes ready (R195). -/
def readySlot (r : Rec) : Int := (if endSlot r < (r.confirmSlot : Int) then (r.confirmSlot : Int) else endSlot r) + 32

/-- Whether a record's last beat is on the Avenue and its end has not been taken. -/
def endsNow (now : Nat) (r : Rec) : Bool := r.phase == .capturing && !r.ended && decide (endSlot r ≤ (now : Int))

/-- RECORD_END: windows whose last beat is on the Avenue are complete; a confirmed record joins the header FIFO, and in SLOT placement
the next arm is due four slots later (R190, R192, R207, R318). -/
def recordEnd (s : State) : State :=
  let due := fun (r : Rec) => endsNow s.now r && r.gen.place == 0
  { s with
    record.recs := s.record.recs.map (fun r => if endsNow s.now r then { r with ended := true, queued := r.confirmed } else r)
    record.armDue := s.record.recs.foldl (fun d r => if due r then (2 * r.last + 44).toNat else d) s.record.armDue
    record.nextPos := s.record.recs.foldl (fun p r =>
      if due r then (r.pos + 1) % Nat.max 1 (regGet REC_RING_LEN.LEN r.gen.settings) else p) s.record.nextPos
    record.dead := s.record.dead || s.record.recs.any due }

/-- Meaning of RECORD_END. -/
def execRecordEnd (s : State) : Host.Outcome State Fault Refusal := .next (recordEnd s)

/-- The inputs a record's streams take, as the source of their over-range, lane and hole marks (R111, R201). -/
def recInputs (r : Rec) : List Nat :=
  let m := r.gen.settings
  (List.range 4).filter (fun c => (List.range 8).any (fun i => bit r.gen.streams i &&
    (let ch := regGet (AVE_IS_CTRL.CH i) m
     if regGet (AVE_IS_CTRL.RED i) m = 1 then regGet (RED_OUT_CTRL.SRC ch) m == c else ch == c)))

/-- A co-fire offset (R200). -/
def cofDelta (r : Rec) (c : Int × Nat) : Int := c.1 - r.time

/-- Flags the marks of a window give a record: OVR, LANE_SUSPECT, HOLE, REFSW when it spans a reference switch, CORRUPT where a line of it
has been found uncorrectable, and COF_SAT where a co-fire offset saturates (R201, R279). -/
def windowFlags (r : Rec) (s : State) : Nat :=
  let ins := recInputs r
  let m := s.ave.marks.foldl (fun f k => if r.first ≤ k.beat ∧ (k.beat : Int) ≤ r.last ∧ ins.contains k.input = true then f ||| k.flags else f) 0
  let sw := s.clk.switches.any (fun t => r.first * beatLsb ≤ t && t < (r.last + 1) * beatLsb)
  let sat := (r.cofs.take 3).any (fun c => cofDelta r c < -(2 ^ 31 - 1) || 2 ^ 31 - 1 < cofDelta r c)
  m ||| (8 * b2n sw) ||| (16 * b2n (windowBad r s)) ||| (512 * b2n sat)

/-- Whether every line of a record's window has been written by every stream (R195, item 3). -/
def linesWritten (r : Rec) (s : State) : Bool :=
  (s.record.streams.zip r.gen.rings).all (fun p =>
    let t := p.1
    p.2.perBeat == 0 ||
      (r.last < t.next && !(t.coming.any (fun l => l.beat ≤ r.last)) && !(t.lines.any (fun l => l.beat ≤ r.last)) &&
        (t.packed.length ≤ t.lead || r.last < t.packedBeat)))

/-- A record that is complete but for its sequence number. -/
def wantsNumber (now : Nat) (r : Rec) : Bool := r.phase == .capturing && r.ended && r.confirmed && decide (readySlot r ≤ (now : Int))

/-- Of two records the one numbered first: by ready slot, then time, then unit (R196). -/
def numberBefore (a b : Rec) : Bool :=
  readySlot a < readySlot b || (readySlot a == readySlot b && (a.time < b.time || (a.time == b.time && a.unit < b.unit)))

/-- Inserts a record in the order of R196. -/
def insertRec (r : Rec) : List Rec → List Rec
  | [] => [r]
  | x :: xs => if numberBefore r x then r :: x :: xs else x :: insertRec r xs

/-- The time of a record as the stepped tick count gives it, in fraction LSBs (R4, R491). -/
def reportedTime (t : Int) (s : State) : Int := t + s.tickAdj * 65536

/-- A T80 time of 10 bytes (R4). -/
def t80 (t : Int) : List Nat := leBytes 8 ((t / 65536) % 2 ^ 64).toNat ++ leBytes 2 (t % 65536).toNat

/-- Saturates a co-fire offset (R200). -/
def cofOfs (v : Int) : Int := clip (-(2 ^ 31 - 1)) (2 ^ 31 - 1) v

/-- The 64 bytes of a record header (R200, R201). -/
def headerBytes (r : Rec) (s : State) : List Nat :=
  let ofs := (List.range 3).map (fun i =>
    match r.cofs[i]? with
    | some c => toBits 32 (cofOfs (cofDelta r c))
    | none => 0)
  let body := leBytes 4 r.seq ++ leBytes 2 r.gen.gen ++ leBytes 2 r.gen.epoch ++ leBytes 4 r.flags ++ t80 (reportedTime r.time s) ++
    [r.unit + 16 * r.type, r.cofMask + 16 * Nat.min 3 r.cofs.length] ++ ofs.flatMap (leBytes 4) ++
    leBytes 4 r.gen.length ++ leBytes 4 r.gen.pre ++ leBytes 4 r.ofs ++ leBytes 4 r.pos ++
    [r.gen.streams, r.gen.phase, r.gen.mode + 8 * r.gen.config + 32 * r.gen.place, 0] ++ leBytes 2 r.seg ++ [0, 0]
  body ++ leBytes 4 (crc32c body)

/-- The 64 bytes of a measurement block (R203). -/
def measureBytes (r : Rec) : List Nat := (List.range 16).flatMap (fun i => leBytes 4 (nth r.mu i 0x7FC00001))

/-- The commit-queue descriptor of a record (R204). -/
def descriptorOf (r : Rec) : List Nat :=
  [r.seq, r.gen.gen + 65536 * r.gen.epoch, r.pos,
   r.seg + 65536 * r.unit + 2 ^ 18 * b2n (bit r.flags 5) + 2 ^ 19 * b2n (r.flags % 32 != 0) + 2 ^ 31]

/-- REC_RELEASE frees committed ring slots up to a sequence number (R197). -/
def release (v : Nat) (s : State) : State :=
  { set REC_RELEASE.SEQ v s with
    record.slots := s.record.slots.map (fun r =>
      if ((v % 2 ^ 32 + 2 ^ 32 - r.seq) % 2 ^ 32) < 2 ^ 31 then { r with released := true } else r) }

/-- Meaning of REC_RELEASE. -/
def execRecRelease (value : Nat) (s : State) : Host.Outcome State Fault Refusal := .next (release value s)

/-- Of a numbered record and others, the one of lowest sequence number (R196). -/
def lowest (r : Rec) (l : List Rec) : Rec := l.foldl (fun m x => if (x.seq + 2 ^ 32 - m.seq) % 2 ^ 32 < 2 ^ 31 then m else x) r

/-- At the end of a slot: records all of whose events are past commit from the next slot on (R195). -/
def markComplete (s : State) : State :=
  { s with record.recs := s.record.recs.map (fun r =>
      if r.phase == .numbered && r.hdr == 0 && linesWritten r s then { r with complete := true } else r) }

/-- A record whose window, header and lines are written and whose number is the lowest not yet committed (R195, R196). -/
def committable (s : State) : Option Rec :=
  match s.record.recs.filter (fun r => r.phase == .numbered) with
  | [] => none
  | r :: rs => if (lowest r rs).complete then some (lowest r rs) else none

/-- The sequence state after the commit of a segment (R198). -/
def commitSegment (r : Rec) (s : State) : State :=
  if r.segLast && r.gen.mode == 1 then
    let s := raise 0x09 s
    if regGet REC_SEG.AUTO r.gen.settings = 1 then s
    else
      let u := r.seqUnit
      let s := { s with record.segsDone := u :: s.record.segsDone.filter (fun x => x != u) }
      let live := (List.range 4).filter (fun n =>
        app (TRG_CTRL.ENABLE n) s == 1 && app (TRG_CTRL.ROLE n) s == 0 && !(s.record.segsDone.contains (seqUnit s.record.place n s.applied)))
      if s.record.place = 0 ∨ live.isEmpty = true then maybeStop { s with record.stopping := true } else s
  else s

/-- What later rules need of a committed record. -/
def pastOf (r : Rec) (s : State) : Past :=
  ⟨r.seq, r.first, r.last, r.pos, r.gen.length, r.gen.streams, r.gen.place, r.gen.rings, s.record.startBeat, r.hdrAddr⟩

/-- The commit of a provisional record shows what its opening kept back: the generation applied and the phase count (R208, R212, R220). -/
def showOpening (r : Rec) (s : State) : State :=
  if !r.prov then s
  else
    let s := if s.record.appliedId ≤ r.id then
        set REC_GEN.APPLIED r.gen.gen (set AVE_ET_STAT.CUR r.gen.phase { s with record.appliedId := r.id + 1 }) else s
    if r.gen.phase = s.ave.phase then
      set AVE_ET_STAT.COUNT (Nat.min 4095 (s.ave.phaseRecs + 1)) { s with ave.phaseRecs := s.ave.phaseRecs + 1 } else s

/-- The engine's side of a commit: descriptor, event, counters, ring slot, window kept for later rules (R195, R197, R202, R205, R209). -/
def commitRec (r : Rec) (s : State) : State :=
  let s := { s with
    record.recs := s.record.recs.filter (fun x => x.id != r.id),
    record.queue := s.record.queue ++ [descriptorOf r],
    record.past := pastOf r s :: s.record.past.take 65535,
    record.lifting := if r.prov then (s.now, some r.seq, r.window s) :: s.record.lifting.filter (fun l => l.1 == s.now) else s.record.lifting,
    record.slots := if r.gen.place = 0 then ⟨r.pos, r.seq, false⟩ :: s.record.slots.filter (fun x => x.pos != r.pos) else s.record.slots }
  let s := showOpening r (raise 0x08 (bump REC_COUNT.COMMITTED s))
  let s := if bit r.flags 4 then fault 0x0401 0 r.seq 0 s else s
  maybeStop (commitSegment r s)

/-! ## Engine commands (R206, R216 to R218) -/

/-- START from STOPPED (R216): sequence numbers start at 0 (R196; DEDUCED, log entry 113). A stream START waits for the exit to RUN (R515), every
START for the Boulevard (R519). -/
def engineStart (s : State) : State :=
  if s.record.running then s
  else if blvHold s || ((com REC_CFG.PLACE s == 1 || mode s == 4) && !(awake s)) then
    { s with record.running := true, record.stopping := false, record.startWaits := true, record.place := 0, record.segs := [],
             record.recs := [] }
  else
    enterPlace (set REC_SEQ.NEXT 0 { s with record.running := true, record.stopping := false, record.segs := [], record.segsDone := [],
                                            record.dead := false })

/-- A START that waited has its effect once nothing holds it back. -/
def startRelease (s : State) : State :=
  if s.record.startWaits && s.record.running && !(blvHold s) && awake s then
    engineStart { s with record.running := false, record.startWaits := false }
  else s

/-- STOP: an armed record without a fire is dropped, and the engine stops when the open records are done; streams write on to the last
beat of the last open record (R216). -/
def engineStop (s : State) : State :=
  if !s.record.running then s
  else if s.record.startWaits then { s with record.running := false, record.startWaits := false }
  else
    let s := dropArmed { s with record.stopping := true }
    let last := s.record.recs.foldl (fun l r => if l < r.last then r.last else l) (avenueBeat s.now)
    maybeStop (if s.record.place = 1 ∨ mode s = 4 then streamsEnd last s else s)

/-- REARM drops an armed SLOT record and arms anew at once (R217). -/
def engineRearm (s : State) : State :=
  if s.record.place = 0 ∧ (armed s).isSome = true then recordArm { dropArmed s with record.dead := false, record.armDue := s.now } else s

/-- Meaning of REARM. -/
def execRearm (s : State) : Host.Outcome State Fault Refusal := .next (engineRearm s)

/-- POP of the commit queue: the head descriptor, or zeros (R206). -/
def cqPop (s : State) : State :=
  match s.record.queue with
  | [] => set (REC_CQ_OUT.WORD 0) 0 (set (REC_CQ_OUT.WORD 1) 0 (set (REC_CQ_OUT.WORD 2) 0 (set (REC_CQ_OUT.WORD 3) 0 s)))
  | d :: rest =>
    let s := { s with record.queue := rest }
    set (REC_CQ_OUT.WORD 0) (nth d 0 0) (set (REC_CQ_OUT.WORD 1) (nth d 1 0) (set (REC_CQ_OUT.WORD 2) (nth d 2 0) (set (REC_CQ_OUT.WORD 3) (nth d 3 0) s)))

/-- Meaning of POP. -/
def execPop (s : State) : Host.Outcome State Fault Refusal := .next (cqPop s)

/-- The record engine at a global abort (R218): every record not yet committed is aborted, every provisional one abandoned, their sequence
numbers are free again, and the engine stops. -/
def recAbort (s : State) : State :=
  let recs := s.record.recs
  let provs := (recs.filter (·.prov)).length
  let n := (recs.filter (fun r => r.phase != .armed && (!r.prov || r.confirmed))).length
  let ran := s.record.running || 0 < n
  let next := match recs.filter (fun r => r.phase == .numbered) with
    | [] => get REC_SEQ.NEXT s
    | r :: rs => (lowest r rs).seq
  let s := { s with
    record.recs := [], record.running := false, record.stopping := false, record.startDue := none, record.startWaits := false,
    record.dead := false,
    record.lifting := (recs.filter (·.prov)).map (fun r => (s.now, none, r.window s)) ++ s.record.lifting.filter (fun l => l.1 == s.now),
    record.streams := s.record.streams.map (fun t =>
      { t with on := false, packed := [], lead := 0, later := none, coming := [], lines := [], issuing := false, drain := none }) }
  let s := set REC_SEQ.NEXT next (set REC_ABORT.COUNT (Nat.min 65535 (get REC_ABORT.COUNT s + n)) s)
  let s := set REC_PROV_ABANDONED.COUNT (get REC_PROV_ABANDONED.COUNT s + provs) s
  if ran then fault 0x0402 0 n 0 s else s

end Sys2Proof.Machine
end

