-- ==== Sys2Proof/Machine/Crossings.lean ====
section
/-! DEFINITION. Levels, crossings and hysteresis (R149 to R153): shared by the trigger units and the decoders. Times are in fraction
LSBs of the unstepped tick count. -/

namespace Sys2Proof.Machine

/-- The sample period of a CONFIG in fraction LSBs (R3, R153, R574). -/
def samplePeriod (cfg : Nat) : Int :=
  match cfg with
  | 2 => 16384
  | 3 => 32768
  | _ => 8192

/-- The sampling instant of sample `k` of beat `b` (R108). -/
def sampleTime (b : Int) (k : Nat) (s : State) : Int := b * beatLsb + k * samplePeriod (activeConfig s) + etOffset s

/-- The deskew of an input, 4 for TRIG_IN, in fraction LSBs (R152, R153). -/
def deskew (i : Nat) (s : State) : Int :=
  signed 16 (app (TRG_CH_DESKEW.DESKEW i) s) * samplePeriod (activeConfig s) / 256

/-- A time on the quantisation grid of trigger timestamps: the fraction LSBs below the step read as zero (R6, R152). -/
def onGrid (t : Int) (s : State) : Int := let step := samplePeriod (activeConfig s) / 256; t / step * step

/-- A detector pair of one level: arming of the rising and the falling detector (R149). -/
structure Arms where
  rise : Bool
  fall : Bool
  deriving DecidableEq, Repr

/-- Whether a step from one sample to the next is a rising or falling crossing of an armed level, and the arming after it. -/
def crossStep (level hyst : Int) (a : Arms) (y1 y0 : Int) : Bool × Bool × Arms :=
  let up := a.rise && y1 < level && level ≤ y0
  let down := a.fall && level < y1 && y0 ≤ level
  (up, down, ⟨(a.rise && !up) || y0 ≤ level - hyst, (a.fall && !down) || level + hyst ≤ y0⟩)

/-- The eight halvings of R150 over a test of the positions 0 to 256. -/
def bisect (test : Int → Bool) : Nat → Int → Int → Int
  | 0, _, hi => hi
  | n + 1, lo, hi =>
    let mid := (lo + hi) / 2
    if test mid then bisect test n lo mid else bisect test n mid hi

/-- The four samples around a crossing: y[k-2], y[k-1], y[k], y[k+1]. -/
structure Around where
  a : Int
  b : Int
  c : Int
  d : Int
  deriving DecidableEq, Repr

/-- The linear interpolant at m/256, times 256 (R150). -/
def linearAt (y : Around) (m : Int) : Int := 256 * y.b + m * (y.c - y.b)

/-- The Lagrange cubic at m/256, times 6 · 256^3 (R150). -/
def cubicAt (y : Around) (m : Int) : Int :=
  -(y.a) * m * (m - 256) * (m - 512) + 3 * y.b * (m + 256) * (m - 256) * (m - 512)
    - 3 * y.c * (m + 256) * m * (m - 512) + y.d * (m + 256) * m * (m - 256)

/-- The position u of a crossing between samples k-1 and k in 1/256 sample (R150, R151). INTERP 3 is reserved: its position is a free
value. -/
def crossPos (interp : Nat) (rising : Bool) (level : Int) (y : Around) : Int :=
  match interp with
  | 0 => bisect (fun m => if rising then 256 * level ≤ linearAt y m else linearAt y m ≤ 256 * level) 8 0 256
  | 1 => bisect (fun m => if rising then 100663296 * level ≤ cubicAt y m else cubicAt y m ≤ 100663296 * level) 8 0 256
  | 2 => 256
  | _ => ((Config.interpReserved [y.a, y.b, y.c, y.d]).val : Int) + 1

/-- The raw time of a crossing between the sample at `tPrev` and the next (R152). -/
def crossTime (tPrev u : Int) (s : State) : Int := tPrev + u * samplePeriod (activeConfig s) / 256

/-- The level of TRIG_IN at an instant, by its edges. -/
def trigLevelAt (t : Int) (s : State) : Bool :=
  match s.trg.edges.find? (fun e => e.1 ≤ t) with
  | some e => e.2
  | none => match s.trg.edges.getLast? with
    | some e => !e.2
    | none => s.trg.trigIn

/-- The edges of TRIG_IN after one instant and up to another, oldest first. -/
def trigEdgesIn (t0 t1 : Int) (s : State) : List (Int × Bool) :=
  (s.trg.edges.filter (fun e => t0 < e.1 && e.1 ≤ t1)).reverse

end Sys2Proof.Machine
end

