-- ==== Sys2Proof/Machine/Decoders.lean ====
section
/-! DEFINITION. The serial-bus decoders (R163 to R165): lines from thresholds, and the protocol engines that emit field results. -/

namespace Sys2Proof.Machine

/-- A field result before delivery (R164). -/
structure FieldOut where
  field : Nat
  index : Nat
  value : Nat
  time : Int
  deriving DecidableEq, Repr

/-- What a protocol engine answers: results in order, and its next state. -/
abbrev DecStep := List FieldOut × DecState

/-- The parameters of a decoder in force: protocol, bit periods in fraction LSBs, DEC_FMT, sync pattern and length, lines in use. -/
structure DecParam where
  proto : Nat
  period : Int
  period2 : Int
  fmt : Nat
  sync : Nat
  syncLen : Nat
  lines : List Nat
  deriving DecidableEq, Repr

/-- The parameters of decoder `n` by the settings in force (R187). -/
def decParam (n : Nat) (s : State) : DecParam :=
  let ln := app (DEC_CFG.LINE n) s
  { proto := app (DEC_CFG.PROTO n) s,
    period := (app (DEC_RATE.PERIOD n) s : Int) * 4096,
    period2 := (app (DEC_RATE2.PERIOD n) s : Int) * 4096,
    fmt := app (DEC_FMT.FMT n) s,
    sync := app (DEC_SYNC.PATTERN n) s,
    syncLen := app (DEC_SYNC.LEN n) s + 1,
    lines := [bits ln 0 4, bits ln 4 4, bits ln 8 4, bits ln 12 4] }

/-- The level of a line of a decoder. -/
def DecState.level (i : Nat) (d : DecState) : Bool := (nth d.lines i {}).level

/-- A list of bits as a number, first bit lowest. -/
def bitsLow : List Bool → Nat
  | [] => 0
  | b :: bs => b2n b + 2 * bitsLow bs

/-- A list of bits as a number, first bit highest. -/
def bitsHigh (l : List Bool) : Nat := bitsLow l.reverse

/-- INDEX saturates at 127 (R165). -/
def nextIndex (i : Nat) : Nat := Nat.min 127 (i + 1)

/-! ## UART and Modbus RTU -/

/-- Data bits, parity and stop bits of DEC_FMT (R187). -/
def uartBits (p : DecParam) : Nat := bits p.fmt 0 4
def uartParity (p : DecParam) : Nat := bits p.fmt 4 2
def uartStops (p : DecParam) : Nat := 1 + bits p.fmt 6 1

/-- Bits of one character, the start bit included. -/
def charBits (p : DecParam) : Nat := 1 + uartBits p + b2n (uartParity p != 0) + uartStops p

/-- The running Modbus CRC over a byte: reflected polynomial 0xA001 (PRESUMED, log entry 17). -/
def modbusCrc (crc b : Nat) : Nat := crcStep 0xA001 8 (crc ^^^ b)

/-- The results of a complete data byte: DATA for UART, by place in the frame for Modbus. For Modbus `acc` is the running CRC, `acc2`
the last two bytes, `run` the bytes of the frame. A result reaches the units a fixed time after its field's last bit (R167), so the byte that
makes the running CRC right gives CRC_OK at once, without awaiting the idle time (DEDUCED, log entry 117). -/
def uartByte (p : DecParam) (d : DecState) (v : Nat) (t : Int) : DecStep :=
  if p.proto = 1 then ([⟨0x08, 0, v, t⟩], d)
  else
    let out : FieldOut := match d.run with
      | 0 => ⟨0x10, 0, v, t⟩
      | 1 => ⟨0x11, 0, v, t⟩
      | n => ⟨0x12, Nat.min 127 (n - 2), v, t⟩
    let d := { d with acc := modbusCrc d.acc v, acc2 := d.acc2 / 256 + v * 256, run := d.run + 1, lastBit := t }
    ([out] ++ (if 4 ≤ d.run ∧ d.acc = 0 then [⟨0x13, 0, d.acc2, t⟩] else []), d)

/-- The end of a character at its stop bit: `ok` when every stop bit was high. A Modbus frame then waits for its idle time. -/
def uartEnd (p : DecParam) (d : DecState) (t : Int) (ok : Bool) : DecStep :=
  let stop := d.start + (charBits p : Int) * p.period
  let err : List FieldOut := if ok then [] else [⟨0x02, 0, if d.bits.any id then 2 else 3, t⟩]
  if p.proto = 1 then (err ++ (if ok then [⟨0x01, 0, 0, t⟩] else []), { d with step := 0, bits := [], next := none, lastEdge := some stop })
  else (err, { d with step := 0, bits := [], lastEdge := some stop, next := some (stop + 7 * (charBits p : Int) * p.period / 2) })

/-- A sampling point of UART or Modbus (R164): bit `i` after the start edge lies at (i + 1.5) bit periods. -/
def uartSample (p : DecParam) (d : DecState) (t : Int) : DecStep :=
  if d.step = 0 then
    -- the idle time of a Modbus frame has passed: a wrong CRC at its last bit, and the end of the frame (R164, R165)
    if d.inFrame then
      let crc : List FieldOut := if d.run < 4 ∨ d.acc = 0 then [] else [⟨0x02, 0, 4, d.lastBit⟩]
      (crc ++ [⟨0x01, 0, 0, t⟩], { d with inFrame := false, next := none })
    else ([], { d with next := none })
  else
    let b := d.level 0
    let i := d.bits.length
    let n := uartBits p
    let par := b2n (uartParity p != 0)
    let d' := { d with bits := d.bits ++ [b], next := some (d.start + (2 * (i : Int) + 5) * p.period / 2) }
    if i + 1 < n then ([], d')
    else if i + 1 = n then uartByte p d' (bitsLow d'.bits) t
    else if i < n + par then
      let odd := (d'.bits.filter id).length % 2 == 1
      ((if odd == (uartParity p == 1) then [⟨0x02, 0, 1, t⟩] else []), d')
    else if !b then uartEnd p d t false
    else if i + 1 = n + par + uartStops p then uartEnd p d' t true
    else ([], d')

/-- A falling edge of the data line: a start bit when no character is under way (R165). -/
def uartEdge (p : DecParam) (d : DecState) (rising : Bool) (t : Int) : DecStep :=
  if rising || d.step != 0 then ([], d)
  else
    let d' := { d with step := 1, bits := [], start := t, next := some (t + 3 * p.period / 2) }
    if p.proto = 1 then ([⟨0x00, 0, 0, t⟩], d')
    else
      let c := (charBits p : Int) * p.period
      let gap := d.lastEdge.map (fun e => t - e)
      let fresh := match gap with | none => true | some g => !d.inFrame && decide (7 * c ≤ 2 * g)
      if fresh then ([⟨0x00, 0, 0, t⟩], { d' with inFrame := true, acc := 0xFFFF, acc2 := 0, run := 0 })
      else if d.inFrame then
        ((if (match gap with | some g => decide (3 * c < 2 * g) | none => false) then [⟨0x02, 0, 5, t⟩] else []), d')
      else ([], d')

/-! ## I2C: `step` 0 first address byte, 1 second address byte, 2 data; `run` 1 while ACK is due; `acc` address, `acc2` the INDEX of
the next ACK -/

/-- A complete byte (R165). -/
def i2cByte (p : DecParam) (d : DecState) (v : Nat) (t : Int) : DecStep :=
  let ten := bit p.fmt 0 && v / 8 == 0b11110
  let d := { d with bits := [], run := 1 }
  match d.step with
  | 0 =>
    if ten then
      let hi := v / 2 % 4 * 256
      if v % 2 = 1 then
        ([⟨0x18, 0, hi + d.acc % 256 + 1024 + 2048, t⟩], { d with step := 2, index := 0, acc2 := 0, acc := hi + d.acc % 256 })
      else ([], { d with step := 1, acc := hi, acc2 := 0 })
    else ([⟨0x18, 0, v / 2 + 2048 * (v % 2), t⟩], { d with step := 2, index := 0, acc2 := 0 })
  | 1 => ([⟨0x18, 0, d.acc / 256 * 256 + v + 1024, t⟩], { d with step := 2, index := 0, acc2 := 0, acc := d.acc / 256 * 256 + v })
  | _ => ([⟨0x19, d.index, v, t⟩], { d with acc2 := nextIndex d.index, index := nextIndex d.index })

/-- An edge of SCL (line 0) or SDA (line 1). -/
def i2cEdge (p : DecParam) (d : DecState) (line : Nat) (rising : Bool) (t : Int) : DecStep :=
  if line = 1 ∧ d.level 0 = true then
    let inside : List FieldOut := if d.inFrame && (2 ≤ d.bits.length || d.run == 1) then [⟨0x02, 0, 6, t⟩] else []
    if rising then
      if d.inFrame then (inside ++ [⟨0x01, 0, 0, t⟩], { d with inFrame := false, bits := [], run := 0 }) else ([], d)
    else
      let d' := { d with inFrame := true, bits := [], run := 0, step := 0, index := 0 }
      if d.inFrame then (inside ++ [⟨0x1B, 0, 0, t⟩], d') else ([⟨0x00, 0, 0, t⟩], { d' with acc := 0 })
  else if line = 0 ∧ rising = true ∧ d.inFrame = true then
    if d.run = 1 then ([⟨0x1A, d.acc2, b2n (d.level 1), t⟩], { d with run := 0 })
    else
      let bs := d.bits ++ [d.level 1]
      if bs.length = 8 then i2cByte p d (bitsHigh bs) t else ([], { d with bits := bs })
  else ([], d)

/-! ## SPI: `bits` MOSI, `acc` MISO bits as a number with the first bit highest -/

/-- The end of a frame: an incomplete word is an error (R165). -/
def spiEnd (d : DecState) (t : Int) : DecStep :=
  ((if d.bits.isEmpty then [] else [⟨0x02, 0, 7, t⟩]) ++ [⟨0x01, 0, 0, t⟩], { d with inFrame := false, bits := [], acc := 0, next := none })

/-- A number of `n` bits with the first bit highest, as the word that the bit order of DEC_FMT makes of it. -/
def spiWord (p : DecParam) (n v : Nat) : Nat :=
  if bit p.fmt 8 then v else bitsLow ((List.range n).map (fun i => bit v (n - 1 - i)))

/-- An edge of SCLK (line 0) or of the select (line 1), whose asserted level is low. -/
def spiEdge (p : DecParam) (d : DecState) (line : Nat) (rising : Bool) (t : Int) : DecStep :=
  let noSel := bit p.fmt 9
  if line = 1 ∧ noSel = false then
    if rising then (if d.inFrame then spiEnd d t else ([], d))
    else ([⟨0x00, 0, 0, t⟩], { d with inFrame := true, bits := [], acc := 0, index := 0 })
  else if line = 0 ∧ (noSel = true ∨ d.inFrame = true) then
    let idle := (bits p.fmt 16 16 : Int) * 4 * 65536
    let pre : List FieldOut := if noSel && !d.inFrame then [⟨0x00, 0, 0, t⟩] else []
    let d := if noSel then
        (if d.inFrame then { d with next := some (t + idle) }
         else { d with inFrame := true, bits := [], acc := 0, index := 0, next := some (t + idle) })
      else d
    if rising == (bit p.fmt 6 == bit p.fmt 7) then
      let len := bits p.fmt 0 6
      let bs := d.bits ++ [d.level 2]
      let mi := d.acc * 2 + b2n (d.level 3)
      if bs.length = len then
        let mosi : List FieldOut := if nth p.lines 2 7 = 7 then [] else [⟨0x20, d.index, spiWord p len (bitsHigh bs), t⟩]
        let miso : List FieldOut := if nth p.lines 3 7 = 7 then [] else [⟨0x21, d.index, spiWord p len mi, t⟩]
        (pre ++ mosi ++ miso, { d with bits := [], acc := 0, index := nextIndex d.index })
      else (pre, { d with bits := bs, acc := mi })
    else (pre, d)
  else ([], d)

/-! ## CAN (ISO 11898-1; bit stuffing, layout and CRC polynomials PRESUMED, log entry 17). `step` 0 wait for 11 recessive bits, 1 idle, 2 stuffed
part, 3 FD CRC part, 4 tail; `bits` the bits without stuff bits, `run` equal bits so far, `acc` position in the CRC part or tail,
`acc2` stuff bits seen, `acc3` 1 when the last bit was recessive -/

/-- Data bytes of a DLC. -/
def canBytes (fd : Bool) (dlc : Nat) : Nat :=
  if dlc ≤ 8 then dlc
  else if !fd then 8
  else match dlc with | 9 => 12 | 10 => 16 | 11 => 20 | 12 => 24 | 13 => 32 | 14 => 48 | _ => 64

/-- Layout of a frame from its bits so far: whether extended, FD, with BRS, the position of the DLC, and the end of the data. -/
structure CanLayout where
  ext : Bool
  fd : Bool
  brs : Bool
  dlcAt : Nat
  dataAt : Nat
  dataEnd : Nat
  deriving DecidableEq, Repr

/-- The layout, judged on the bits there are. -/
def canLayout (b : List Bool) : CanLayout :=
  let ext := b.getD 13 false
  let fd := b.getD (if ext then 33 else 14) false
  let dlcAt := match ext, fd with | false, false => 15 | false, true => 18 | true, false => 35 | true, true => 37
  let brs := fd && b.getD (if ext then 35 else 16) false
  let dlc := bitsHigh ((b.drop dlcAt).take 4)
  let rtr := !fd && b.getD (if ext then 32 else 12) false
  ⟨ext, fd, brs, dlcAt, dlcAt + 4, dlcAt + 4 + (if rtr then 0 else 8 * canBytes fd dlc)⟩

/-- Bits with stuff bits put in after every five equal ones, as the FD CRC covers them. -/
def canStuff : Nat → Bool → List Bool → List Bool
  | _, _, [] => []
  | run, last, b :: bs =>
    let r := if b = last then run + 1 else 1
    if r = 5 && !bs.isEmpty then b :: (!b) :: canStuff 1 (!b) bs else b :: canStuff r b bs

/-- The CRC of a frame's bits: 15 bits over the bits without stuffing, or the FD CRC of 17 or 21 bits over the stuffed bits and the
stuff count. -/
def canCrc (l : CanLayout) (body : List Bool) (count : List Bool) : Nat :=
  if !l.fd then crcBits 15 0x4599 0 body
  else if l.dataEnd - l.dataAt ≤ 128 then crcBits 17 0x1685B 0x10000 (canStuff 0 true body ++ count)
  else crcBits 21 0x102899 0x100000 (canStuff 0 true body ++ count)

/-- Width of the CRC field. -/
def canCrcWidth (l : CanLayout) : Nat := if !l.fd then 15 else if l.dataEnd - l.dataAt ≤ 128 then 17 else 21

/-- An error result; the decoder then waits for 11 recessive bits. -/
def canError (code : Nat) (d : DecState) (t : Int) : DecStep :=
  ([⟨0x02, 0, code, t⟩], { d with step := 0, inFrame := false, bits := [], run := 0 })

/-- The results that the newest bit of the stuffed part completes (R165). -/
def canFields (b : List Bool) (t : Int) : List FieldOut :=
  let n := b.length
  let l := canLayout b
  let id : List FieldOut :=
    if n = 14 && !l.ext then [⟨0x28, 0, bitsHigh ((b.drop 1).take 11) + 2 ^ 30 * b2n (b.getD 12 false), t⟩]
    else if n = 33 && l.ext then
      [⟨0x28, 0, bitsHigh ((b.drop 1).take 11) * 2 ^ 18 + bitsHigh ((b.drop 14).take 18) + 2 ^ 29 + 2 ^ 30 * b2n (b.getD 32 false), t⟩]
    else []
  let ctl : List FieldOut :=
    if n = l.dlcAt + 4 && 15 ≤ l.dlcAt && 19 ≤ n then
      [⟨0x29, 0, bitsHigh ((b.drop l.dlcAt).take 4) + 16 * b2n l.fd + 32 * b2n l.brs +
        64 * b2n (l.fd && b.getD (l.dlcAt - 1) false), t⟩] else []
  let dat : List FieldOut :=
    if l.dataAt < n && n ≤ l.dataEnd && (n - l.dataAt) % 8 == 0 then
      [⟨0x2A, (n - l.dataAt) / 8 - 1, bitsHigh (b.drop (n - 8)), t⟩] else []
  id ++ ctl ++ dat

/-- The CRC result of a frame whose CRC bits are all there. -/
def canCrcResult (l : CanLayout) (body count got : List Bool) (t : Int) : FieldOut :=
  if bitsHigh got = canCrc l body count then ⟨0x2B, 0, bitsHigh got, t⟩ else ⟨0x02, 0, 9, t⟩

/-- Whether a position of the FD CRC part holds a fixed stuff bit. -/
def canFixed (i : Nat) : Bool := i % 5 == 0

/-- The bit period in force at the sample just taken: the data-phase period from the BRS bit up to the CRC delimiter. -/
def canPeriod (p : DecParam) (d : DecState) : Int :=
  let l := canLayout d.bits
  if ((d.step = 2 ∧ (if l.ext then 36 else 17) ≤ d.bits.length) ∨ d.step = 3 ∨ (d.step = 4 ∧ d.acc = 0)) ∧ l.brs = true then p.period2
  else p.period

/-- One sampled bit; recessive is true. -/
def canBit (p : DecParam) (d : DecState) (b : Bool) (t : Int) : DecStep :=
  match d.step with
  | 0 =>
    let r := if b then d.run + 1 else 0
    if 11 ≤ r then ([], { d with step := 1, run := 0, next := none }) else ([], { d with run := r })
  | 2 =>
    if d.run = 5 then
      if b == (d.acc3 == 1) then canError (if b then 8 else 11) d t
      else
        let d := { d with run := 1, acc3 := b2n b, acc2 := d.acc2 + 1 }
        let l := canLayout d.bits
        if !l.fd && d.bits.length = l.dataEnd + 15 then ([], { d with step := 4, acc := 0 }) else ([], d)
    else
      let bs := d.bits ++ [b]
      let d := { d with bits := bs, run := if b == (d.acc3 == 1) then d.run + 1 else 1, acc3 := b2n b }
      let l := canLayout bs
      if bs.length < 19 then (canFields bs t, d)
      else if l.fd && !(bit p.fmt 8) then ([], { d with step := 0, inFrame := false, bits := [], run := 0 })
      else if l.fd && bs.length = l.dataEnd then (canFields bs t, { d with step := 3, acc := 0 })
      else if !l.fd && bs.length = l.dataEnd + 15 then
        let out := canCrcResult l (bs.take l.dataEnd) [] (bs.drop l.dataEnd) t
        ([out], if d.run = 5 then d else { d with step := 4, acc := 0 })
      else (canFields bs t, d)
  | 3 =>
    let l := canLayout d.bits
    if canFixed d.acc && b == (d.acc3 == 1) then canError 8 d t
    else
      let bs := if canFixed d.acc then d.bits else d.bits ++ [b]
      let d := { d with bits := bs, acc := d.acc + 1, acc3 := b2n b }
      if bs.length = l.dataEnd + 4 + canCrcWidth l then
        let count := (bs.drop l.dataEnd).take 4
        ([canCrcResult l (bs.take l.dataEnd) count (bs.drop (l.dataEnd + 4)) t], { d with step := 4, acc := 0 })
      else ([], d)
  | 4 =>
    -- CRC delimiter, ACK slot, ACK delimiter, seven bits of EOF
    let d' := { d with acc := d.acc + 1 }
    if d.acc = 1 then ([⟨0x2C, 0, b2n b, t⟩], d')
    else if !b then canError 10 d t
    else if d.acc = 9 then ([⟨0x01, 0, 0, t⟩], { d with step := 1, inFrame := false, bits := [], run := 0, next := none })
    else ([], d')
  | _ => ([], { d with next := none })

/-- A sampling point of CAN. -/
def canSample (p : DecParam) (d : DecState) (t : Int) : DecStep :=
  let r := canBit p d (d.level 0) t
  (r.1, match r.2.next with
    | none => r.2
    | some _ => { r.2 with next := some (t + canPeriod p r.2) })

/-- An edge of the RX line: start of frame when idle, else resynchronisation by at most a tenth of a bit (R163). -/
def canEdge (p : DecParam) (d : DecState) (rising : Bool) (t : Int) : DecStep :=
  let sp : Int := bits p.fmt 0 7
  if rising then ([], d)
  else if d.step = 1 then
    ([⟨0x00, 0, 0, t⟩], { d with step := 2, inFrame := true, bits := [], run := 0, acc := 0, acc2 := 0, acc3 := 1, start := t,
                                 next := some (t + p.period * sp / 100) })
  else match d.next with
    | none => ([], { d with next := some (t + p.period * sp / 100) })
    | some nx =>
      let per := canPeriod p d
      let e := t - (nx - per * sp / 100)
      let e := if per < 2 * e then e - per else e
      ([], { d with next := some (nx + clip (-(per / 10)) (per / 10) e) })

/-! ## Manchester and NRZ: `bits` the newest bits last; in a frame those of the open word -/

/-- Bits of idle that end a frame. -/
def idleBits (p : DecParam) : Int := bits p.fmt 8 8

/-- One decoded bit: sync pattern while hunting, words in a frame (R165). -/
def lineBit (p : DecParam) (d : DecState) (b : Bool) (t : Int) : DecStep :=
  if d.inFrame then
    let bs := d.bits ++ [b]
    if bs.length = bits p.fmt 0 6 then
      ([⟨0x30, d.index, if bit p.fmt 6 then bitsHigh bs else bitsLow bs, t⟩], { d with bits := [], index := nextIndex d.index })
    else ([], { d with bits := bs })
  else
    let bs := (d.bits ++ [b]).drop ((d.bits.length + 1) - p.syncLen)
    if bs.length = p.syncLen ∧ bitsLow bs = p.sync % 2 ^ p.syncLen then
      ([⟨0x00, 0, 0, d.lastEdge.getD t⟩], { d with inFrame := true, bits := [], index := 0 })
    else ([], { d with bits := bs })

/-- The end of a frame after IDLE bits without a transition. -/
def lineIdle (d : DecState) (t : Int) : DecStep :=
  ([⟨0x01, 0, 0, t⟩], { d with inFrame := false, bits := [], next := none, step := 0 })

/-- A sampling point of NRZ: the bit centre. -/
def nrzSample (p : DecParam) (d : DecState) (t : Int) : DecStep :=
  match d.lastEdge with
  | some e =>
    if d.inFrame ∧ idleBits p ≠ 0 ∧ idleBits p * p.period ≤ t - e then lineIdle d t
    else
      let r := lineBit p d (d.level 0) t
      (r.1, { r.2 with next := some (t + p.period) })
  | none => ([], { d with next := none })

/-- A transition of an NRZ line restarts the bit clock. -/
def nrzEdge (p : DecParam) (d : DecState) (t : Int) : DecStep := ([], { d with lastEdge := some t, next := some (t + p.period / 2) })

/-- A transition of a Manchester line: a mid-bit transition carries a bit, one at a bit boundary none; in a frame a missing mid-bit
transition is a violation (R165). `start` holds the last mid-bit transition, `step` is 1 once there has been one. -/
def manchesterEdge (p : DecParam) (d : DecState) (rising : Bool) (t : Int) : DecStep :=
  let el := t - d.start
  let idle : Option Int := if idleBits p = 0 then none else some (t + idleBits p * p.period)
  let d := { d with lastEdge := some t }
  if d.step = 1 ∧ 4 * el < 3 * p.period then ([], { d with next := idle })
  else
    let viol : List FieldOut := if d.inFrame && 5 * p.period < 4 * el then [⟨0x02, 0, 12, t⟩] else []
    let r := lineBit p { d with start := t, step := 1 } (rising != bit p.fmt 7) t
    (viol ++ r.1, { r.2 with next := idle })

/-- The idle time of a Manchester line has passed. -/
def manchesterSample (d : DecState) (t : Int) : DecStep :=
  if d.inFrame then lineIdle d t else ([], { d with next := none, step := 0 })

/-! ## The engines driven by samples and edges -/

/-- A sampling point falls due. -/
def decSample (p : DecParam) (d : DecState) (t : Int) : DecStep :=
  match p.proto with
  | 1 => uartSample p d t
  | 2 => uartSample p d t
  | 4 => if d.inFrame then spiEnd d t else ([], { d with next := none })
  | 5 => canSample p d t
  | 6 => manchesterSample d t
  | 7 => nrzSample p d t
  | _ => ([], { d with next := none })

/-- Sampling points up to an instant, at most `fuel` of them. -/
def decAdvance (p : DecParam) (t : Int) : Nat → DecState → DecStep
  | 0, d => ([], d)
  | n + 1, d =>
    match d.next with
    | none => ([], d)
    | some nx =>
      if nx ≤ t then
        let r := decSample p d nx
        let r2 := decAdvance p t n r.2
        (r.1 ++ r2.1, r2.2)
      else ([], d)

/-- An edge on a line, after the sampling points before it; the line's level changes first for no engine's samples. -/
def decEdge (p : DecParam) (line : Nat) (rising : Bool) (t : Int) (d : DecState) : DecStep :=
  let a := decAdvance p (t - 1) 64 d
  let d := { a.2 with lines := modifyNth (fun l => { l with level := rising }) line a.2.lines }
  let r := match p.proto with
    | 1 => if line = 0 then uartEdge p d rising t else ([], d)
    | 2 => if line = 0 then uartEdge p d rising t else ([], d)
    | 3 => i2cEdge p d line rising t
    | 4 => spiEdge p d line rising t
    | 5 => if line = 0 then canEdge p d rising t else ([], d)
    | 6 => if line = 0 then manchesterEdge p d rising t else ([], d)
    | 7 => if line = 0 then nrzEdge p d t else ([], d)
    | _ => ([], d)
  (a.1 ++ r.1, r.2)

/-- Samples per bit or half-period that R163 asks for, from a period in 1/16 tick. -/
def rateOk (period cfg : Nat) : Bool := 8 * (samplePeriod cfg).toNat ≤ period * 4096

/-- Whether a decoder's settings lie beyond its limits (R163) or name a reserved line (R187). I2C and SPI carry no rate setting, so their
clocks are not judged. -/
def decInvalid (n : Nat) (m : List (Nat × Nat)) (cfg : Nat) : Bool :=
  let ln := regGet (DEC_CFG.LINE n) m
  let per := regGet (DEC_RATE.PERIOD n) m
  let per2 := regGet (DEC_RATE2.PERIOD n) m
  let fmt := regGet (DEC_FMT.FMT n) m
  (List.range 4).any (fun i => let l := bits ln (4 * i) 4; l == 5 || l == 6 || 8 ≤ l) ||
  (match regGet (DEC_CFG.PROTO n) m with
   | 1 => !(rateOk per cfg) || per < 3277 || bits fmt 0 4 < 5 || 9 < bits fmt 0 4 || bits fmt 4 2 == 3
   | 2 => !(rateOk per cfg) || per < 3277 || bits fmt 0 4 != 8 || bits fmt 4 2 == 3
   | 4 => bits fmt 0 6 < 4 || 32 < bits fmt 0 6
   | 5 => !(rateOk per cfg) || per < 65536 || bits fmt 0 7 < 50 || 90 < bits fmt 0 7 ||
      (bit fmt 8 && (!(rateOk per2 cfg) || per2 < 8192))
   | 6 => !(rateOk per cfg) || per < 328 || bits fmt 0 6 == 0 || 32 < bits fmt 0 6
   | 7 => !(rateOk per cfg) || per < 328 || bits fmt 0 6 == 0 || 32 < bits fmt 0 6
   | _ => false)

/-- Whether a decoder that is on has a line on an input without a beat stream (R148). -/
def decNoSource (n : Nat) (m : List (Nat × Nat)) (s : State) : Bool :=
  let ln := regGet (DEC_CFG.LINE n) m
  regGet (DEC_CFG.PROTO n) m != 0 &&
  (List.range 4).any (fun i => let l := bits ln (4 * i) 4; l < 4 && !(hasStream (activeConfig s) l { s with applied := m }))

/-- Whether a decoder works by its settings in force: a protocol, within its limits, and a beat stream for each channel its lines name (R148,
R163). -/
def decActive (n : Nat) (s : State) : Bool :=
  app (DEC_CFG.PROTO n) s != 0 && !(decInvalid n s.applied (activeConfig s)) && !(decNoSource n s.applied s)

/-- The edges that one sample step shows on a line taken from an input (R149, R150): the arming after it and at most one edge, with the
line's inversion applied. -/
def lineStep (n i : Nat) (y1 y0 : Int) (tPrev : Int) (l : LineState) (s : State) : Option (Bool × Int) × LineState :=
  let ch := nth (decParam n s).lines i 7
  let thr := signed 12 (app (TRG_CH_THR.THR ch) s)
  let hys : Int := app (TRG_CH_THR.HYS ch) s
  let inv := bit (app (DEC_CFG.INV n) s) i
  let c := crossStep thr hys ⟨l.armR, l.armF⟩ y1 y0
  let l' := { l with armR := c.2.2.rise, armF := c.2.2.fall }
  let pos := fun (r : Bool) => crossTime tPrev (crossPos 0 r thr ⟨y1, y1, y0, y0⟩) s - deskew ch s
  if !l.seen then (none, { l' with seen := true, level := (decide (thr ≤ y0)) != inv })
  else if c.1 then (some (true != inv, pos true), l')
  else if c.2.1 then (some (false != inv, pos false), l')
  else (none, l')

/-- Inserts an edge by time. -/
def insertEdge (e : Int × Nat × Bool) : List (Int × Nat × Bool) → List (Int × Nat × Bool)
  | [] => [e]
  | x :: xs => if e.1 < x.1 then e :: x :: xs else x :: insertEdge e xs

/-- One sample step of a decoder: the edges of its lines in order of their times, then the sampling points up to the sample. DEDUCED: log entry 37. -/
def decStepSample (n : Nat) (inputs : Nat → Option (Int × Int)) (tPrev tNow : Int) (s : State) (d : DecState) : DecStep :=
  let p := decParam n s
  let found := (List.range 4).foldl (fun (acc : List (Int × Nat × Bool) × DecState) i =>
    let ch := nth p.lines i 7
    if ch = 4 then
      let inv := bit (app (DEC_CFG.INV n) s) i
      let es := (trigEdgesIn tPrev tNow s).map (fun e => (e.1 - deskew 4 s, i, e.2 != inv))
      let d' := if (nth acc.2.lines i {}).seen then acc.2
        else { acc.2 with lines := modifyNth (fun l => { l with seen := true, level := trigLevelAt tPrev s != inv }) i acc.2.lines }
      (es.foldl (fun l e => insertEdge e l) acc.1, d')
    else match inputs ch with
      | none => acc
      | some (y1, y0) =>
        let r := lineStep n i y1 y0 tPrev (nth acc.2.lines i {}) s
        let d' := { acc.2 with lines := modifyNth (fun _ => r.2) i acc.2.lines }
        (match r.1 with | some e => insertEdge (e.2, i, e.1) acc.1 | none => acc.1, d')) ([], d)
  let run := found.1.foldl (fun (acc : DecStep) e =>
    let r := decEdge p e.2.1 e.2.2 e.1 acc.2
    (acc.1 ++ r.1, r.2)) ([], found.2)
  let last := decAdvance p (tNow - deskew (nth p.lines 0 7) s) 64 run.2
  (run.1 ++ last.1, last.2)

end Sys2Proof.Machine
end

