-- ==== Sys2Proof/Machine/Detect.lean ====
section
/-! DEFINITION. What each trigger unit detects on the beats (R146 to R156, R160): crossings become hits, which wait for their decision
slot. -/

namespace Sys2Proof.Machine

/-! ## Settings and their checks (R147, R148, R155, R156, R158, R163, R166) -/

/-- Whether speculation has a meaning in the mode in effect (R160). -/
def specMode (s : State) : Bool := mode s == 0 || mode s == 1 || mode s == 5

/-- Whether a unit speculates: SPEC in force, a FIRE unit, a mode that speculates (R146, R160). -/
def specOn (n : Nat) (s : State) : Bool := app (TRG_CTRL.SPEC n) s == 1 && app (TRG_CTRL.ROLE n) s == 0 && specMode s

/-- Whether a unit's own qualified type speculates; under TRG_SEQ.EN the sequence does (R160). -/
def specOwn (n : Nat) (s : State) : Bool := specOn n s && app (TRG_SEQ.EN n) s == 0

/-- Types that look at an input (R147). -/
def analogType (t : Nat) : Bool := t ≤ 5

/-- CODE of pattern term `i` (R156). -/
def patCode (n i : Nat) (m : List (Nat × Nat)) : Nat := bits (regGet (TRG_PAT.CODE n) m) (2 * i) 2

/-- The DATA fields, which SPAN may join (R166). -/
def isDataField (f : Nat) : Bool := f == 0x08 || f == 0x12 || f == 0x19 || f == 0x2A

/-- Whether a unit's settings break a rule of this chapter (R147, R155, R156, R158, R166). -/
def trgInvalid (n : Nat) (m : List (Nat × Nat)) : Bool :=
  let t := regGet (TRG_CTRL.TYPE n) m
  let sl := regGet (TRG_CTRL.SLOPE n) m
  let measured := t == 2 || t == 4 || t == 5 || (t == 6 && regGet (TRG_PAT.DUR n) m == 1)
  let codes := (List.range 5).map (fun i => patCode n i m)
  12 ≤ t
  || (analogType t && 4 ≤ regGet (TRG_CTRL.SRC n) m)
  || ((t == 1 || t == 3 || t == 4) && signed 12 (regGet (TRG_LEVEL.LVL_A n) m) ≤ signed 12 (regGet (TRG_LEVEL.LVL_B n) m))
  || (measured && 2 ≤ regGet (TRG_CTRL.COND n) m && regGet (TRG_T2.T2 n) m < regGet (TRG_T1.T1 n) m)
  || ((t ≤ 6 || t == 8) && sl == 3) || (t == 2 && sl == 2)
  || (t == 6 && (1 < (codes.filter (fun c => c == 3)).length || codes.all (fun c => c == 0)))
  || (regGet (TRG_SEQ.EN n) m == 1 && (regGet (TRG_SEQ.A_UNIT n) m == n ||
        regGet (TRG_SEQ.C_UNIT n) m == n))
  || (t == 7 && 0 < regGet (TRG_SER.SPAN n) m && !(isDataField (regGet (TRG_SER.FIELD n) m)))

/-- Whether a unit's source or a term of its pattern names an input without a beat stream (R148). -/
def trgNoSrc (n : Nat) (m : List (Nat × Nat)) (s : State) : Bool :=
  let t := regGet (TRG_CTRL.TYPE n) m
  let cfg := activeConfig s
  let s := { s with applied := m }
  (analogType t && !(hasStream cfg (regGet (TRG_CTRL.SRC n) m) s)) ||
  (t == 6 && (List.range 4).any (fun i => patCode n i m != 0 && !(hasStream cfg i s)))

/-- A status flag that a commit or a swap judges: `log` says whether it is logged when it holds (0x0301); a commit logs each one that holds, a
swap each new one (DEDUCED, log entry 38). -/
def judgeFlag (commit was bad log : Bool) (unit : Nat) (s : State) : State :=
  if bad && log && (commit || !was) then fault 0x0301 unit 0 0 s else s

/-- What a commit or a swap judges of the trigger units and decoders by the committed settings (R147, R148, R155, R156, R158, R163, R166,
R187). -/
def judgeTrigger (commit : Bool) (s : State) : State :=
  let m := s.committed
  let s := (List.range 4).foldl (fun s n =>
    let en := regGet (TRG_CTRL.ENABLE n) m == 1
    let bad := trgInvalid n m
    let ns := trgNoSrc n m s
    let s := judgeFlag commit (on (TRG_STAT.CFG_ERR n) s) bad en n s
    let s := judgeFlag commit (on (TRG_STAT.NO_SRC n) s) ns (en && !bad) n s
    setB (TRG_STAT.CFG_ERR n) bad (setB (TRG_STAT.NO_SRC n) ns s)) s
  (List.range 4).foldl (fun s n =>
    let bad := decInvalid n m (activeConfig s)
    let ns := decNoSource n m s
    let s := judgeFlag commit (on (DEC_STAT.CFG_ERR n) s) bad true (4 + n) s
    let s := judgeFlag commit (nth s.trg.decNoSrc n false) ns (!bad) (4 + n) s
    setB (DEC_STAT.CFG_ERR n) bad { s with trg.decNoSrc := s.trg.decNoSrc.set n ns }) s

/-- Whether a unit detects by its settings in force: ENABLE, and nothing that forbids it (R146, R148, R155). -/
def unitOn (n : Nat) (s : State) : Bool :=
  app (TRG_CTRL.ENABLE n) s == 1 && !(trgInvalid n s.applied) && !(trgNoSrc n s.applied s)

/-! ## Durations -/

/-- Whether a duration meets COND; all in fraction LSBs. -/
def meets (cond : Nat) (t1 t2 d : Int) : Bool :=
  match cond with
  | 0 => d < t1
  | 1 => t1 < d
  | 2 => t1 ≤ d && d ≤ t2
  | _ => d < t1 || t2 < d

/-- What elapsed time alone settles while a pulse is open: a verdict and the elapsed time of its first instant (R160). -/
def settles (cond : Nat) (t1 t2 d : Int) : Option (Bool × Int) :=
  match cond with
  | 0 => if t1 ≤ d then some (false, t1) else none
  | 1 => if t1 < d then some (true, t1) else none
  | 2 => if t2 < d then some (false, t2) else none
  | _ => if t2 < d then some (true, t2) else none

/-! ## Units on one sample -/

/-- A crossing of one of a unit's levels: of LVL_A or LVL_B, rising or falling, at a raw time (R149, R152). -/
structure Crossing where
  isA : Bool
  rising : Bool
  raw : Int
  deriving DecidableEq, Repr

/-- A found condition, before its slot is known. -/
abbrev Found := HitKind × Int × Int

/-- What a unit's detection needs of its settings, in fraction LSBs. -/
structure UnitParam where
  type : Nat
  slope : Nat
  cond : Nat
  t1 : Int
  t2 : Int
  spec : Bool
  skew : Int
  deriving DecidableEq, Repr

/-- The parameters in force of a unit. -/
def unitParam (n : Nat) (s : State) : UnitParam :=
  { type := app (TRG_CTRL.TYPE n) s, slope := app (TRG_CTRL.SLOPE n) s, cond := app (TRG_CTRL.COND n) s,
    t1 := 65536 * (app (TRG_T1.T1 n) s : Int), t2 := 65536 * (app (TRG_T2.T2 n) s : Int), spec := specOwn n s,
    skew := deskew (app (TRG_CTRL.SRC n) s) s }

/-- An opening: a candidate under speculation. DEDUCED: log entry 13. -/
def openHit (p : UnitParam) (raw : Int) : List Found := if p.spec then [(.opening, raw, raw - p.skew)] else []

/-- The end of an open condition: a confirm or a failure of the candidate, or without speculation a condition when it is met. -/
def closeHit (p : UnitParam) (o : Opening) (ok : Bool) (raw : Int) : List Found :=
  if p.spec then (if o.settled then [] else [(if ok then .confirm o.time else .fail o.time, raw, raw - p.skew)])
  else if ok then [(.cond, raw, raw - p.skew)] else []

/-- One direction of a qualified type: whether a crossing opens, breaks or closes it, and whether its duration is judged. -/
def qualify (p : UnitParam) (opens breaks closes judged : Bool) (raw : Int) (o : Option Opening) : List Found × Option Opening :=
  if opens then (openHit p raw, some ⟨raw, raw - p.skew, false⟩)
  else match o with
    | none => ([], none)
    | some w =>
      if breaks then (closeHit p w false raw, none)
      else if closes then (closeHit p w (!judged || meets p.cond p.t1 p.t2 (raw - w.raw)) raw, none)
      else ([], some w)

/-- The types that a crossing decides (R155); `openA` belongs to the SLOPE 0 direction, `openB` to the SLOPE 1 direction. -/
def crossUnit (p : UnitParam) (c : Crossing) (u : UnitState) : List Found × UnitState :=
  let up := p.slope != 1
  let down := p.slope != 0
  let hit : List Found := [(.cond, c.raw, c.raw - p.skew)]
  let riseA := c.isA && c.rising
  let fallA := c.isA && !c.rising
  let riseB := !c.isA && c.rising
  let fallB := !c.isA && !c.rising
  match p.type with
  | 0 => (if (up && riseA) || (down && fallA) then hit else [], u)
  | 1 => (if (up && (fallA || riseB)) || (down && (riseA || fallB)) then hit else [], u)
  | 2 =>
    let r := if p.slope = 1 then qualify p fallA false riseA true c.raw u.openA else qualify p riseA false fallA true c.raw u.openA
    (r.1, { u with openA := r.2 })
  | 3 =>
    let a := if up then qualify p riseB riseA fallB false c.raw u.openA else ([], none)
    let b := if down then qualify p fallA fallB riseA false c.raw u.openB else ([], none)
    (a.1 ++ b.1, { u with openA := a.2, openB := b.2 })
  | 4 =>
    let a := if up then qualify p riseB fallB riseA true c.raw u.openA else ([], none)
    let b := if down then qualify p fallA riseA fallB true c.raw u.openB else ([], none)
    (a.1 ++ b.1, { u with openA := a.2, openB := b.2 })
  | 5 =>
    if (up && riseA) || (down && fallA) then
      let old := match u.openA with
        | some w => closeHit p w (meets p.cond p.t1 p.t2 (c.raw - w.raw)) c.raw
        | none => []
      (old ++ openHit p c.raw, { u with openA := some ⟨c.raw, c.raw - p.skew, false⟩ })
    else ([], u)
  | _ => ([], u)

/-- Elapsed time settles an open pulse or pattern under speculation (R160): the verdict's own instant is its time. -/
def elapse (p : UnitParam) (tNow : Int) (o : Option Opening) : List Found × Option Opening :=
  match o with
  | none => ([], none)
  | some w =>
    if !p.spec || w.settled then ([], o)
    else match settles p.cond p.t1 p.t2 (tNow - w.raw) with
      | none => ([], o)
      | some (ok, t) =>
        ([(if ok then .confirm w.time else .fail w.time, w.raw + t, w.raw + t - p.skew)], some { w with settled := true })

/-- Inserts a crossing by raw time; equal times keep their order. -/
def insertCrossing (c : Crossing) : List Crossing → List Crossing
  | [] => [c]
  | x :: xs => if c.raw < x.raw then c :: x :: xs else x :: insertCrossing c xs

/-- The crossings of a unit's two levels between two samples, in order of time: a rising step meets LVL_B before LVL_A. -/
def unitCrossings (n : Nat) (y : Around) (tPrev : Int) (u : UnitState) (s : State) : List Crossing × UnitState :=
  let la := signed 12 (app (TRG_LEVEL.LVL_A n) s)
  let lb := signed 12 (app (TRG_LEVEL.LVL_B n) s)
  let h : Int := app (TRG_HYST.HYST n) s
  let ip := app (TRG_CTRL.INTERP n) s
  let ca := crossStep la h ⟨u.armRA, u.armFA⟩ y.b y.c
  let cb := crossStep lb h ⟨u.armRB, u.armFB⟩ y.b y.c
  let at' := fun (isA r : Bool) (l : Int) => Crossing.mk isA r (crossTime tPrev (crossPos ip r l y) s)
  let l := (if cb.1 then [at' false true lb] else []) ++ (if ca.1 then [at' true true la] else []) ++
    (if ca.2.1 then [at' true false la] else []) ++ (if cb.2.1 then [at' false false lb] else [])
  (l.foldl (fun acc c => insertCrossing c acc) [],
   { u with armRA := ca.2.2.rise, armFA := ca.2.2.fall, armRB := cb.2.2.rise, armFB := cb.2.2.fall })

/-- One sample of a unit of an input type. -/
def stepAnalog (n : Nat) (y : Around) (tPrev tNow : Int) (s : State) (u : UnitState) : List Found × UnitState :=
  let p := unitParam n s
  let c := unitCrossings n y tPrev u s
  let r := c.1.foldl (fun (acc : List Found × UnitState) x =>
    let e := crossUnit p x acc.2
    (acc.1 ++ e.1, e.2)) ([], c.2)
  if p.type = 2 then
    let e := elapse p tNow r.2.openA
    (r.1 ++ e.1, { r.2 with openA := e.2 })
  else r

/-! ## Patterns (R156) -/

/-- One term of a pattern at a sample: its logic level, its two detectors, and an edge of either direction with its raw time. -/
structure TermStep where
  level : Bool
  armR : Bool
  armF : Bool
  edge : Option (Bool × Int)
  skew : Int
  deriving DecidableEq, Repr

/-- A term on an input: THR and HYS of the input, INTERP of the unit; a term not yet seen takes its level from the sample. -/
def inputTerm (n i : Nat) (y : Option Around) (tPrev : Int) (old : Option (Bool × Bool × Bool)) (s : State) : TermStep :=
  match y with
  | none => ⟨false, false, false, none, 0⟩
  | some y =>
    let thr := signed 12 (app (TRG_CH_THR.THR i) s)
    let h : Int := app (TRG_CH_THR.HYS i) s
    let o := old.getD (decide (thr ≤ y.b), false, false)
    let c := crossStep thr h ⟨o.2.1, o.2.2⟩ y.b y.c
    let at' := fun (r : Bool) => crossTime tPrev (crossPos (app (TRG_CTRL.INTERP n) s) r thr y) s
    let lv := if old.isNone then decide (thr ≤ y.c) else if c.1 then true else if c.2.1 then false else o.1
    let e : Option (Bool × Int) := if old.isNone then none else if c.1 && !o.1 then some (true, at' true)
      else if c.2.1 && o.1 then some (false, at' false) else none
    ⟨lv, c.2.2.rise, c.2.2.fall, e, deskew i s⟩

/-- The term on TRIG_IN: its level at the sampling instant, and the last edge since the instant before. -/
def pinTerm (tPrev tNow : Int) (s : State) : TermStep :=
  let e := (trigEdgesIn tPrev tNow s).getLast?
  ⟨trigLevelAt tNow s, false, false, e.map (fun x => (x.2, x.1)), deskew 4 s⟩

/-- Whether a term's edge goes in the SLOPE direction. -/
def edgeFits (slope : Nat) (t : TermStep) : Bool :=
  match t.edge with
  | none => false
  | some e => slope == 2 || (slope == 0) == e.1

/-- Whether a term holds under its CODE. -/
def termTrue (code slope : Nat) (t : TermStep) : Bool :=
  match code with
  | 1 => t.level
  | 2 => !t.level
  | 3 => edgeFits slope t
  | _ => false

/-- Whether a pattern that is new to its unit was true at the sample before, by its levels: no edge is known there (DEDUCED, log entry 39). -/
def patBefore (n : Nat) (y : Nat → Option Around) (tPrev : Int) (s : State) : Bool :=
  let codes := (List.range 5).map (fun i => (i, patCode n i s.applied))
  let vals := (codes.filter (fun c => c.2 != 0)).map (fun c =>
    let level := if c.1 = 4 then trigLevelAt tPrev s
      else match y c.1 with
        | some a => decide (signed 12 (app (TRG_CH_THR.THR c.1) s) ≤ a.b)
        | none => false
    (c.2 == 1 && level) || (c.2 == 2 && !level))
  if app (TRG_PAT.FUNC n) s = 0 then vals.all id else vals.any id

/-- One sample of a PATTERN unit (R156). DEDUCED: log entry 39. -/
def stepPattern (n : Nat) (y : Nat → Option Around) (tPrev tNow : Int) (s : State) (u : UnitState) : List Found × UnitState :=
  let p := unitParam n s
  let terms := (List.range 5).map (fun i =>
    (patCode n i s.applied, if i = 4 then pinTerm tPrev tNow s else inputTerm n i (y i) tPrev (u.terms[i]?) s))
  let live := terms.filter (fun t => t.1 != 0)
  let vals := live.map (fun t => termTrue t.1 p.slope t.2)
  let now := if app (TRG_PAT.FUNC n) s = 0 then vals.all id else vals.any id
  -- the edge term made it true when the others alone would not have (DEDUCED)
  let byEdge := live.find? (fun t => t.1 == 3 && termTrue t.1 p.slope t.2 &&
    (app (TRG_PAT.FUNC n) s == 0 || !(live.any (fun w => w.1 != 3 && termTrue w.1 p.slope w.2))))
  let at' : Int × Int := match byEdge with
    | some t => match t.2.edge with
      | some e => (e.2, e.2 - t.2.skew)
      | none => (tNow, tNow)
    | none => (tNow, tNow)
  let u' := { u with terms := terms.map (fun t => (t.2.level, t.2.armR, t.2.armF)), patTrue := now }
  let p0 := { p with skew := 0 }
  let was := if u.terms.isEmpty then patBefore n y tPrev s else u.patTrue
  let rise := now && !was
  if app (TRG_PAT.DUR n) s = 0 then (if rise then [(.cond, at'.1, at'.2)] else [], u')
  else if rise then
    (if p.spec then [(.opening, at'.1, at'.2)] else [], { u' with patSince := some ⟨at'.1, at'.2, false⟩ })
  else if !now && was then
    (match u.patSince with
     | some w => closeHit p0 w (meets p.cond p.t1 p.t2 (tNow - w.raw)) tNow
     | none => [], { u' with patSince := none })
  else
    let e := elapse p0 tNow u'.patSince
    (e.1, { u' with patSince := e.2 })

/-! ## The held beat -/

/-- Replaces the state of a trigger unit. -/
def setUnit (n : Nat) (f : UnitState → UnitState) (s : State) : State := { s with trg.units := modifyNth f n s.trg.units }

/-- A trigger unit's state. -/
def unitOf (n : Nat) (s : State) : UnitState := nth s.trg.units n {}

/-- The decision slot of a condition whose deciding sample lies in a beat: 40 slots of front end and 12 of decision. -/
def decisionSlot (b : Nat) : Nat := 2 * b + 52

/-- Adds found conditions of a unit as hits, their corrected times on the grid of R6. -/
def addHits (n slot : Nat) (l : List Found) (s : State) : State :=
  { s with trg.hits := s.trg.hits ++ l.map (fun f => ⟨n, slot, f.2.1, onGrid f.2.2 s, f.1⟩) }

/-- The four samples around step `k` of an input in the held beat: `before` gives y[-2] and y[-1], `after` the next beat's first sample. -/
def aroundAt (l : List Int) (k : Nat) (before : Option (Int × Int)) (after : Option Int) : Option Around :=
  match l[k]? with
  | none => none
  | some c =>
    let b := if k = 0 then (match before with | some p => p.2 | none => c) else nth l (k - 1) c
    let a := if k = 0 then (match before with | some p => p.1 | none => c)
             else if k = 1 then (match before with | some p => p.2 | none => nth l 0 c) else nth l (k - 2) c
    let d := match l[k + 1]? with | some v => v | none => after.getD c
    some ⟨a, b, c, d⟩

/-- One sample step of every unit that looks at the beats. -/
def stepUnits (b k : Nat) (y : Nat → Option Around) (s : State) : State :=
  let tNow := sampleTime b k s
  let tPrev := tNow - samplePeriod (activeConfig s)
  (List.range 4).foldl (fun s n =>
    if unitOn n s then
      let t := app (TRG_CTRL.TYPE n) s
      let r : List Found × UnitState :=
        if analogType t then
          match y (app (TRG_CTRL.SRC n) s) with
          | some a => stepAnalog n a tPrev tNow s (unitOf n s)
          | none => ([], unitOf n s)
        else if t = 6 then stepPattern n y tPrev tNow s (unitOf n s)
        else ([], unitOf n s)
      addHits n (decisionSlot b) r.1 (setUnit n (fun _ => r.2) s)
    else s) s

/-- One sample step of every decoder: its results reach the trigger units 24 slots after the beat of their last bit (R164, R167). -/
def stepDecoders (b k : Nat) (y : Nat → Option Around) (s : State) : State :=
  let tNow := sampleTime b k s
  let tPrev := tNow - samplePeriod (activeConfig s)
  (List.range 4).foldl (fun s n =>
    if decActive n s then
      let r := decStepSample n (fun c => (y c).map (fun a => (a.b, a.c))) tPrev tNow s (nth s.trg.decs n {})
      { s with
        trg.decs := modifyNth (fun _ => r.2) n s.trg.decs
        trg.results := s.trg.results ++ r.1.map (fun f => ⟨n, 2 * b + 64, f.field, f.index, f.value, onGrid f.time s⟩) }
    else s) s

/-- The held beat is searched once its successor's first samples are known. -/
def searchHeld (next : List InputBeat) (s : State) : State :=
  match s.trg.heldBeat with
  | none => s
  | some (b, held) =>
    let n := held.foldl (fun m x => Nat.max m x.2.length) 0
    let around := fun (k i : Nat) =>
      match held.find? (fun x => x.1 == i) with
      | none => none
      | some x => aroundAt x.2 k ((s.trg.before.find? (fun w => w.1 == i)).map (fun w => (w.2.1, w.2.2)))
          ((next.find? (fun w => w.input == i)).bind (fun w => w.y.head?))
    let s := (List.range n).foldl (fun s k => stepDecoders b k (around k) (stepUnits b k (around k) s)) s
    { s with trg.before := held.filterMap (fun x =>
        match x.2.reverse with
        | y :: z :: _ => some (x.1, z, y)
        | _ => none) }

/-- The beat that reached the Avenue takes the held beat's place. -/
def holdBeat (b : Nat) (beats : List InputBeat) (s : State) : State :=
  let s := searchHeld beats s
  { s with trg.heldBeat := some (b, beats.map (fun x => (x.input, x.y))) }

end Sys2Proof.Machine
end

