-- ==== Sys2Proof/Machine/Float.lean ====
section
/-! DEFINITION. IEEE 754 binary32 arithmetic on words, rounded to nearest even (R242): exact rationals rounded once. -/

namespace Sys2Proof.Machine

/-- The quiet NaN with a reason (R203, R245). -/
def nanOf (reason : Nat) : Nat := 0x7FC00000 + reason

/-- A rational: numerator and a denominator above 0. -/
structure Ratio where
  num : Int
  den : Nat
  deriving DecidableEq, Repr

/-- Whether a word is a NaN or an infinity. -/
def isSpecial (w : Nat) : Bool := bits w 23 8 == 255

/-- The exact value of a finite word. -/
def ratioOf (w : Nat) : Ratio :=
  let e := bits w 23 8
  let m := if e = 0 then bits w 0 23 else bits w 0 23 + 2 ^ 23
  let sh := if e = 0 then 1 else e
  let v : Int := (m * 2 ^ (sh - 150) : Nat)
  let r : Ratio := if 150 ≤ sh then ⟨v, 1⟩ else ⟨m, 2 ^ (150 - sh)⟩
  if bit w 31 then ⟨-r.num, r.den⟩ else r

/-- The magnitude of a positive rational rounded to nearest even; overflow gives infinity. -/
def roundMag (num den : Nat) : Nat :=
  if num = 0 then 0
  else
    let e0 : Int := (Nat.log2 num : Int) - Nat.log2 den - 23
    let quot := fun (e : Int) => if 0 ≤ e then (num, den * 2 ^ e.toNat) else (num * 2 ^ (-e).toNat, den)
    let e1 := if (quot e0).1 / (quot e0).2 < 2 ^ 23 then e0 - 1 else e0
    let e := if e1 < -149 then -149 else e1
    let p := quot e
    let q := p.1 / p.2
    let r := p.1 % p.2
    let q := if p.2 < 2 * r ∨ (2 * r = p.2 ∧ q % 2 = 1) then q + 1 else q
    let w := (e + 149).toNat * 2 ^ 23 + q
    if 0x7F800000 ≤ w then 0x7F800000 else w

/-- A rational rounded to binary32. -/
def roundRatio (r : Ratio) : Nat := if r.num < 0 then 2 ^ 31 + roundMag r.num.natAbs r.den else roundMag r.num.natAbs r.den

/-- An integer converted to binary32. -/
def floatOf (i : Int) : Nat := roundRatio ⟨i, 1⟩

/-- An operation on two finite words; a NaN or an infinity gives NaN 0x02. -/
def floatOp (f : Ratio → Ratio → Option Ratio) (a b : Nat) : Nat :=
  if isSpecial a || isSpecial b then nanOf 2
  else match f (ratioOf a) (ratioOf b) with
    | some r => roundRatio r
    | none => nanOf 2

def fadd (a b : Nat) : Nat := floatOp (fun x y => some ⟨x.num * y.den + y.num * x.den, x.den * y.den⟩) a b
def fsub (a b : Nat) : Nat := floatOp (fun x y => some ⟨x.num * y.den - y.num * x.den, x.den * y.den⟩) a b
def fmul (a b : Nat) : Nat := floatOp (fun x y => some ⟨x.num * y.num, x.den * y.den⟩) a b
def fdiv (a b : Nat) : Nat := floatOp (fun x y =>
  if y.num = 0 then none
  else if y.num < 0 then some ⟨-(x.num * y.den), x.den * y.num.natAbs⟩ else some ⟨x.num * y.den, x.den * y.num.natAbs⟩) a b

/-- Exact comparison of finite words. -/
def fless (a b : Nat) : Bool := (ratioOf a).num * (ratioOf b).den < (ratioOf b).num * (ratioOf a).den
def fleq (a b : Nat) : Bool := (ratioOf a).num * (ratioOf b).den ≤ (ratioOf b).num * (ratioOf a).den

/-- The integer square root by trial of each bit from 2^n down. -/
def rootFrom : Nat → Nat → Nat → Nat
  | 0, _, r => r
  | n + 1, v, r => rootFrom n v (if (r + 2 ^ n) * (r + 2 ^ n) ≤ v then r + 2 ^ n else r)

/-- The square root, correctly rounded: 192 more bits than the result and a sticky bit below them. -/
def fsqrt (a : Nat) : Nat :=
  if isSpecial a || bit a 31 then (if bits a 0 31 = 0 then a else nanOf 2)
  else
    let r := ratioOf a
    let v := r.num.toNat * 2 ^ 384 / r.den
    let s := rootFrom 272 v 0
    roundMag (2 * s + b2n (s * s != v)) (2 ^ 193)

/-- Whether a word is a NaN. -/
def isNan (w : Nat) : Bool := isSpecial w && bits w 0 23 != 0

end Sys2Proof.Machine
end

