-- ==== Sys2Proof/Machine/LineSide.lean ====
section
/-! DEFINITION. The line side (R440 to R463, R579, R560): stimulus launches and pulses, the kerb check, TONE and SPK streams, the speaker
bridge. -/

namespace Sys2Proof.Machine

/-! ## Stimulus settings (R440 to R444) -/

/-- Whether a stimulus may be enabled: not before authentication, which precedes the end of the boot (R83). -/
def stimulusAllowed (s : State) : Bool := s.boot.phase == .done

/-- Whether the TDR output is enabled in effect: an enable that the mode does not allow acts as clear (R441). -/
def tdrOn (s : State) : Bool := stimulusAllowed s && regGet STM_CTRL.TDR_EN s.line.settings == 1 && (mode s == 2 || mode s == 7)

/-- Whether the LAS_FIRE output is enabled in effect (R441). -/
def lasOn (s : State) : Bool := stimulusAllowed s && regGet STM_CTRL.LAS_EN s.line.settings == 1 && (mode s == 3 || mode s == 7)

/-- Whether a stimulus runs: its enable is in effect (R451), in RUN (R511). -/
def stimulusRuns (s : State) : Bool :=
  get PWR_STAT.RUNG s == 0 && (tdrOn s || lasOn s || (s.line.toneEn && on STM_AUDIO_STAT.RUNNING s))

/-- The stimulus table of an identifier. -/
def stimTable (id : Nat) (s : State) : Option StimTable := s.line.tables.find? (fun t => t.id == id)

/-- Whether an identifier names a table of KIND 1 (R444). -/
def patternTable (id : Nat) (s : State) : Bool := match stimTable id s with | some t => t.kind == 1 | none => false

/-- Whether the latest judgement lets a stimulus start (R451). -/
def kerbClear (s : State) : Bool := on KRB_STAT.READY s && get KRB_STAT.VIOL s == 0

/-- Whether committing the settings `m` would start a stimulus against the kerb check (R451). -/
def kerbRefuses (m : List (Nat × Nat)) (s : State) : Bool :=
  ((regGet STM_CTRL.TDR_EN m == 1 && !(tdrOn s)) || (regGet STM_CTRL.LAS_EN m == 1 && !(lasOn s))) && !(kerbClear s)

/-- Whether the settings `m` break R441, R444 or R451 in a mode. -/
def stimInvalid (m : List (Nat × Nat)) (mode : Nat) (s : State) : Bool :=
  let tdr := regGet STM_CTRL.TDR_EN m == 1
  let las := regGet STM_CTRL.LAS_EN m == 1
  let per := regGet TRG_TIMER_PER.PER m
  let tw := regGet STM_TDR_WIDTH.WIDTH m
  let lw := regGet STM_LAS_WIDTH.WIDTH m
  ((tdr || las) && (per % 8 != 0 || per < 256 || regGet TRG_TIMER_PHASE.PHASE m % 8 != 4)) ||
  (tdr && (tw < 9 || 81920 < tw || per < tw + 16 || (mode != 2 && mode != 7))) ||
  (las && (lw < 66 || 655360 < lw || 8 * per < lw + 128 || (mode != 3 && mode != 7))) ||
  (tdr && las) ||
  (regGet STM_TDR.PAT m == 1 && !(patternTable (regGet STM_TDR.PAT_ID m) s)) ||
  kerbRefuses m s

/-- The register keys of the stimulus settings. -/
def stimKey (k : Nat) : Bool := STM_CTRL.addr * 32 ≤ k && k < (STM_LAS_WIDTH.addr + 4) * 32

/-- The stimulus settings of a list of field values. -/
def stimPart (m : List (Nat × Nat)) : List (Nat × Nat) := m.filter (fun e => stimKey e.1)

/-- At a launch instant a committed change comes into effect (R442): with the arm of its generation, or in STOPPED from 2 slots after the
commit. The launch count starts anew with changed settings (R444). DEDUCED: log entry 68. -/
def settleStimulus (s : State) : State :=
  let new :=
    if s.record.running then (if s.record.appliedGen = s.line.seenGen then s.line.settings else stimPart s.applied)
    else if s.line.commitSlot + 2 ≤ s.now then stimPart s.committed else s.line.settings
  let s := if s.record.running then { s with line.seenGen := s.record.appliedGen } else s
  if new = s.line.settings then s else { s with line.settings := new, line.launches := 0 }

/-- The pattern bit of a launch (R444); a table of no bytes leaves it open. -/
def patternBit (n : Nat) (s : State) : Bool × State :=
  if regGet STM_TDR.PAT s.line.settings = 0 then (true, s)
  else match stimTable (regGet STM_TDR.PAT_ID s.line.settings) s with
    | none => let f := draw s; (f.1 % 2 == 1, f.2)
    | some t =>
      if t.data.isEmpty then (let f := draw s; (f.1 % 2 == 1, f.2))
      else
        let i := n % (8 * t.data.length)
        (bit (nth t.data (i / 8) 0) (i % 8), s)

/-- The first tick at which the quiet window of a launch at tick `t` begins, and the sums of CH3's samples in it (R449). -/
def quietWindow (t : Int) (s : State) : State :=
  let lo := (t - get KRB_QUIET.QUIET s) * 65536
  let hi := t * 65536
  let v := s.line.recent.flatMap (fun e => (e.2.mapIdx (fun k y => (sampleTime e.1 k s, y))).filterMap (fun p =>
    if lo ≤ p.1 && p.1 < hi then some p.2 else none))
  { s with line.quietSum := s.line.quietSum + v.foldl (· + ·) 0, line.quietCount := s.line.quietCount + v.length }

/-- A launch instant at tick `t` of the unstepped count (R440, R443, R446). -/
def launch (t : Int) (s : State) : State :=
  if get PWR_STAT.RUNG s ≠ 0 then s
  else
    let s := settleStimulus s
    let m := s.line.settings
    let ok := !(on KRB_STAT.TRIPPED s) && !s.line.vdda18Lost
    let s := if lasOn s then { s with line.quietDue := s.line.quietDue ++ [t] } else s
    let s := if lasOn s && ok then
      let r := 8 * t + regGet STM_LAS_DLY.COARSE m
      { s with line.lasPulse := some ⟨r, r + regGet STM_LAS_WIDTH.WIDTH m, regGet STM_LAS_DLY.FINE m, 0⟩ } else s
    if tdrOn s then
      let p := patternBit s.line.launches s
      let s := { p.2 with line.launches := p.2.line.launches + 1 }
      let r := 8 * (t + regGet STM_TDR.DLY m)
      if p.1 && ok then { s with line.tdrPulse := some ⟨r, r + 8 * regGet STM_TDR_WIDTH.WIDTH m, 0, 250 + 250 * regGet STM_TDR.AMP m⟩ } else s
    else s

/-- A pulse that is over by the end of the present slot. -/
def pulseOver (now : Nat) (p : Option Pulse) : Bool := match p with | some x => x.fall < 32 * (now + 1) | none => false

/-- STIMULUS_PULSE_END: pulses whose width has passed end (R443, R446). -/
def stimulusPulseEnd (s : State) : State :=
  { s with line.tdrPulse := if pulseOver s.now s.line.tdrPulse then none else s.line.tdrPulse,
           line.lasPulse := if pulseOver s.now s.line.lasPulse then none else s.line.lasPulse }

/-- Meaning of STIMULUS_PULSE_END. -/
def execStimulusPulseEnd (s : State) : Host.Outcome State Fault Refusal := .next (stimulusPulseEnd s)

/-- Whether the outputs are driven, as STM_STAT shows it, with the FIFO depths (R463). -/
def refreshStm (s : State) : State :=
  let safe := on KRB_STAT.TRIPPED s || s.line.vdda18Lost || get PWR_STAT.RUNG s != 0
  setB STM_STAT.TDR_ON (tdrOn s && !safe) (setB STM_STAT.LAS_ON (lasOn s && !safe) (setB STM_STAT.TONE_ON (s.line.toneEn && !safe)
    (set STM_AUDIO_STAT.TONE_DEPTH s.line.toneFifo.length (set STM_AUDIO_STAT.SPK_DEPTH s.line.spkFifo.length s))))

/-! ## The kerb check (R447 to R454, R579) -/

/-- A beat of CH3 counts toward the quiet mean, and the windows of launches that end with it are summed (R449). -/
def lightBeat (b : Nat) (x : Option InputBeat) (s : State) : State :=
  let s := match x with
    | none => s
    | some i =>
      { s with line.recent := ((b, i.y) :: s.line.recent).take (get KRB_QUIET.QUIET s / 8 + 16),
               line.msSum := s.line.msSum + i.y.foldl (· + ·) 0, line.msCount := s.line.msCount + i.y.length }
  let due := s.line.quietDue.filter (fun t => t ≤ 8 * ((b : Int) + 1))
  due.foldl (fun s t => quietWindow t s) { s with line.quietDue := s.line.quietDue.filter (fun t => 8 * ((b : Int) + 1) < t) }

/-- The outputs go into their safe states: running pulses end. -/
def stimulusSafe (s : State) : State := { s with line.tdrPulse := none, line.lasPulse := none }

/-- A trip (R452). -/
def kerbTrip (viol : Nat) (s : State) : State :=
  let s := set KRB_STAT.TRIPPED 1 (stimulusSafe s)
  let s := set KRB_TRIP_LO.TICK (tick s) (set KRB_TRIP_HI.TICK (tick s / 2 ^ 32) (bump KRB_CNT.TRIPS s))
  let s := fault 0x0D01 0 0 viol (raise 0x35 s)
  if mode s = 2 ∨ mode s = 3 then engineStop s else s

/-- The quiet mean of CH3 as a sum and a count of samples in LSB (R449); with no sample at all the spec states no mean: a free one. -/
def quietMean (s : State) : Int × Nat × State :=
  if s.line.quietCount ≠ 0 then (s.line.quietSum, s.line.quietCount, s)
  else if s.line.msCount ≠ 0 then (s.line.msSum, s.line.msCount, s)
  else
    let f := draw s
    (signed 12 f.1, 1, f.2)

/-- KERB_JUDGEMENT: a new sample of LINE_SNS, and the judgement over the latest 100 (R448 to R452). DEDUCED: log entry 69. -/
def kerbJudgement (sample : Int) (s : State) : State :=
  let x := if s.line.replaced then (s.line.samples.head?).getD sample else clip (-32768) 32767 sample
  let l := (x :: s.line.samples).take 100
  let n := l.length
  let sum : Int := l.foldl (· + ·) 0
  let sq : Int := l.foldl (fun a v => a + v * v) 0
  let ac2 := n * sq - sum * sum
  let q := quietMean { s with line.samples := l, line.replaced := false }
  let s := q.2.2
  let light := on KRB_STAT.LIGHT_EN s && decide (signed 16 (get KRB_LIGHT_THR.THR s) * q.2.1 < 16 * q.1)
  let viol := b2n (decide (1600 * (n : Int) < sum) || decide (sum < -1600 * (n : Int))) +
    2 * b2n (decide (960 * 960 * (n * n : Int) < ac2)) + 4 * b2n (decide (3200 < x) || decide (x < -3200)) +
    8 * b2n light + 16 * b2n (on KRB_STAT.MON_FAIL s)
  let dc := roundFree sum n s
  let s := set KRB_DC.DC (toBits 16 dc.1) dc.2
  let root := rootFrom 17 (ac2.toNat / (n * n)) 0
  let s := if (root * root * (n * n) : Int) = ac2 then set KRB_AC.AC root s
    else (let f := draw s; set KRB_AC.AC (root + f.1 % 2) f.2)
  let m := roundFree (16 * q.1) q.2.1 s
  let s := set KRB_LIGHT.MEAN (toBits 16 m.1) m.2
  let s := set KRB_STAT.VIOL viol s
  let judged := if on KRB_STAT.MON_FAIL s then s.line.judged else Nat.min 100 (s.line.judged + 1)
  let s := { s with line.judged := judged, line.msSum := 0, line.msCount := 0, line.quietSum := 0, line.quietCount := 0 }
  let s := if judged = 100 then set KRB_STAT.READY 1 s else s
  let acting := (List.range 5).any (fun i => bit viol i && !(i < 4 && bit (get KRB_STAT.OVR s) i))
  if stimulusRuns s && acting then kerbTrip viol s
  else if stimulusRuns s && viol != 0 then fault 0x0D01 0 0 viol s
  else s

/-- Meaning of KERB_JUDGEMENT; the monitor runs from IDLE upward (R447). -/
def execKerbJudgement (sample : Int) (s : State) : Host.Outcome State Fault Refusal :=
  .next (if get PWR_STAT.RUNG s ≤ 2 then kerbJudgement sample s else s)

/-- KERB_SELF_CHECK: the readings of the zero and of the 0.500 V reference, in LSB of 31.25 µV; either off by more than 1 % of the
reference fails (R450). -/
def kerbSelfCheck (zero reference : Int) (s : State) : State :=
  let bad := decide (160 < zero) || decide (zero < -160) || decide (16160 < reference) || decide (reference < 15840)
  let s := { s with line.replaced := true }
  if bad then fault 0x0D02 0 0 0 (set KRB_STAT.MON_FAIL 1 { s with line.selfPass := 0 })
  else
    let n := s.line.selfPass + 1
    let s := { s with line.selfPass := n }
    if 3 ≤ n then set KRB_STAT.MON_FAIL 0 s else s

/-- Meaning of KERB_SELF_CHECK. -/
def execKerbSelfCheck (zero reference : Int) (s : State) : Host.Outcome State Fault Refusal :=
  .next (if get PWR_STAT.RUNG s ≤ 2 then kerbSelfCheck zero reference s else s)

/-- KRB_CTRL.CLEAR: with the latest judgement clear, TRIPPED clears (R452). -/
def kerbUntrip (s : State) : State := if get KRB_STAT.VIOL s = 0 then set KRB_STAT.TRIPPED 0 s else s

/-- Meaning of KERB_CLEAR. -/
def execKerbClear (s : State) : Host.Outcome State Fault Refusal := .next (kerbUntrip s)

/-- Whether the active mode is SERVICE. -/
def service (s : State) : Bool := mode s == 7

/-- A write of KRB_UNLOCK (R454). -/
def krbUnlock (v : Nat) (s : State) : State :=
  if service s && v % 65536 == 0x5AFE then { s with line.unlockedAt := some s.now }
  else fault 0x0D03 0 0 0 { s with line.unlockedAt := none }

/-- Meaning of KRB_UNLOCK. -/
def execKrbUnlock (value : Nat) (s : State) : Host.Outcome State Fault Refusal := .next (krbUnlock value s)

/-- The override ends (R454). -/
def endOverride (s : State) : State := set KRB_STAT.OVR 0 (set KRB_OVR.MASK 0 { s with line.unlockedAt := none })

/-- A write of KRB_OVR (R454). -/
def krbOvr (v : Nat) (s : State) : State :=
  let open' := match s.line.unlockedAt with | some t => s.now ≤ t + 64 | none => false
  if !service s then fault 0x0D03 0 0 0 { s with line.unlockedAt := none }
  else if v = 0 then endOverride s
  else if open' && bits v 8 8 == 0xA5 then
    fault 0x0D03 0 0 (v % 16) (set KRB_STAT.OVR (v % 16) (set KRB_OVR.MASK (v % 16) { s with line.unlockedAt := none }))
  else fault 0x0D03 0 0 0 { s with line.unlockedAt := none }

/-- Meaning of KRB_OVR. -/
def execKrbOvr (value : Nat) (s : State) : Host.Outcome State Fault Refusal := .next (krbOvr value s)

/-- A protected kerb write is dropped (R579). -/
def kerbDrop (addr : Nat) (s : State) : State := faultAddr 0x0D03 0 addr (set KRB_STAT.WR_REFUSED 1 s)

/-- A write of KRB_LIGHT_THR, KRB_QUIET or KRB_STAT (R454, R579). -/
def kerbProtectedWrite (addr v : Nat) (s : State) : State :=
  if addr = KRB_LIGHT_THR.addr then (if service s then set KRB_LIGHT_THR.THR v s else kerbDrop addr s)
  else if addr = KRB_QUIET.addr then (if service s then set KRB_QUIET.QUIET v s else kerbDrop addr s)
  else if addr = KRB_STAT.addr then
    let s := if bit v 13 then set KRB_STAT.WR_REFUSED 0 s else s
    if bit v 12 then set KRB_STAT.LIGHT_EN 1 s
    else if on KRB_STAT.LIGHT_EN s then kerbDrop addr s else s
  else s

/-- Meaning of KERB_PROTECTED_WRITE. -/
def execKerbProtectedWrite (addr value : Nat) (s : State) : Host.Outcome State Fault Refusal := .next (kerbProtectedWrite addr value s)

/-! ## TONE and SPK streams (R455 to R459) -/

/-- The index of the latest audio tick by a slot: periods of 21,333, 21,333 and 21,334 slots in rotation, counted from tick 0
(R455; the phase is a DESIGN CHOICE, log entry 18). -/
def audioIndex (now : Nat) : Nat :=
  now / 64000 * 3 + (if 42666 ≤ now % 64000 then 2 else if 21333 ≤ now % 64000 then 1 else 0)

/-- A push to the TONE or SPK FIFO; at capacity it fails and is counted (R320, R463). -/
def pushTone (v : Nat) (s : State) : State :=
  if s.line.toneFifo.length < 64 then { s with line.toneFifo := s.line.toneFifo ++ [v % 65536] } else bump STM_AUDIO_STAT.DROPS s

/-- A push to the SPK FIFO. -/
def pushSpk (v : Nat) (s : State) : State :=
  if s.line.spkFifo.length < 64 then { s with line.spkFifo := s.line.spkFifo ++ [v % 65536] } else bump STM_AUDIO_STAT.DROPS s

/-- A write of STM_TONE_PUSH: it feeds a stream whose SRC is PUSH (R456). -/
def stmTonePush (v : Nat) (s : State) : State := if get STM_AUDIO_SRC.TONE_SRC s = 0 then pushTone v s else s

/-- A write of STM_SPK_PUSH. -/
def stmSpkPush (v : Nat) (s : State) : State := if get STM_AUDIO_SRC.SPK_SRC s = 0 then pushSpk v s else s

/-- Meaning of STM_TONE_PUSH. -/
def execStmTonePush (value : Nat) (s : State) : Host.Outcome State Fault Refusal := .next (stmTonePush value s)

/-- Meaning of STM_SPK_PUSH. -/
def execStmSpkPush (value : Nat) (s : State) : Host.Outcome State Fault Refusal := .next (stmSpkPush value s)

/-- Meaning of STM_PAIR_PUSH. -/
def execStmPairPush (value : Nat) (s : State) : Host.Outcome State Fault Refusal :=
  .next (stmSpkPush (value / 65536) (stmTonePush value s))

/-- Whether a stream's SRC and table are legal: TONE has no MONITOR, a table feed needs KIND 0 or 2 (R456). -/
def audioSrcOk (src id : Nat) (tone : Bool) (s : State) : Bool :=
  match src with
  | 0 => true
  | 3 => !tone
  | _ => match stimTable id s with | some t => t.kind == 0 || t.kind == 2 | none => false

/-- A write of STM_AUDIO_SRC: it applies, and a stream whose feed changes starts its table at the beginning, or it is dropped with
CAUSE 1 (R456). -/
def stmAudioSrcWrite (v : Nat) (s : State) : State :=
  let ts := bits v 0 2
  let ss := bits v 2 2
  let ti := bits v 8 8
  let si := bits v 16 8
  if audioSrcOk ts ti true s && audioSrcOk ss si false s then
    let toneNew := ts != get STM_AUDIO_SRC.TONE_SRC s || ti != get STM_AUDIO_SRC.TONE_ID s
    let spkNew := ss != get STM_AUDIO_SRC.SPK_SRC s || si != get STM_AUDIO_SRC.SPK_ID s
    let s := set STM_AUDIO_SRC.TONE_SRC ts (set STM_AUDIO_SRC.SPK_SRC ss (set STM_AUDIO_SRC.TONE_ID ti (set STM_AUDIO_SRC.SPK_ID si s)))
    { s with line.tonePos := if toneNew then 0 else s.line.tonePos, line.spkPos := if spkNew then 0 else s.line.spkPos }
  else fault 0x0D04 0 0 1 (set STM_STAT.CAUSE 1 s)

/-- Meaning of STM_AUDIO_SRC_WRITE. -/
def execStmAudioSrcWrite (value : Nat) (s : State) : Host.Outcome State Fault Refusal := .next (stmAudioSrcWrite value s)

/-- The sample of a table feed at a position: LOOP repeats, ONCE ends in zeros (R456). None where the table holds no sample to repeat. -/
def tableSample (src id pos : Nat) (s : State) : Option Nat :=
  match stimTable id s with
  | none => none
  | some t =>
    let n := t.data.length / 2
    if src = 1 then (if n = 0 then none else some (ofLe (slice t.data (2 * (pos % n)) 2)))
    else some (if pos < n then ofLe (slice t.data (2 * pos) 2) else 0)

/-- AUDIO_TABLE_FEED: each table-fed stream whose FIFO has room takes its next sample (R456). -/
def audioTableFeed (s : State) : State :=
  let ts := get STM_AUDIO_SRC.TONE_SRC s
  let s := if (ts = 1 ∨ ts = 2) ∧ s.line.toneFifo.length < 64 then
    (match tableSample ts (get STM_AUDIO_SRC.TONE_ID s) s.line.tonePos s with
     | some v => { pushTone v s with line.tonePos := s.line.tonePos + 1 }
     | none => s) else s
  let ss := get STM_AUDIO_SRC.SPK_SRC s
  if (ss = 1 ∨ ss = 2) ∧ s.line.spkFifo.length < 64 then
    (match tableSample ss (get STM_AUDIO_SRC.SPK_ID s) s.line.spkPos s with
     | some v => { pushSpk v s with line.spkPos := s.line.spkPos + 1 }
     | none => s)
  else s

/-- Meaning of AUDIO_TABLE_FEED. -/
def execAudioTableFeed (s : State) : Host.Outcome State Fault Refusal := .next (audioTableFeed s)

/-- The depth of an audio queue at the end of the previous slot (R321). -/
def audioDepth (q : Nat) (s : State) : Nat := (nth s.evt.queues q {}).depth

/-- The bridge enters SOFT (R460, R461). -/
def ampSoft (retry : Bool) (s : State) : State :=
  set AMP_STAT.STATE 1 { s with line.softAt := s.now, line.retry := retry }

/-- The bridge's enable in effect changes (R461): OFF clears the retry count. -/
def ampEnable (en : Bool) (s : State) : State :=
  let s := { s with line.ampEn := en }
  if !en then set AMP_STAT.STATE 0 (set AMP_STAT.RETRIES 0 s)
  else if get AMP_STAT.STATE s = 0 then
    (if on AMP_STAT.THERM s then fault 0x0D09 0 0 0 (set AMP_STAT.STATE 5 s) else ampSoft false s)
  else s

/-- The settings that apply at an audio tick (R459). -/
def audioApply (s : State) : State :=
  let s := { s with line.toneEn := on STM_AUDIO_CTRL.TONE_EN s && stimulusAllowed s, line.toneLvl := get STM_TONE_LVL.ATT s,
                    line.vol := get AMP_CTRL.VOL s, line.ampRetry := get AMP_CTRL.RETRY s }
  if on AMP_CTRL.EN s = s.line.ampEn then s else ampEnable (on AMP_CTRL.EN s) s

/-- One audio tick of a running engine: both streams pop, or slip together (R457). With SPK on MONITOR its sample is the TONE sample of
the tick (R456). -/
def audioPop (s : State) : State :=
  let mon := get STM_AUDIO_SRC.SPK_SRC s == 3
  match s.line.toneFifo, s.line.spkFifo with
  | t :: ts, sp =>
    if 0 < audioDepth 13 s && (mon || (0 < audioDepth 14 s && !sp.isEmpty)) then
      { s with line.toneFifo := ts, line.toneLast := t, line.popped := true,
               line.spkFifo := if mon then sp else sp.drop 1, line.spkLast := if mon then t else (sp.head?).getD 0 }
    else slip s
  | [], _ => slip s
where
  /-- A slip: both outputs repeat their last sample. -/
  slip (s : State) : State :=
    let s := bump STM_SLIP.COUNT s
    let s := if s.line.popped then raise 0x36 s else s
    let s := { s with line.popped := false }
    if s.line.slipLogged then s else fault 0x0D06 0 (get STM_SLIP.COUNT s) 0 { s with line.slipLogged := true }

/-- AUDIO_TICK, once for each tick and in RUN: settings apply, the engine starts with both FIFOs at START_LVL, and then pops
(R455, R457, R459, R511). -/
def audioTick (s : State) : State :=
  let k := audioIndex s.now
  if k ≤ s.line.ticks ∨ get PWR_STAT.RUNG s ≠ 0 then s
  else
    let s := audioApply { s with line.ticks := k }
    let lvl := Nat.max 1 (get STM_AUDIO_CTRL.START_LVL s)
    let mon := get STM_AUDIO_SRC.SPK_SRC s == 3
    if !(on STM_AUDIO_CTRL.RUN s) then set STM_AUDIO_STAT.RUNNING 0 s
    else if on STM_AUDIO_STAT.RUNNING s then audioPop s
    else if lvl ≤ s.line.toneFifo.length && (mon || lvl ≤ s.line.spkFifo.length) then
      audioPop (set STM_AUDIO_STAT.RUNNING 1 s)
    else s

/-- Meaning of AUDIO_TICK. -/
def execAudioTick (s : State) : Host.Outcome State Fault Refusal := .next (audioTick s)

/-- A write of STM_AUDIO_CTRL: one that sets TONE_EN is dropped outside TONE and SERVICE mode with CAUSE 2, and with CAUSE 3 where it
would start the stimulus against the kerb check (R451, R459). RUN cleared stops the engine. DEDUCED: log entry 70. -/
def toneEnWrite (v : Nat) (s : State) : State :=
  let starts := bit v 1 && !(on STM_AUDIO_CTRL.TONE_EN s && on STM_AUDIO_STAT.RUNNING s)
  if bit v 1 && mode s != 6 && mode s != 7 then fault 0x0D04 0 0 2 (set STM_STAT.CAUSE 2 s)
  else if starts && !(kerbClear s) then fault 0x0D04 0 0 3 (set STM_STAT.CAUSE 3 s)
  else
    let s := set STM_AUDIO_CTRL.RUN v (set STM_AUDIO_CTRL.TONE_EN (v / 2) (set STM_AUDIO_CTRL.START_LVL (v / 256) s))
    if bit v 0 then s else set STM_AUDIO_STAT.RUNNING 0 s

/-- Meaning of TONE_EN_WRITE. -/
def execToneEnWrite (value : Nat) (s : State) : Host.Outcome State Fault Refusal := .next (toneEnWrite value s)

/-! ## Aborts (R462) -/

/-- Clears a field in every copy of the settings. -/
def clearAll (F : Fld) (s : State) : State :=
  { set F 0 s with committed := regSet F 0 s.committed, applied := regSet F 0 s.applied,
                   line.settings := regSet F 0 s.line.settings }

/-- The stimulus abort: outputs safe, enables cleared in every copy (R462). -/
def stimAbort (s : State) : State :=
  let s := clearAll STM_CTRL.TDR_EN (clearAll STM_CTRL.LAS_EN (stimulusSafe s))
  let s := set STM_AUDIO_CTRL.TONE_EN 0 { s with line.toneEn := false }
  fault 0x0D05 0 0 0 (set STM_STAT.ABORTED 1 s)

/-- A write of STM_CTRL: the enables' staging copies, then ABORT. -/
def stmCtrlWrite (v : Nat) (s : State) : State :=
  let s := set STM_CTRL.TDR_EN v (set STM_CTRL.LAS_EN (v / 2) s)
  if bit v 8 then stimAbort s else s

/-- Meaning of STIMULUS_ABORT: a write of STM_CTRL. -/
def execStimulusAbort (value : Nat) (s : State) : Host.Outcome State Fault Refusal := .next (stmCtrlWrite value s)

/-- The stimulus part of a global abort: as R462, with the audio engine and the bridge stopped and the override ended (R454, R538). -/
def stimGlobalAbort (s : State) : State :=
  let s := endOverride (stimAbort s)
  let s := set STM_AUDIO_CTRL.RUN 0 (set STM_AUDIO_STAT.RUNNING 0 s)
  ampEnable false (set AMP_CTRL.EN 0 s)

/-! ## The speaker bridge (R460, R461) -/

/-- Slots in 25 ms, 20 ms and 1 s. -/
abbrev slots25ms : Nat := 25600000
/-- Slots in 20 ms. -/
abbrev slots20ms : Nat := 20480000
/-- Slots in 1 s. -/
abbrev slots1s : Nat := 1024000000

/-- AMP_CTRL.CLEAR: a LATCHED bridge goes to SOFT with the retry count cleared. -/
def ampClear (s : State) : State :=
  if get AMP_STAT.STATE s = 4 then ampSoft false (set AMP_STAT.RETRIES 0 s) else s

/-- A write of AMP_CTRL: EN, VOL and RETRY apply at the next audio tick (R459). -/
def ampCtrlWrite (v : Nat) (s : State) : State :=
  let s := set AMP_CTRL.EN v (set AMP_CTRL.VOL (v / 256) (set AMP_CTRL.RETRY (v / 65536) s))
  if bit v 1 then ampClear s else s

/-- Meaning of AMP_ENABLE_WRITE: a write of AMP_CTRL. -/
def execAmpEnableWrite (value : Nat) (s : State) : Host.Outcome State Fault Refusal := .next (ampCtrlWrite value s)

/-- Meaning of AMP_CLEAR. -/
def execAmpClear (s : State) : Host.Outcome State Fault Refusal := .next (ampClear s)

/-- AMP_TRIP: the current limit has acted in 16 consecutive PWM periods; the 8th failed retry latches (R461). DEDUCED: log entry 71. -/
def ampTrip (s : State) : State :=
  let st := get AMP_STAT.STATE s
  if (st ≠ 1 ∧ st ≠ 2) ∨ on AMP_STAT.UVLO s = true then s
  else
    let failed := s.line.retry && decide (s.now ≤ s.line.softAt + slots1s)
    let s := fault 0x0D07 0 0 0 (raise 0x34 (set AMP_STAT.AMP_FAULT 1 (bump AMP_CNT.TRIPS s)))
    let s := if failed then bump AMP_STAT.RETRIES s else s
    let s := { s with line.tripAt := some (s.now, failed) }
    if 8 ≤ get AMP_STAT.RETRIES s then fault 0x0D08 0 0 0 (set AMP_STAT.STATE 4 s)
    else set AMP_STAT.STATE 3 { s with line.ampDue := s.now + slots25ms * Nat.max 1 s.line.ampRetry }

/-- Meaning of AMP_TRIP. -/
def execAmpTrip (s : State) : Host.Outcome State Fault Refusal := .next (ampTrip s)

/-- AMP_RETRY: a WAIT that has lasted its time ends in SOFT, a retry. -/
def ampRetry (s : State) : State :=
  if get AMP_STAT.STATE s = 3 ∧ s.line.ampDue ≤ s.now then ampSoft true s else s

/-- Meaning of AMP_RETRY. -/
def execAmpRetry (s : State) : Host.Outcome State Fault Refusal := .next (ampRetry s)

/-- AMP_SOFT_END: 20 ms after its entry, SOFT ends in PLAY. -/
def ampSoftEnd (s : State) : State :=
  if get AMP_STAT.STATE s = 1 ∧ s.line.softAt + slots20ms ≤ s.now ∧ on AMP_STAT.UVLO s = false then
    set AMP_STAT.STATE 2 { s with line.playAt := s.now }
  else s

/-- Meaning of AMP_SOFT_END. -/
def execAmpSoftEnd (s : State) : Host.Outcome State Fault Refusal := .next (ampSoftEnd s)

/-- AMP_PLAY_STABLE: PLAY that has lasted 1 s clears the retry count. -/
def ampPlayStable (s : State) : State :=
  if get AMP_STAT.STATE s = 2 ∧ s.line.playAt + slots1s ≤ s.now then set AMP_STAT.RETRIES 0 { s with line.retry := false } else s

/-- Meaning of AMP_PLAY_STABLE. -/
def execAmpPlayStable (s : State) : Host.Outcome State Fault Refusal := .next (ampPlayStable s)

/-- Slots in one PWM period (R460). -/
abbrev pwmSlots : Nat := 2000

/-- A trip of the PWM period in which the thermal limit acts counts as no retry (R461): the count, and the bridge's state if that trip latched
it, are as without it. -/
def uncountTrip (s : State) : State :=
  match s.line.tripAt with
  | some (t, failed) =>
    if t / pwmSlots = s.now / pwmSlots && failed then
      let s := set AMP_STAT.RETRIES (get AMP_STAT.RETRIES s - 1) { s with line.tripAt := some (t, false) }
      if get AMP_STAT.STATE s = 4 then set AMP_STAT.STATE 3 s else s
    else s
  | none => s

/-- THERMAL: a junction at 150 °C; a bridge that is off or latched stays so. -/
def thermal (s : State) : State :=
  let s := uncountTrip (set AMP_STAT.THERM 1 s)
  let st := get AMP_STAT.STATE s
  if st = 1 ∨ st = 2 ∨ st = 3 then fault 0x0D09 0 0 0 (set AMP_STAT.STATE 5 s) else s

/-- Meaning of THERMAL. -/
def execThermal (s : State) : Host.Outcome State Fault Refusal := .next (thermal s)

/-- THERMAL_CLEAR: a junction below 130 °C returns the bridge to SOFT. -/
def thermalClear (s : State) : State :=
  let s := set AMP_STAT.THERM 0 s
  if get AMP_STAT.STATE s = 5 then ampSoft false s else s

/-- Meaning of THERMAL_CLEAR. -/
def execThermalClear (s : State) : Host.Outcome State Fault Refusal := .next (thermalClear s)

/-- Meaning of UVLO: below 2.7 V the bridge is high impedance, whatever its state. -/
def execUvlo (s : State) : Host.Outcome State Fault Refusal := .next (set AMP_STAT.UVLO 1 s)

/-- UVLO_CLEAR: above 2.9 V an enabled bridge resumes with a soft start. -/
def uvloClear (s : State) : State :=
  let was := on AMP_STAT.UVLO s
  let s := set AMP_STAT.UVLO 0 s
  if was && (get AMP_STAT.STATE s == 1 || get AMP_STAT.STATE s == 2) then ampSoft s.line.retry s else s

/-- Meaning of UVLO_CLEAR. -/
def execUvloClear (s : State) : Host.Outcome State Fault Refusal := .next (uvloClear s)

/-- Whether the bridge drives SPK_P and SPK_N. -/
def ampDriven (s : State) : Bool :=
  (get AMP_STAT.STATE s == 1 || get AMP_STAT.STATE s == 2) && !(on AMP_STAT.UVLO s)

/-- What TONE_OUT drives: the last TONE sample and its attenuation in steps of 0.5 dB, 255 muting it; none in the safe state (R459). -/
def toneOut (s : State) : Option (Int × Nat) :=
  if s.line.toneEn && !(on KRB_STAT.TRIPPED s) && !s.line.vdda18Lost && get PWR_STAT.RUNG s == 0 then
    some (signed 16 s.line.toneLast, s.line.toneLvl) else none

/-- What the bridge drives: the last SPK sample and its attenuation in steps of 0.5 dB; in SOFT the gain still rises to it from -60 dB (R460). -/
def spkOut (s : State) : Option (Int × Nat) := if ampDriven s then some (signed 16 s.line.spkLast, s.line.vol) else none

/-- VDDA_1V8_LOSS: the stimulus balls become high impedance (R560). -/
def execVdda1v8Loss (s : State) : Host.Outcome State Fault Refusal := .next { stimulusSafe s with line.vdda18Lost := true }

/-- What the stimulus and the audio engine do when the device leaves RUN: safe and stopped (R511); the kerb check's READY clears on entry
to DOZE or lower (R513). -/
def stimulusRest (s : State) : State := set STM_AUDIO_STAT.RUNNING 0 (stimulusSafe s)

end Sys2Proof.Machine
end

