-- ==== Sys2Proof/Machine/Trigger.lean ====
section
/-! DEFINITION. The trigger units' decisions (R154, R157 to R162, R168 to R180): sequencing, holdoff, candidates, arbitration, and the
commands of the trigger block. -/

namespace Sys2Proof.Machine

/-! ## Holdoff (R157) -/

/-- The time holdoff of a unit in fraction LSBs by its settings in force: VALUE + 1 slots. -/
def holdoffSpan (n : Nat) (s : State) : Int :=
  ((app (TRG_HOLDOFF_LO.VALUE n) s + app (TRG_HOLDOFF_HI.VALUE_HI n) s * 2 ^ 32 + 1 : Nat) : Int) * 4 * 65536

/-- A unit's holdoff starts at an owning fire; `later` of its own conditions of the same slot already lie after it (R154, R157). -/
def startHoldoff (n : Nat) (f : Int) (later : Nat) (s : State) : State :=
  if app (TRG_HOLDOFF_HI.EN n) s = 0 then s
  else if app (TRG_HOLDOFF_HI.MODE n) s = 0 then setUnit n (fun u => { u with holdUntil := some (f + holdoffSpan n s) }) s
  else setUnit n (fun u => { u with holdCount := app (TRG_HOLDOFF_LO.VALUE n) s % 2 ^ 24 + 1 - later, holdAfter := f }) s

/-- Whether a corrected time lies inside a unit's time holdoff: the one that runs, or the last one that has run out, which still turns away
conditions decided later (R157). -/
def inHoldoff (u : UnitState) (t : Int) : Bool :=
  (match u.holdUntil with
   | some x => decide (t < x)
   | none => false) ||
  (match u.holdFloor with
   | some x => decide (t < x)
   | none => false)

/-- A condition meets the unit's holdoff: whether it may be offered, and the unit after counting it. DEDUCED: log entry 40. -/
def passHoldoff (u : UnitState) (t : Int) : Bool × UnitState :=
  if inHoldoff u t then (false, u)
  else if 0 < u.holdCount && u.holdAfter < t then (false, { u with holdCount := u.holdCount - 1 })
  else (true, u)

/-! ## Sequencing (R158, R159) -/

/-- What a unit would offer to the record engine: a fire, a candidate, a confirm or a failure of a candidate. -/
inductive Offer where
  | fire (t : Int)
  | candidate (t : Int)
  | confirm (cand t : Int)
  | fail (cand : Int)
  deriving DecidableEq, Repr

/-- Whether a hit is a condition that sequences count. -/
def isCond (k : HitKind) : Bool :=
  match k with
  | .cond => true
  | .confirm _ => true
  | _ => false

/-- A hit as a sequence takes it: its role (0 C, 1 A, 2 B) and the hit. -/
abbrev SeqStep := Nat × Hit

/-- Of two steps the one handled first: by slot, raw time, then C, A, B (R159). -/
def seqBefore (a b : SeqStep) : Bool :=
  a.2.slot < b.2.slot || (a.2.slot == b.2.slot && (a.2.raw < b.2.raw || (a.2.raw == b.2.raw && a.1 < b.1)))

/-- Inserts a step in the order of R159. -/
def insertStep (x : SeqStep) : List SeqStep → List SeqStep
  | [] => [x]
  | y :: ys => if seqBefore x y then x :: y :: ys else y :: insertStep x ys

/-- The steps that a unit takes from the hits of a slot. -/
def seqSteps (n : Nat) (hits : List Hit) (s : State) : List SeqStep :=
  let seq := app (TRG_SEQ.EN n) s == 1
  let l := hits.flatMap (fun h =>
    (if seq && app (TRG_SEQ.C_EN n) s == 1 && h.unit == app (TRG_SEQ.C_UNIT n) s && isCond h.kind then [(0, h)] else []) ++
    (if seq && h.unit == app (TRG_SEQ.A_UNIT n) s && isCond h.kind then [(1, h)] else []) ++
    (if h.unit == n then [(2, h)] else []))
  l.foldl (fun acc x => insertStep x acc) []

/-- One step of a sequencing unit (R158, R160). -/
def stepSequence (n : Nat) (x : SeqStep) (u : UnitState) (s : State) : List Offer × UnitState :=
  let drop : List Offer := match u.seqCand with | some c => [.fail c] | none => []
  match x.1 with
  | 0 => if u.seqB then (drop, { u with seqB := false, seqCount := 0, seqCand := none }) else ([], u)
  | 1 =>
    let u' := { u with seqB := true, seqCount := 0 }
    if specOn n s then (drop ++ [.candidate x.2.time], { u' with seqCand := some x.2.time }) else ([], u')
  | _ =>
    if u.seqB && isCond x.2.kind then
      if u.seqCount = app (TRG_SEQ.B_COUNT n) s then
        let out : Offer := match u.seqCand with
          | some c => .confirm c x.2.time
          | none => .fire x.2.time
        ([out], { u with seqB := false, seqCount := 0, seqCand := none })
      else ([], { u with seqCount := u.seqCount + 1 })
    else ([], u)

/-- One step of a unit without sequencing. -/
def stepPlain (x : SeqStep) : List Offer :=
  match x.2.kind with
  | .cond => [.fire x.2.time]
  | .opening => [.candidate x.2.time]
  | .confirm c => [.confirm c x.2.time]
  | .fail c => [.fail c]

/-- What a unit offers from the hits of a slot. -/
def offersOf (n : Nat) (hits : List Hit) (s : State) : List Offer × UnitState :=
  (seqSteps n hits s).foldl (fun (acc : List Offer × UnitState) x =>
    if app (TRG_SEQ.EN n) s = 1 then
      let r := stepSequence n x acc.2 s
      (acc.1 ++ r.1, r.2)
    else (acc.1 ++ stepPlain x, acc.2)) ([], unitOf n s)

/-! ## Candidates (R160 to R162) -/

/-- Counts an offered fire or confirm (R185). -/
def countOffered (n : Nat) (s : State) : State := bump (TRG_COUNT.OFFERED n) s

/-- A candidate of a unit is abandoned. -/
def dropCand (n : Nat) (c : Int) (s : State) : State :=
  abandonRec n c (setUnit n (fun u => { u with cands := u.cands.filter (fun x => x != c) }) s)

/-- A candidate is offered unless the unit is in holdoff at its time; one that opens no record is not kept. -/
def offerCand (n : Nat) (t : Int) (s : State) : State :=
  if inHoldoff (unitOf n s) t then s
  else
    let r := offerCandidate n (app (TRG_CTRL.TYPE n) s) t s
    if r.1 then
      let s := setUnit n (fun u => { u with cands := u.cands ++ [t] }) r.2
      { s with trg.deliveries := s.trg.deliveries ++ [⟨n, s.now + 8, t, false, true, s.now⟩] }
    else r.2

/-- A confirm with its own time: holdoff by count may turn it away, else the record is confirmed, holdoff starts from the candidate's time, and
open candidates inside it are abandoned (R157, R161, R162). -/
def confirmCand (n : Nat) (c own : Int) (s : State) : State :=
  if (unitOf n s).cands.contains c then
    let p := passHoldoff (unitOf n s) c
    let s := setUnit n (fun _ => p.2) s
    if !p.1 then dropCand n c s
    else
      let s := countOffered n (setUnit n (fun u => { u with cands := u.cands.filter (fun x => x != c) }) s)
      let r := confirmRec n c own s
      if r.1 then
        let s := startHoldoff n c 0 r.2
        let s := { s with trg.deliveries := s.trg.deliveries ++ [⟨n, s.now + 8, c, true, true, s.now⟩] }
        ((unitOf n s).cands.filter (fun x => c ≤ x && inHoldoff (unitOf n s) x)).foldl (fun s x => dropCand n x s) s
      else r.2
  else s

/-! ## Arbitration (R154, R172 to R176) -/

/-- A fire offered in this slot: unit, corrected time, and how many of the unit's later conditions the slot holds. -/
structure Fire where
  unit : Nat
  time : Int
  later : Nat
  deriving DecidableEq, Repr

/-- Inserts a fire by time, then unit (R172). -/
def insertFire (f : Fire) : List Fire → List Fire
  | [] => [f]
  | x :: xs => if f.time < x.time || (f.time == x.time && f.unit < x.unit) then f :: x :: xs else x :: insertFire f xs

/-- Times in rising order. -/
def insertTime (t : Int) : List Int → List Int
  | [] => [t]
  | x :: xs => if t < x then t :: x :: xs else x :: insertTime t xs

/-- A unit's fires of a slot: those that holdoff lets through, of which the earliest is offered and the others count (R154, R157). -/
def fireOf (n : Nat) (times : List Int) (s : State) : Option Fire × State :=
  let r := (times.foldl (fun l t => insertTime t l) []).foldl (fun (acc : Option Fire × UnitState) t =>
    match acc.1 with
    | some f => (some { f with later := f.later + 1 }, acc.2)
    | none =>
      let p := passHoldoff acc.2 t
      (if p.1 then some ⟨n, t, 0⟩ else none, p.2)) (none, unitOf n s)
  (r.1, setUnit n (fun _ => r.2) s)

/-- Counts a discarded fire (R176). -/
def discardFire (n : Nat) (s : State) : State := bump (TRG_COUNT.DISCARDED n) s

/-- A fire owns a record: holdoff starts and its time goes to the record engine (R157, R221). -/
def ownFire (f : Fire) (s : State) : State :=
  let s := startHoldoff f.unit f.time f.later s
  { s with trg.deliveries := s.trg.deliveries ++ [⟨f.unit, s.now + 8, f.time, false, false, s.now⟩] }

/-- Inserts a co-fire by time, then unit (R173). -/
def insertCof (c : Int × Nat) : List (Int × Nat) → List (Int × Nat)
  | [] => [c]
  | x :: xs => if c.1 < x.1 || (c.1 == x.1 && c.2 < x.2) then c :: x :: xs else x :: insertCof c xs

/-- A fire of another unit enters the co-fire list of a record, each unit once, and starts its holdoff from the owning fire (R157, R173). -/
def joinCof (id : Nat) (f : Fire) (s : State) : State :=
  match s.record.recs.find? (fun r => r.id == id) with
  | none => s
  | some r =>
    if f.unit = r.unit ∨ bit r.cofMask f.unit = true then s
    else
      let r' := { r with cofs := insertCof (f.time, f.unit) r.cofs, cofMask := r.cofMask ||| 2 ^ f.unit }
      startHoldoff f.unit r.time f.later { s with record.recs := s.record.recs.map (fun x => if x.id == id then r' else x) }

/-- The record opened last. -/
def lastOpened (before : State) (s : State) : Option Nat :=
  match armed before with
  | some r => some r.id
  | none => if before.record.nextId < s.record.nextId then some before.record.nextId else none

/-- Fires that may share a record are arbitrated: the first one the record engine accepts owns it, those after it join its list, and
those before it are discarded (R172, R173, R176; the last two DEDUCED, log entry 14). -/
def arbitrate : List Fire → State → State
  | [], s => s
  | f :: fs, s =>
    let r := offerFire f.unit (app (TRG_CTRL.TYPE f.unit) s) f.time s
    if !r.1 then arbitrate fs (discardFire f.unit r.2)
    else match lastOpened s r.2 with
      | none => arbitrate fs (ownFire f r.2)
      | some id =>
        let t := { ownFire f r.2 with trg.cof := some (id, s.now + 2 * app TRG_GLOBAL.COF_WIN s) }
        fs.foldl (fun s g => joinCof id g s) t

/-- A fire of a unit with its own segment sequence (R175): it neither owns with others nor joins them. -/
def arbitrateAlone (f : Fire) (s : State) : State :=
  let r := offerFire f.unit (app (TRG_CTRL.TYPE f.unit) s) f.time s
  if r.1 then ownFire f r.2 else discardFire f.unit r.2

/-- Whether a unit drives its own segment sequence (R175). -/
def indepUnit (n : Nat) (s : State) : Bool := mode s == 1 && app (TRG_CTRL.INDEP n) s == 1

/-- Fires that may share a record meet the open co-fire window: those of units other than the owner join its record's list, the rest are arbitrated
anew (R173). -/
def arbitrateFires (fires : List Fire) (s : State) : State :=
  match s.trg.cof with
  | some (id, last) =>
    match s.record.recs.find? (fun x => x.id == id) with
    | some r =>
      if s.now ≤ last then
        arbitrate (fires.filter (fun f => f.unit == r.unit)) ((fires.filter (fun f => f.unit != r.unit)).foldl (fun s f => joinCof id f s) s)
      else arbitrate fires { s with trg.cof := none }
    | none => arbitrate fires { s with trg.cof := none }
  | none => arbitrate fires s

/-- What a unit offers beside fires: candidates, confirms and failures (R160 to R162). -/
def serveOffer (n : Nat) (x : Offer) (s : State) : State :=
  match x with
  | .candidate t => offerCand n t s
  | .confirm c t => confirmCand n c t s
  | .fail c => dropCand n c s
  | .fire _ => s

/-- The times of the fires among offers. -/
def fireTimes (l : List Offer) : List Int := l.filterMap (fun x => match x with | .fire t => some t | _ => none)

/-- TRIGGER_DECISION: the conditions whose decision slot has come are sequenced, held off, and offered: fires are served before candidates and
confirms (R172 to R176, R194). A decision or a time that is late is absent (R54, kind 3). -/
def triggerDecision (s : State) : State :=
  let due := s.trg.hits.filter (fun h => h.slot ≤ s.now && !(isLate 2 h.unit s) && !(isLate 3 h.unit s))
  let s := { s with trg.hits := s.trg.hits.filter (fun h => s.now < h.slot) }
  let r := (List.range 4).foldl (fun (acc : List Fire × List (Nat × Offer) × State) n =>
    let o := offersOf n due acc.2.2
    let s := setUnit n (fun _ => o.2) acc.2.2
    if app (TRG_CTRL.ROLE n) s = 1 then (acc.1, acc.2.1, s)
    else
      let f := fireOf n (fireTimes o.1) s
      let offers := acc.2.1 ++ o.1.map (fun x => (n, x))
      match f.1 with
      | some x => (insertFire x acc.1, offers, countOffered n f.2)
      | none => (acc.1, offers, f.2)) ([], [], s)
  let s := (r.1.filter (fun f => indepUnit f.unit r.2.2)).foldl (fun s f => arbitrateAlone f s) r.2.2
  let s := arbitrateFires (r.1.filter (fun f => !(indepUnit f.unit r.2.2))) s
  r.2.1.foldl (fun s x => serveOffer x.1 x.2 s) s

/-- Meaning of TRIGGER_DECISION. -/
def execTriggerDecision (s : State) : Host.Outcome State Fault Refusal := .next (triggerDecision s)

/-- CANDIDATE_HORIZON: candidates of a unit older than 2^22 samples are abandoned; a confirm decided in this slot stands (R161). -/
def candidateHorizon (n : Nat) (s : State) : State :=
  let lim : Int := nowLsb s - (horizonBeats (activeConfig s) : Int) * beatLsb
  let confirmed := fun (c : Int) => s.trg.hits.any (fun h => h.unit == n && h.kind == .confirm c && h.slot ≤ s.now)
  ((unitOf n s).cands.filter (fun c => c < lim && !(confirmed c))).foldl (fun s c => dropCand n c s) s

/-- Meaning of CANDIDATE_HORIZON. -/
def execCandidateHorizon (unit : Nat) (s : State) : Host.Outcome State Fault Refusal := .next (candidateHorizon unit s)

/-! ## Serial fields (R166, R167) -/

/-- The value a DATA field with SPAN gives: the SPAN consecutive bytes that end with this result, first byte lowest. -/
def spanValue (n : Nat) (r : FieldResult) (s : State) : Option (Nat × Nat) :=
  let k := app (TRG_SER.SPAN n) s
  if k = 0 then some (r.index, r.value)
  else if r.index < k then none
  else
    let past := (unitOf n s).spanBytes
    let at' := fun (i : Nat) => (past.find? (fun b => b.1 == r.field && b.2.1 == i)).map (·.2.2)
    let first := r.index - k
    let bytes := (List.range k).map (fun j => at' (first + j))
    if bytes.all (·.isSome) then some (first, ofLe (bytes.map (fun b => b.getD 0) ++ [r.value])) else none

/-- Whether a field result matches a unit's TRG_SER (R166). -/
def serialMatch (n : Nat) (r : FieldResult) (s : State) : Bool :=
  r.field == app (TRG_SER.FIELD n) s &&
  (match spanValue n r s with
   | none => false
   | some (i, v) =>
     (app (TRG_SER.INDEX n) s == 0x7F || app (TRG_SER.INDEX n) s == i) &&
     (let mk := app (TRG_SER_MASK.MASK n) s
      let a := v &&& mk
      let b := app (TRG_SER_VAL.VAL n) s &&& mk
      match app (TRG_SER.OP n) s with
      | 0 => a == b
      | 1 => a != b
      | 2 => b < a
      | _ => a < b))

/-- A field result of a speculating unit's decoder (R160): FRAME_START opens a candidate, a matching field of the frame confirms it, and
FRAME_END, ERROR or a new FRAME_START without a match before abandon it. -/
def fieldSpec (n : Nat) (r : FieldResult) (m : Bool) (s : State) : State :=
  let hit := fun (k : HitKind) (s : State) => addHits n s.now [(k, r.time, r.time)] s
  let leave := fun (s : State) => setUnit n (fun u => { u with frame := none }) s
  let old := (unitOf n s).frame
  if r.field = 0 then
    let s := match old with
      | some (_, c) => hit (.fail c) s
      | none => s
    let s := hit .opening s
    if m then hit (.confirm (onGrid r.time s)) (leave s) else setUnit n (fun u => { u with frame := some (r.dec, onGrid r.time s) }) s
  else match old with
    | none => s
    | some (_, c) => if m then hit (.confirm c) (leave s) else if r.field ≤ 2 then hit (.fail c) (leave s) else s

/-- A field result reaches one unit (R160, R166, R167). -/
def fieldToUnit (r : FieldResult) (s : State) (n : Nat) : State :=
  if unitOn n s && app (TRG_CTRL.TYPE n) s == 7 && app (TRG_CTRL.SRC n) s == r.dec then
    let m := serialMatch n r s
    let s := setUnit n (fun u =>
      if r.field = 0 then { u with spanBytes := [] }
      else if isDataField r.field then { u with spanBytes := (r.field, r.index, r.value) :: u.spanBytes.take 3 } else u) s
    if specOwn n s then fieldSpec n r m s
    else if m then addHits n s.now [(.cond, r.time, r.time)] s
    else s
  else s

/-- FIELD_RESULT: the results due in this slot are counted and reach the units (R167, R187). -/
def fieldResult (s : State) : State :=
  let due := s.trg.results.filter (fun r => r.due ≤ s.now && !(isLate 4 r.dec s))
  let s := { s with trg.results := s.trg.results.filter (fun r => s.now < r.due) }
  due.foldl (fun s r =>
    let s := if r.field = 0 then bump (DEC_STAT.FRAMES r.dec) s else if r.field = 2 then bump (DEC_STAT.ERRORS r.dec) s else s
    (List.range 4).foldl (fieldToUnit r) s) s

/-- Meaning of FIELD_RESULT. -/
def execFieldResult (s : State) : Host.Outcome State Fault Refusal := .next (fieldResult s)

/-! ## External, timer, software and Erost fires (R168 to R171) -/

/-- The beat of the first sample at or after an instant. -/
def beatOfInstant (t : Int) (s : State) : Nat :=
  let p := samplePeriod (activeConfig s)
  let k := -(-(t - etOffset s) / p)
  (k * p / beatLsb).toNat

/-- TRIG_IN_EDGE: an edge at a time in 1/64 ticks of the unstepped count is kept for patterns and decoders, and offered by EXTERNAL
units (R168). -/
def trigInEdge (rising : Bool) (time : Int) (s : State) : State :=
  let t := time * 1024
  let s := { s with trg.trigIn := rising, trg.edges := (t, rising) :: s.trg.edges.take 63 }
  (List.range 4).foldl (fun s n =>
    let sl := app (TRG_CTRL.SLOPE n) s
    if unitOn n s && app (TRG_CTRL.TYPE n) s == 8 && (sl == 2 || (sl == 0) == rising) then
      addHits n (decisionSlot (beatOfInstant t s)) [(.cond, t, t - deskew 4 s)] s
    else s) s

/-- Meaning of TRIG_IN_EDGE. -/
def execTrigInEdge (rising : Bool) (time : Int) (s : State) : Host.Outcome State Fault Refusal := .next (trigInEdge rising time s)

/-- The timer's period (R186). -/
def timerPer (s : State) : Nat := Nat.max 8 (app TRG_TIMER_PER.PER s)

/-- A time of the stepped tick count in fraction LSBs of the unstepped one (R491). -/
def unstepped (t : Int) (s : State) : Int := t - s.tickAdj * 65536


/-- A software fire (R171): the time of the first sample of the first beat that reaches the Avenue after this slot. DEDUCED: log entry 36. -/
def trgSw (value : Nat) (s : State) : State :=
  let b := (beatAfter s.now).toNat
  (List.range 4).foldl (fun s n =>
    if bit value n && unitOn n s && app (TRG_CTRL.TYPE n) s == 11 then
      addHits n (decisionSlot b) [(.cond, sampleTime b 0 s, sampleTime b 0 s)] s
    else s) s

/-- Meaning of TRG_SW. -/
def execTrgSw (value : Nat) (s : State) : Host.Outcome State Fault Refusal := .next (trgSw value s)

/-- A fire message from Erost port `port` (0 A, 1 B) with a time of the stepped count is decided in the next slot (R169). -/
def erostFire (port : Nat) (time : Int) (s : State) : State :=
  (List.range 4).foldl (fun s n =>
    let src := app (TRG_CTRL.SRC n) s
    if unitOn n s && app (TRG_CTRL.TYPE n) s == 9 && (src == 0 || src == port + 1) then
      addHits n (s.now + 1) [(.cond, unstepped time s, unstepped time s)] s
    else s) s

/-- HOLDOFF_END: a time holdoff has run out; conditions of earlier corrected times are still turned away (R157). -/
def holdoffEnd (n : Nat) (s : State) : State :=
  setUnit n (fun u => match u.holdUntil with
    | some x => if x ≤ nowLsb s then { u with holdUntil := none, holdFloor := some x } else u
    | none => u) s

/-- Meaning of HOLDOFF_END. -/
def execHoldoffEnd (unit : Nat) (s : State) : Host.Outcome State Fault Refusal := .next (holdoffEnd unit s)

/-! ## Abort (R180) -/

/-- A unit's holdoff, detection and sequence state are cleared, its candidates abandoned, and what it would have offered is dropped. -/
def clearUnit (n : Nat) (s : State) : State :=
  let s := (unitOf n s).cands.foldl (fun s c => dropCand n c s) s
  setUnit n (fun _ => {}) { s with trg.hits := s.trg.hits.filter (fun h => h.unit != n) }

/-- A write of 1 to TRG_CTRL.ABORT of a unit: ENABLE clears in every copy of the settings. -/
def abortUnit (n : Nat) (s : State) : State :=
  let s := clearUnit n s
  let s := { s with regs := regSet (TRG_CTRL.ENABLE n) 0 s.regs, committed := regSet (TRG_CTRL.ENABLE n) 0 s.committed,
                    applied := regSet (TRG_CTRL.ENABLE n) 0 s.applied }
  fault 0x0302 n 0 0 (set (TRG_STAT.ABORTED n) 1 s)

/-- TRG_ABORT: the units whose bits are set abort. -/
def trgAbort (value : Nat) (s : State) : State :=
  (List.range 4).foldl (fun s n => if bit value n then abortUnit n s else s) s

/-- Meaning of TRG_ABORT. -/
def execTrgAbort (value : Nat) (s : State) : Host.Outcome State Fault Refusal := .next (trgAbort value s)

/-- Every unit at a global abort: as an abort with ENABLE unchanged (R180); it is logged for the units with ENABLE set, in the register or in force
(R542). -/
def trgGlobalAbort (s : State) : State :=
  (List.range 4).foldl (fun s n =>
    let was := get (TRG_CTRL.ENABLE n) s == 1 || app (TRG_CTRL.ENABLE n) s == 1
    let s := set (TRG_STAT.ABORTED n) 1 (clearUnit n s)
    if was then fault 0x0302 n 0 0 s else s) s

/-! ## Status (R185) -/

/-- TRG_STAT's live fields of a unit. -/
def refreshTrgStat (n : Nat) (s : State) : State :=
  let u := unitOf n s
  let ho := (match u.holdUntil with | some x => decide (nowLsb s < x) | none => false) || 0 < u.holdCount
  setB (TRG_STAT.HOLDOFF n) ho (setB (TRG_STAT.SEQ n) u.seqB
    (setB (TRG_STAT.ARMED n) (app (TRG_CTRL.ENABLE n) s == 1 && !ho) s))

end Sys2Proof.Machine
end

