-- ==== Sys2Proof/Machine/Verifier.lean ====
section
/-! DEFINITION. The plan verifier (R34 to R40): the format checks and the invariants, in their order, each reporting its lowest slot and
then its lowest AUX. -/

namespace Sys2Proof.Machine

/-- A failure: CODE, SLOT, AUX (R34). -/
structure Reject where
  code : Nat
  slot : Nat
  aux : Nat
  deriving DecidableEq, Repr

/-- Of two places of failure within one check, the one with the lower slot, then the lower AUX (R34). -/
def firstOf (a b : Option (Nat × Nat)) : Option (Nat × Nat) :=
  match a, b with
  | none, y => y
  | x, none => x
  | some p, some q => if q.1 < p.1 || (q.1 == p.1 && q.2 < p.2) then some q else some p

/-- The first place of failure among many. -/
def firstIn (l : List (Option (Nat × Nat))) : Option (Nat × Nat) := l.foldl firstOf none

/-- A failure at slot 0, AUX 0 when a test does not hold. -/
def demand (ok : Bool) : Option (Nat × Nat) := if ok then none else some (0, 0)

/-- The client codes of R23, 0x00 left out. -/
def clientCodes : List Nat :=
  [1, 2, 3, 4, 5, 6, 7, 8, 0x10, 0x11, 0x12, 0x13, 0x18, 0x1C, 0x20, 0x24, 0x28, 0x2C, 0x2D, 0x30]

/-- Owners that R23 lets into the Boulevard table. -/
def blvCodes : List Nat := [1, 2, 3, 4, 5, 6, 7, 8, 0x20, 0x24, 0x2C, 0x2D, 0x30]

/-- Whether a code is an ingest stream's. -/
def isIngest (c : Nat) : Bool := 1 ≤ c && c ≤ 8

/-- Every slot index. -/
def slots : List Nat := List.range 4096

namespace PlanImage

/-- Check 0x20. -/
def badHeader (p : PlanImage) : Bool :=
  !(p.magic == 0x4E4C5056 && p.half 4 == 1 && p.half 6 == 0x100 && p.byte 0x21 == 17 &&
    1 ≤ p.ownCount && p.ownCount ≤ 64 && p.mode ≤ 7 && p.config ≤ 3 && p.half 0x22 == 0 &&
    (List.range 52).all (fun i => p.word (0x2C + 4 * i) == 0))

/-- The bytes of the plan with the CRC field taken as zero (R26). -/
def crcBytesOf (p : PlanImage) : List Nat :=
  (List.range p.size).map (fun i => if 0xFC ≤ i ∧ i < 0x100 then 0 else p.byte i)

/-- Check 0x21. -/
def badCrc (p : PlanImage) : Bool :=
  256 ≤ p.size && p.size ≤ 131072 && crc32c (p.crcBytesOf) != p.word 0xFC

/-- The four tables: offset and length (R25). -/
def tables (p : PlanImage) : List (Nat × Nat) :=
  [(p.sqOfs, 65536), (p.blvOfs, 32768), (p.ownOfs, 16 * p.ownCount), (p.latOfs, 68)]

/-- Check 0x22. -/
def badTables (p : PlanImage) : Bool :=
  !(256 ≤ p.size && p.size ≤ 131072 &&
    p.tables.all (fun t => 0x100 ≤ t.1 && t.1 % 64 == 0 && t.1 + t.2 ≤ p.size) &&
    (List.range 4).all (fun i => (List.range i).all (fun j =>
      let a := nth p.tables i (0, 0)
      let b := nth p.tables j (0, 0)
      a.1 + a.2 ≤ b.1 || b.1 + b.2 ≤ a.1)))

/-- Check 0x23 on one claim: reserved owner or OP, or an empty claim that is not all zero. -/
def badClaim (w : Nat) : Bool :=
  let c := claimOf w
  if c.owner = 0 then w != 0 else !(clientCodes.contains c.owner) || c.op == 3

/-- Check 0x23 on one command entry of a slot. -/
def badEntry (w s : Nat) : Bool :=
  let e := entryOf w
  7 ≤ e.op || bits w 7 9 != 0 || bits w 24 24 != 0 || bits w 48 12 != s || bits w 60 4 != 0 ||
  (e.op == 0) != (e.owner == 0) || (e.owner != 0 && !(clientCodes.contains e.owner))

/-- Check 0x23. -/
def reservedAt (p : PlanImage) (s : Nat) : Option (Nat × Nat) :=
  match (List.range 8).find? (fun c => badClaim (p.rawClaim s c)) with
  | some c => some (s, c)
  | none => if badEntry (p.rawEntry s) s then some (s, 8) else none

/-- Check 0x25 on declaration `i` (R24, R30). Of two declarations of one code the later is the offence. DESIGN CHOICE: log entry 128. -/
def badDecl (p : PlanImage) (i : Nat) : Bool :=
  let d := p.decl i
  !(clientCodes.contains d.code) || (List.range i).any (fun j => (p.decl j).code == d.code) || 4 ≤ d.use || 4096 < d.window ||
  p.half (p.ownOfs + 16 * i + 14) != 0 ||
  (if isIngest d.code then !(d.use == 1 || d.use == 2) else d.produce != 0 || d.prefill != 0 || d.depth != 0)

/-- The declaration of a code. -/
def declOf (p : PlanImage) (code : Nat) : Option Decl := p.decls.find? (fun d => d.code == code)

/-- Check 0x24 on a claim (R24, R28). -/
def misusedClaim (p : PlanImage) (c : Claim) : Bool :=
  c.owner != 0 &&
  (match p.declOf c.owner with
   | none => true
   | some d => !(bit d.use 0) || (isIngest c.owner && c.op == 0) || (c.owner == 0x30 && c.op != 0))

/-- Check 0x24 on a command entry. -/
def misusedEntry (p : PlanImage) (e : Entry) : Bool :=
  e.owner != 0 &&
  (match p.declOf e.owner with
   | none => true
   | some d => !(bit d.use 1) || !(blvCodes.contains e.owner) || (isIngest e.owner && e.op != 1 && e.op != 3))

/-- Check 0x24 at a slot. -/
def misusedAt (p : PlanImage) (s : Nat) : Option (Nat × Nat) :=
  match (List.range 8).find? (fun c => p.misusedClaim (p.claim s c)) with
  | some c => some (s, c)
  | none => if p.misusedEntry (p.entry s) then some (s, 8) else none

/-! ### Invariants -/

/-- The claims of every slot. -/
def claimsOf (p : PlanImage) (s : Nat) : List Claim := (List.range 8).map (p.claim s)

/-- Invariant 0x02 at a slot: the claim index of the second claim on a bank. -/
def doubleAt (p : PlanImage) (s : Nat) : Option (Nat × Nat) :=
  ((List.range 8).find? (fun c => (p.claim s c).owner != 0 &&
    (List.range c).any (fun b => (p.claim s b).owner != 0 && (p.claim s b).bank == (p.claim s c).bank))).map (fun c => (s, c))

/-- Data write entries of an ingest owner in a slot (R30, R36). -/
def dataWrites (p : PlanImage) (o : Owner) (s : Nat) : Nat :=
  ((p.claimsOf s).filter (fun c => c.owner == o && c.op != 0)).length + (if (p.entry s).owner == o && (p.entry s).op == 1 then 1 else 0)

/-- Claims and commands of an owner in a slot. -/
def entriesOf (p : PlanImage) (o : Owner) (s : Nat) : Nat :=
  ((p.claimsOf s).filter (fun c => c.owner == o)).length + (if (p.entry s).owner == o then 1 else 0)

/-- Square claims of an owner in a slot. -/
def squareOf (p : PlanImage) (o : Owner) (s : Nat) : Nat := ((p.claimsOf s).filter (fun c => c.owner == o)).length

/-- Invariant 0x03. -/
def shortIngest (p : PlanImage) : Option (Nat × Nat) :=
  ((List.range p.ownCount).find? (fun i =>
    let d := p.decl i
    let n := (slots.map (p.dataWrites d.code)).sum
    isIngest d.code && !(d.need ≤ n && d.produce * 2048 ≤ 64 * n))).map (fun i => (0, i))

/-- The largest sum over non-empty cyclic runs of at most `n` of the values given, with the lowest start that reaches it: `l` is
the list of values twice in a row. -/
def bestRun (vals : Array Int) (n : Nat) : Int × Nat :=
  (List.range n).foldl (fun best start =>
    let r := (List.range n).foldl (fun (acc : Int × Int) k =>
      let sum := acc.1 + vals.getD ((start + k) % n) 0
      (sum, if k = 0 || acc.2 < sum then sum else acc.2)) (0, 0)
    if start = 0 || best.1 < r.2 then (r.2, start) else best) (0, 0)

/-- D_max with the start slot of its window, and S_max (R36), by whole beats. -/
def bufferSwing (p : PlanImage) (d : Decl) : Int × Nat × Int :=
  let net : Array Int := ((List.range 2048).map (fun b =>
    64 * ((p.dataWrites d.code (2 * b) + p.dataWrites d.code (2 * b + 1) : Nat) : Int) - (d.produce : Int))).toArray
  let dmax := bestRun net 2048
  let smax := bestRun (net.map (fun v => -v)) 2048
  (dmax.1, 2 * dmax.2, smax.1)

/-- Ceiling of an integer over 64. -/
def ceil64 (v : Int) : Int := (v + 63) / 64

/-- Invariant 0x04 on declaration `i`. -/
def shortBuffer (p : PlanImage) (i : Nat) : Option (Nat × Nat) :=
  let d := p.decl i
  if isIngest d.code then
    let sw := p.bufferSwing d
    let pre := ceil64 (sw.1 + 64)
    let dep := pre + ceil64 (sw.2.2 + d.produce)
    if pre ≤ d.prefill && dep ≤ d.depth && d.depth ≤ (if d.use == 2 then 64 else 8) then none else some (sw.2.1, i)
  else none

/-- A run as invariant 0x05 follows it: owner, kind (true for check bytes), OP, entries so far, and the position of OPEN. -/
structure RunTrace where
  owner : Owner
  check : Bool
  op : Nat
  n : Nat
  start : Nat

/-- The history invariant 0x05 keeps on one channel: open runs, positions of the latest write-type and read-type entries, and of the
latest OPENs, newest first. -/
structure SpacingTrace where
  runs : List RunTrace := []
  lastWr : Option Nat := none
  lastRd : Option Nat := none
  opens : List Nat := []
  bad : Option (Nat × Nat) := none

/-- Whether an OP is read-type or write-type (R38). -/
def isRd (op : Nat) : Bool := op == 2 || op == 4 || op == 6
def isWr (op : Nat) : Bool := op == 1 || op == 3

/-- Whether a position follows an earlier one by less than a distance. -/
def near (earlier : Option Nat) (t d : Nat) : Bool :=
  match earlier with
  | none => false
  | some e => t < e + d

/-- The rules of R38 an entry breaks at position `t` of a walk, lowest number first. -/
def brokenRules (h : SpacingTrace) (e : Entry) (t : Nat) : List Nat :=
  let rw := isRd e.op || isWr e.op
  let member := 1 ≤ e.op && e.op ≤ 4
  let chk := 3 ≤ e.op
  let run := h.runs.find? (fun r => r.owner == e.owner && r.check == chk)
  let limit := if chk then 8 else 64
  (if rw && (near h.lastWr t 2 || near h.lastRd t 2) then [1] else []) ++
  (if isRd e.op && near h.lastWr t 12 then [2] else []) ++
  (if isWr e.op && near h.lastRd t 8 then [3] else []) ++
  (if e.open' && (near h.opens.head? t 4 || 4 ≤ (h.opens.filter (fun o => t < o + 20)).length) then [4] else []) ++
  (if member && (match run with
      | none => e.close && !e.open'
      | some r => e.open' || r.op != e.op || limit < r.n + 1 || r.start + 512 < t) then [5] else []) ++
  (if member && e.open' && run.isNone && 4 ≤ h.runs.length then [6] else []) ++
  (if (member && run.isNone && !e.open') || (!member && (e.open' || e.close)) then [7] else [])

/-- The history after an entry of the channel at position `t`. -/
def traceEntry (h : SpacingTrace) (e : Entry) (t : Nat) (judged : Bool) : SpacingTrace :=
  let member := 1 ≤ e.op && e.op ≤ 4
  let chk := 3 ≤ e.op
  let others := h.runs.filter (fun r => !(r.owner == e.owner && r.check == chk))
  let run := h.runs.find? (fun r => r.owner == e.owner && r.check == chk)
  let bad := if judged then (match brokenRules h e t with | [] => none | r :: _ => some (t % 4096, r)) else none
  { runs := if !member then h.runs
            else if e.close then others
            else if e.open' then ⟨e.owner, chk, e.op, 1, t⟩ :: others
            else (match run with | none => h.runs | some r => { r with n := r.n + 1 } :: others)
    lastWr := if isWr e.op then some t else h.lastWr
    lastRd := if isRd e.op then some t else h.lastRd
    opens := if e.open' then t :: h.opens.take 5 else h.opens
    bad := firstOf h.bad bad }

/-- Invariant 0x05 on one channel: the table is walked twice, so that the second walk sees what the wrap carries over. -/
def spacingOn (p : PlanImage) (ch : Nat) : Option (Nat × Nat) :=
  ((List.range 8192).foldl (fun h t =>
    let e := p.entry (t % 4096)
    if e.ch = ch then traceEntry h e t (4096 ≤ t) else h) ({} : SpacingTrace)).bad

/-- Invariant 0x06 on one channel (R39). -/
def refreshOn (p : PlanImage) (ch : Nat) : Option (Nat × Nat) :=
  let refs := slots.filter (fun s => (p.entry s).op == 5 && (p.entry s).ch == ch)
  let mrrs := slots.filter (fun s => (p.entry s).op == 6 && (p.entry s).ch == ch)
  let foreign := (slots.find? (fun s => (p.entry s).ch == ch && ((p.entry s).op == 5 || (p.entry s).op == 6) && (p.entry s).owner != 0x30)).map
    (fun s => (s, ch))
  let gap := match refs.getLast? with
    | none => none
    | some last =>
      (refs.foldl (fun (acc : Nat × Option (Nat × Nat)) r =>
        (r + 4096, if acc.1 + 120 < r + 4096 then firstOf acc.2 (some (r, ch)) else acc.2)) (last, none)).2
  firstIn [foreign, gap, if refs.isEmpty || mrrs.isEmpty then some (0, ch) else none]

/-- Invariant 0x07: a bank with fewer than 64 Alley claims. -/
def shortAlley (p : PlanImage) : Option (Nat × Nat) :=
  let counts : Array Nat := slots.foldl (fun a s => (p.claimsOf s).foldl (fun a c =>
    if c.owner = 0x30 then a.modify c.bank (· + 1) else a) a) (Array.replicate 64 0)
  ((List.range 64).find? (fun b => counts.getD b 0 < 64)).map (fun b => (0, b))

/-- The lowest start of a cyclic window of `w` slots that holds fewer than `n` of the counted things. -/
def shortWindow (cnt : Array Nat) (w n : Nat) : Option (Nat × Nat) :=
  let first := ((List.range w).map (fun k => cnt.getD (k % 4096) 0)).sum
  ((slots.foldl (fun (acc : Nat × Option (Nat × Nat)) s =>
    let bad := match acc.2 with
      | some b => some b
      | none => if acc.1 < n then some (s, 0) else none
    (acc.1 + cnt.getD ((s + w) % 4096) 0 - cnt.getD s 0, bad)) (first, none))).2

/-- The number of Square claims of an owner by slot. -/
def squareCounts (p : PlanImage) (o : Owner) : Array Nat := (slots.map (p.squareOf o)).toArray

/-- Invariant 0x08 (R40): `disp` holds the line time in whole slots and the lines one displayed line needs, none when the check
passes without a look at the plan. -/
def shortDisplay (p : PlanImage) (disp : Option (Nat × Nat)) : Option (Nat × Nat) :=
  match disp with
  | none => none
  | some (lineSlots, lines) =>
    match p.declOf 0x28 with
    | none => some (0, 0)
    | some d =>
      if d.window = 0 || lineSlots < d.window || d.perWindow < lines then some (0, 0)
      else shortWindow (p.squareCounts 0x28) d.window d.perWindow

/-- Invariants 0x09 and 0x0A: an owner declared, with its NEED, a claim in every window of `w` slots, and, where `per` is set, its own
window rule. -/
def shortOwner (p : PlanImage) (o : Owner) (w : Nat) (per : Bool) : Option (Nat × Nat) :=
  match p.declOf o with
  | none => some (0, 0)
  | some d =>
    if (slots.map (p.entriesOf o)).sum < d.need then some (0, 0)
    else
      let cnt := p.squareCounts o
      firstOf (shortWindow cnt w 1) (if per && d.window ≠ 0 then shortWindow cnt d.window d.perWindow else none)

/-- The latencies of R32 in order of unit code. -/
def latencies : List Nat := [40, 12, 8, 24, 6, 4, 3, 1, 8, 8, 32, 24, 10, 44, 4, 16, 6]

/-- Invariant 0x0B: declarations (R31), then the pairing of R33 (AUX 31). -/
def badLatency (p : PlanImage) : Option (Nat × Nat) :=
  let decl := ((List.range 17).find? (fun i =>
    p.word (p.latOfs + 4 * i) != (i + 1) + 65536 * nth latencies i 0)).map (fun i => (0, i))
  let paired := fun (o : Owner) => (0x10 ≤ o && o ≤ 0x13) || o == 0x18
  let pair := (slots.find? (fun s => (p.claimsOf s).any (fun c => paired c.owner && c.op == 0 &&
    !((p.claimsOf ((s + 8) % 4096)).any (fun e => e.owner == c.owner && e.bank == c.bank && e.op != 0))))).map (fun s => (s, 31))
  firstOf decl pair

/-- The checks in their order (R34), each computed only when those before it pass. -/
def checks (p : PlanImage) (disp : Option (Nat × Nat)) : List (Nat × (Unit → Option (Nat × Nat))) :=
  [(0x20, fun _ => demand (!p.badHeader)),
   (0x21, fun _ => demand (!p.badCrc)),
   (0x22, fun _ => demand (!p.badTables)),
   (0x23, fun _ => slots.findSome? p.reservedAt),
   (0x25, fun _ => ((List.range p.ownCount).find? p.badDecl).map (fun i => (0, i))),
   (0x24, fun _ => slots.findSome? p.misusedAt),
   (0x01, fun _ => demand (p.half 8 == 4096)),
   (0x02, fun _ => slots.findSome? p.doubleAt),
   (0x03, fun _ => p.shortIngest),
   (0x04, fun _ => firstIn ((List.range p.ownCount).map p.shortBuffer)),
   (0x05, fun _ => firstOf (p.spacingOn 0) (p.spacingOn 1)),
   (0x06, fun _ => firstOf (p.refreshOn 0) (p.refreshOn 1)),
   (0x07, fun _ => p.shortAlley),
   (0x08, fun _ => p.shortDisplay disp),
   (0x09, fun _ => p.shortOwner 0x20 32 true),
   (0x0A, fun _ => p.shortOwner 0x24 64 false),
   (0x0B, fun _ => p.badLatency)]

/-- The first failing check of a list. DEDUCED: log entry 47. -/
def firstFailing : List (Nat × (Unit → Option (Nat × Nat))) → Option Reject
  | [] => none
  | (code, f) :: rest =>
    match f () with
    | some (slot, aux) => some ⟨code, slot, aux⟩
    | none => firstFailing rest

/-- The verdict of the verifier: none accepts (R34). -/
def verdict (p : PlanImage) (disp : Option (Nat × Nat)) : Option Reject := firstFailing (p.checks disp)

/-! ### What verification records of a plan (R234, R301, R368) -/

/-- Whether every cyclic window of `w` slots holds at least `n` of the slots that a test accepts. -/
def everyWindow (test : Nat → Nat) (w n : Nat) : Bool := (shortWindow ((slots.map test).toArray) w n).isNone

/-- C0_SQ (R301). -/
def c0Sq (p : PlanImage) : Bool :=
  (List.range 64).all (fun b => everyWindow (fun s =>
    ((p.claimsOf s).filter (fun c => c.owner == 0x20 && c.op == 0 && c.bank == b)).length) 31 1)

/-- C0_BLV (R301). -/
def c0Blv (p : PlanImage) : Bool :=
  (List.range 2).all (fun ch => everyWindow (fun s =>
    let e := p.entry s
    if e.owner == 0x20 && e.op == 2 && e.open' && e.ch == ch then 1 else 0) 62 2)

/-- The smallest number of read claims of an owner in any cyclic 64-slot window (R234). -/
def minReads (p : PlanImage) (o : Owner) : Nat :=
  let cnt : Array Nat := (slots.map (fun s => ((p.claimsOf s).filter (fun c => c.owner == o && c.op == 0)).length)).toArray
  let first := ((List.range 64).map (fun k => cnt.getD k 0)).sum
  (slots.foldl (fun (acc : Nat × Nat) s =>
    (acc.1 + cnt.getD ((s + 64) % 4096) 0 - cnt.getD s 0, Nat.min acc.1 acc.2)) (first, first)).2

end PlanImage

end Sys2Proof.Machine
end

