-- ==== Sys2Proof/Machine/Reduction.lean ====
section
/-! DEFINITION. The reduction stage, averaging and persistence (R221 to R240, R251 to R253). -/

namespace Sys2Proof.Machine

/-! ## The tap history (R221) -/

/-- Replaces one tap: 0 to 3 the inputs, 4 to 7 the outputs. -/
def setTap (i : Nat) (f : List (Nat × List Int × Nat) → List (Nat × List Int × Nat)) (s : State) : State :=
  let t := s.red.taps ++ List.replicate (8 - s.red.taps.length) []
  { s with red.taps := modifyNth f i t }

/-- The oldest beat that a tap's history of 512 beats holds: an output's beats enter it 6 slots later than an input's (R221, R224). -/
def oldestHeld (tap : Nat) (s : State) : Int := (s.ave.beat : Int) - 512 - (if tap < 4 then 0 else 3)

/-- The first beat that an open record, an accumulation unit or a bitmap still needs. -/
def neededFrom (s : State) : Int :=
  let least := fun (m x : Int) => if x < m then x else m
  let m := s.record.recs.foldl (fun m r => if r.phase != .armed then least m r.first else m) (oldestHeld 4 s)
  let m := s.red.aus.foldl (fun m u => u.cur.foldl (fun m c => if c.added then m else least m c.first) m) m
  s.red.per.maps.foldl (fun m b => if b.complete then m else least m b.first) m

/-- Adds a beat's values to a tap; values of one beat join. -/
def addTap (i b : Nat) (v : List Int) (flags : Nat) (s : State) : State :=
  let keep := neededFrom s
  setTap i (fun l =>
    match l with
    | (b0, v0, f0) :: rest => if b0 = b then (b0, v0 ++ v, f0 ||| flags) :: rest
                              else (b, v, flags) :: l.filter (fun e => keep ≤ (e.1 : Int))
    | [] => [(b, v, flags)]) s

/-- The values of a tap in a range of beats, oldest first, in 1/16 LSB. -/
def tapValues (i : Nat) (f l : Int) (s : State) : List Int :=
  (nth s.red.taps i []).foldl (fun acc e => if f ≤ e.1 ∧ (e.1 : Int) ≤ l then e.2.1 ++ acc else acc) []

/-- The flags of a tap in a range of beats. -/
def tapFlags (i : Nat) (f l : Int) (s : State) : Nat :=
  (nth s.red.taps i []).foldl (fun acc e => if f ≤ e.1 ∧ (e.1 : Int) ≤ l then acc ||| e.2.2 else acc) 0

/-- The tap a SRC and RED select. -/
def tapOf (src red : Nat) : Nat := if red = 1 then 4 + src else src

/-- Flags 1 OVR, 2 LANE_SUSPECT, 4 HOLE, 8 REFSW that beats of an input carry (R201, R226). -/
def beatFlags (input : Nat) (f l : Int) (s : State) : Nat :=
  let m := s.ave.marks.foldl (fun a k => if k.input = input ∧ f ≤ k.beat ∧ (k.beat : Int) ≤ l then a ||| k.flags else a) 0
  m ||| 8 * b2n (s.clk.switches.any (fun t => f * beatLsb ≤ t && t < (l + 1) * beatLsb))

/-- The last sample that a tap of an input holds of a beat. -/
def lastSample (input : Nat) (b : Int) (s : State) : Option Int :=
  ((nth s.red.taps input []).find? (fun e => (e.1 : Int) == b)).bind (fun e => (e.2.1.getLast?).map (· / 16))

/-! ## Outputs (R222 to R228) -/

/-- Replaces an output. -/
def setOut (n : Nat) (f : RedOut → RedOut) (s : State) : State := { s with red.outs := modifyNth f n s.red.outs }

/-- An output. -/
def outOf (n : Nat) (s : State) : RedOut := nth s.red.outs n {}

/-- The value of HIRES for a sum over 2^K samples (R223). -/
def hires (k : Nat) (sum : Int) : Int :=
  if k ≤ 4 then sum * 2 ^ (4 - k) else (sum + 2 ^ (k - 5)) / 2 ^ (k - 4)

/-- The values of a complete group (R223). -/
def groupValues (o : RedOut) : List Int :=
  match o.cur.mode with
  | 0 => [16 * o.first]
  | 2 => [hires o.cur.k o.sum]
  | _ => [16 * o.mn, 16 * o.mx]

/-- One sample of an output's input, with global index `m`, its sampling instant and its beat, and the sample before it with its beat: a group
opens, grows, and closes with its values due 6 slots after the present beat (R222 to R224). DEDUCED: log entry 41. -/
def reduceSample (m now : Nat) (t : Int) (b : Nat) (prev : Option (Int × Int)) (y : Int) (o : RedOut) : RedOut :=
  let n := 2 ^ o.cur.k
  let o :=
    if m % n = 0 then
      let before := if o.cur.mode = 3 then prev else none
      let lo := match before with | some p => if p.1 < y then p.1 else y | none => y
      let hi := match before with | some p => if y < p.1 then p.1 else y | none => y
      { o with sum := y, mn := lo, mx := hi, first := y, count := 1, start := t, beat := b,
               from_ := match before with | some p => p.2 | none => b }
    else if 0 < o.count then
      { o with sum := o.sum + y, mn := if y < o.mn then y else o.mn, mx := if o.mx < y then y else o.mx, count := o.count + 1 }
    else o
  if m % n = n - 1 ∧ o.count = n then
    { o with count := 0, due := o.due ++ [{ slot := now + 6, time := o.start, beat := o.beat, from_ := o.from_, last := b, values := groupValues o }] }
  else o

/-- The bytes of a queue line with the flags of the beats that contribute to it (R226). -/
def queueLine (o : RedOut) (s : State) : List Nat :=
  let w := redWidth o.out.mode
  t80 (reportedTime o.lineTime s) ++ leBytes 2 o.out.gen ++
    [b2n o.gap + 2 * beatFlags o.out.src o.lineFrom o.lineLast s % 32, o.values.length / w] ++ leBytes 2 (o.line % 65536) ++
    (o.values ++ List.replicate (24 - o.values.length) 0).flatMap (fun v => leBytes 2 (toBits 16 v))

/-- Keeps RED_Q_STAT's depth and watermark (R226, R228, R251). -/
def outStat (n : Nat) (s : State) : State :=
  let d := (outOf n s).queue.length
  setB (RED_Q_STAT.WM n) (decide ((outOf n s).out.wm ≤ d)) (set (RED_Q_STAT.DEPTH n) d s)

/-- A line of output `n` is pushed, or discarded when the queue holds 64 (R227). -/
def pushLine (n : Nat) (s : State) : State :=
  let o := outOf n s
  if o.values.isEmpty then s
  else if 64 ≤ o.queue.length then
    let s := bump (RED_Q_STAT.OVF n) (setOut n (fun o => { o with values := [], line := o.line + 1, gap := true }) s)
    if o.ovfLogged then s else fault 0x0503 n 0 0 (setOut n (fun o => { o with ovfLogged := true }) s)
  else
    outStat n (setOut n (fun o => { o with queue := o.queue ++ [queueLine o s], values := [], line := o.line + 1, gap := false }) s)

/-- The settings of output `n` in a list of field values. -/
def redSet (n : Nat) (m : List (Nat × Nat)) (gen : Nat) : RedSet :=
  { src := regGet (RED_OUT_CTRL.SRC n) m, mode := regGet (RED_OUT_CTRL.MODE n) m, k := regGet (RED_OUT_CTRL.K n) m,
    sink := regGet (RED_OUT_CTRL.SINK n) m, wm := regGet (RED_OUT_CTRL.WM n) m, gen := gen }

/-- An output groups by new settings from here on; what it delivers follows when the values of the old ones are out (R228). -/
def takeSet (x : RedSet) (now : Nat) (o : RedOut) : RedOut :=
  if o.cur = x then o
  else
    let same := { o.cur with gen := x.gen } = x
    { o with cur := x, count := if same then o.count else 0, due := o.due ++ [{ slot := now + 6, change := some x }] }

/-- The changes of an output that are newer than a generation. -/
def changesAfter (gen : Nat) (l : List (Nat × RedSet)) : List (Nat × RedSet) :=
  match findIdx? (fun c => c.2.gen == gen) l with
  | some i => l.drop (i + 1)
  | none => l

/-- Settings that come into force in beat `b` of `sb` samples: for INGEST at the arm that applies them, for QUEUE at the first group boundary, by
the new setting, that lies at least 2 slots after the commit slot (R228). -/
def settleOut (n b sb : Nat) (s : State) : State :=
  let o := outOf n s
  let gen := s.record.appliedGen
  if o.seen ≠ gen ∧ app (RED_OUT_CTRL.SINK n) s = 0 then
    setOut n (fun _ => takeSet (redSet n s.applied gen) s.now { o with seen := gen, changes := changesAfter gen o.changes }) s
  else
    let ok := fun (c : Nat × RedSet) => c.2.sink == 1 && decide (c.1 + 2 ≤ s.now ∧ (b * sb % 2 ^ c.2.k = 0 ∨ 2 ^ c.2.k ≤ sb))
    setOut n (fun _ => match o.changes.reverse.find? ok with
      | some c => takeSet c.2 s.now { o with seen := gen, changes := o.changes.filter (fun x => c.1 < x.1) }
      | none => { o with seen := gen }) s

/-- A commit leaves every output a change of settings (R228). -/
def commitOuts (s : State) : State :=
  { s with red.outs := s.red.outs.mapIdx (fun n o => { o with changes := o.changes ++ [(s.now, redSet n s.committed (get REC_GEN.GEN s))] }) }

/-- An output takes its input's samples of beat `b`. -/
def reduceInput (b sb n : Nat) (x : InputBeat) (s : State) : State :=
  let prev := (lastSample x.input ((b : Int) - 1) s).map (fun y => (y, (b : Int) - 1))
  setOut n (fun o => ((x.y.zipIdx).foldl (fun (acc : RedOut × Option (Int × Int)) p =>
    (reduceSample (b * sb + p.2) s.now (sampleTime b p.2 s) b acc.2 p.1 acc.1, some (p.1, (b : Int)))) (o, prev)).1) s

/-- Every output takes its input's samples of beat `b`. -/
def reduceBeat (b : Nat) (beats : List InputBeat) (s : State) : State :=
  let sb := samplesPerBeat (activeConfig s)
  (List.range 4).foldl (fun s n =>
    let s := settleOut n b sb s
    match beats.find? (fun x => x.input == (outOf n s).cur.src) with
    | none => s
    | some x => reduceInput b sb n x s) s

/-- Whether an output that delivers to ingest stops: its N exceeds S (R225). -/
def ingestStops (n : Nat) (s : State) : Bool :=
  (outOf n s).out.sink == 0 && samplesPerBeat (activeConfig s) < 2 ^ (outOf n s).out.k

/-- A delivery of output `n`: settings, or the values of a group, which enter the tap history and a queue's open line (R221, R226, R228). -/
def deliverOne (n : Nat) (d : RedDue) (s : State) : State :=
  match d.change with
  | some x => outStat n (setOut n (fun o => { o with out := x }) (if (outOf n s).out = { x with gen := (outOf n s).out.gen } then s else pushLine n s))
  | none =>
    let o := outOf n s
    let s := addTap (4 + n) d.beat d.values (beatFlags o.out.src d.from_ d.last s) s
    if o.out.sink = 0 then s
    else
      let s := setOut n (fun o => { o with
        lineTime := if o.values.isEmpty then d.time else o.lineTime
        lineFrom := if o.values.isEmpty then d.from_ else o.lineFrom
        lineLast := d.last
        values := o.values ++ d.values }) s
      if 24 ≤ (outOf n s).values.length then pushLine n s else s

/-- What output `n` delivers in this slot reaches the taps and its queue line, and ingest in one piece (R221, R224 to R226). -/
def deliverOut (n : Nat) (s : State) : State :=
  let due := (outOf n s).due.filter (fun d => d.slot ≤ s.now && (d.change.isSome || !(isLate 5 n s)))
  let s := setOut n (fun o => { o with due := o.due.filter (fun d => s.now < d.slot) }) s
  let s := due.foldl (fun s d => deliverOne n d s) s
  let fed := due.filter (fun d => d.change.isNone)
  if (outOf n s).out.sink = 0 ∧ fed ≠ [] ∧ ingestStops n s = false then
    streamsReduced n (fed.foldl (fun (m : Int) d => if m < d.last then d.last else m) 0) (fed.flatMap (·.values)) s
  else s

/-- At a swap an INGEST output with N above S stops its delivery (R225). -/
def redSwapCheck (s : State) : State :=
  (List.range 4).foldl (fun s n =>
    if ingestStops n s then
      fault 0x0505 n 0 0 (set RED_STAT.CFG_ERR (get RED_STAT.CFG_ERR s ||| 2 ^ n) s)
    else s) s

/-- Whether the output and ingest settings of a commit are invalid (R225). -/
def redInvalid (m : List (Nat × Nat)) (cfg : Nat) : Bool :=
  (List.range 4).any (fun n => 24 < regGet (RED_OUT_CTRL.K n) m ||
    (regGet (RED_OUT_CTRL.SINK n) m == 0 && samplesPerBeat cfg < 2 ^ regGet (RED_OUT_CTRL.K n) m)) ||
  (List.range 8).any (fun i => regGet (AVE_IS_CTRL.RED i) m == 1 && regGet (AVE_IS_CTRL.FMT i) m != 2)

/-- Whether a tap has all the values of beats up to `l` that it will ever have. -/
def tapComplete (tap : Nat) (l : Int) (s : State) : Bool :=
  if tap < 4 then decide (l < s.ave.beat)
  else
    let o := outOf (tap - 4) s
    decide (l < s.ave.beat) && !(o.due.any (fun d => d.change.isNone && decide ((d.beat : Int) ≤ l))) &&
      !(0 < o.count && decide ((o.beat : Int) ≤ l))

/-! ## Accumulation units (R229 to R235) -/

/-- S, and the N of a source: values per beat are their quotient (R234). -/
def valueRate (src red cfg : Nat) (m : List (Nat × Nat)) : Nat × Nat :=
  (samplesPerBeat cfg, if red = 1 then 2 ^ regGet (RED_OUT_CTRL.K src) m else 1)

/-- Values of a window, NS, and whether it is a whole number (R230). -/
def windowValues (src red cfg : Nat) (m : List (Nat × Nat)) : Nat × Bool :=
  let r := valueRate src red cfg m
  (regGet REC_LEN.LENGTH m * r.1 / r.2, regGet REC_LEN.LENGTH m * r.1 % r.2 == 0)

/-- What accumulation unit `n` takes by a list of field values: source, RED, NS, whether NS is whole, ILV, POINTS. -/
structure AuPlan where
  src : Nat
  red : Nat
  ns : Nat
  whole : Bool
  ilv : Nat
  points : Nat
  deriving DecidableEq, Repr

/-- The plan of unit `n` by a list of field values and a CONFIG. -/
def auPlan (n cfg : Nat) (m : List (Nat × Nat)) : AuPlan :=
  let src := regGet (RED_AU_CFG.SRC n) m
  let red := regGet (RED_AU_CFG.RED n) m
  let w := windowValues src red cfg m
  let ilv := 2 ^ regGet (RED_AU_CFG.ILV_LOG n) m
  ⟨src, red, w.1, w.2, ilv, ilv * w.1⟩

/-- Bytes of an array. -/
def auBytes (points : Nat) : Nat := 0x440 + 4 * points

/-- The smallest number of read claims of an owner in 64 slots of the active plan (R234); none under the boot plan. -/
def activeShare (o : Owner) (s : State) : Nat :=
  match activeSlot s with
  | none => 0
  | some n => (storeImage n s).minReads o

/-- Whether the demand of a unit, 2 · VPB + 2 read claims in 64 slots, exceeds its share (R234). -/
def auShort (n : Nat) (m : List (Nat × Nat)) (s : State) : Bool :=
  let p := auPlan n (activeConfig s) m
  let r := valueRate p.src p.red (activeConfig s) m
  activeShare (0x10 + n) s * r.2 < 2 * r.1 + 2 * r.2

/-- Bases of the arrays of a unit: two with PINGPONG. -/
def auBases (n : Nat) (m : List (Nat × Nat)) : List Nat :=
  let b := regGet (RED_AU_BASE.OFS n) m * 64
  if regGet (RED_AU_CFG.PINGPONG n) m = 1 then [b, regGet (RED_AU_BASE2.OFS n) m * 64] else [b]

/-- Whether the places of the enabled units' arrays break R229: one lies outside the accumulator region, or two units' arrays overlap. -/
def auPlacesBad (m : List (Nat × Nat)) (cfg : Nat) : Bool :=
  let lo := regGet SQ_ACC.BASE m * 2 ^ 20
  let hi := lo + regGet SQ_ACC.SIZE m * 2 ^ 20
  let en := (List.range 4).filter (fun n => regGet (RED_AU_CTRL.ENABLE n) m == 1)
  let ranges := en.flatMap (fun n => (auBases n m).map (fun b => (n, b, b + auBytes (auPlan n cfg m).points)))
  ranges.any (fun r => r.2.1 < lo || hi < r.2.2) ||
  ranges.any (fun a => ranges.any (fun b => a.1 < b.1 && a.2.1 < b.2.2 && b.2.1 < a.2.2))

/-- Whether the settings of the enabled units break the rules of R229 that do not repeat at a swap. -/
def auPlaceInvalid (m : List (Nat × Nat)) (cfg : Nat) : Bool :=
  (List.range 4).any (fun n => regGet (RED_AU_CTRL.ENABLE n) m == 1 &&
    (regGet REC_CFG.PLACE m != 0 || 1048576 < (auPlan n cfg m).points || phaseRange cfg < (auPlan n cfg m).ilv)) || auPlacesBad m cfg

/-- Whether the settings of the enabled units are invalid at a commit (R229). -/
def auInvalid (m : List (Nat × Nat)) (s : State) : Bool :=
  auPlaceInvalid m (activeConfig s) ||
  (List.range 4).any (fun n => regGet (RED_AU_CTRL.ENABLE n) m == 1 && (!(auPlan n (activeConfig s) m).whole || auShort n m s))

/-- Replaces an accumulation unit. -/
def setAu (n : Nat) (f : AuState → AuState) (s : State) : State := { s with red.aus := modifyNth f n s.red.aus }

/-- An accumulation unit, with its two arrays. -/
def auOf (n : Nat) (s : State) : AuState := nth s.red.aus n {}

/-- An array of a unit. -/
def arrayOf (u : AuState) (i : Nat) : AuArray := nth u.arrays i {}

/-- The active array of a unit. -/
def auArray (u : AuState) : AuArray := arrayOf u u.active

/-- Replaces an array of a unit. -/
def setArrayAt (n i : Nat) (f : AuArray → AuArray) (s : State) : State :=
  setAu n (fun u =>
    let l := u.arrays ++ List.replicate (2 - u.arrays.length) ({} : AuArray)
    { u with arrays := modifyNth f i l }) s

/-- RED_AU_STAT of a unit. -/
def auStat (n : Nat) (s : State) : State :=
  let u := auOf n s
  set (RED_AU_STAT.NREC n) (auArray u).nrec (set (RED_AU_STAT.ACTIVE n) u.active (setB (RED_AU_STAT.PLAN_SHORT n) u.short s))

/-- The share and window checks that a swap or a commit repeats (R229, R234). -/
def auCheck (m : List (Nat × Nat)) (s : State) : State :=
  (List.range 4).foldl (fun s n =>
    let bad := regGet (RED_AU_CTRL.ENABLE n) m == 1 && (auShort n m s || !(auPlan n (activeConfig s) m).whole)
    let s := if bad then fault 0x0501 n 0 0 s else s
    auStat n (setAu n (fun u => { u with short := bad }) s)) s

/-- Replaces the record a unit has under an id. -/
def setAuRec (n id : Nat) (f : AuRecord → AuRecord) (s : State) : State :=
  setAu n (fun u => { u with cur := u.cur.map (fun c => if c.recId == id then f c else c) }) s

/-- A record reaches a unit at the delivery of its fire (R221, R235). -/
def auBegin (n : Nat) (r : Rec) (s : State) : State :=
  let p := auPlan n r.gen.config r.gen.settings
  if regGet (RED_AU_CTRL.ENABLE n) r.gen.settings = 0 ∨ (auOf n s).short = true then s
  else if r.first < oldestHeld (tapOf p.src p.red) s then bump (RED_AU_STAT.LATE n) s
  else
    let j := r.gen.phase * p.ilv / phaseRange r.gen.config
    let c : AuRecord := ⟨r.id, r.gen, false, r.first, r.last, j, p.ns, 0, j * p.ns, [], false, false, false, 0⟩
    setAu n (fun u => { u with cur := u.cur ++ [c] }) s

/-- The bytes of the first line of an array (R230). -/
def arrayHeader (a : AuArray) : List Nat :=
  leBytes 2 (a.epoch.getD 0) ++ leBytes 2 a.gen ++ leBytes 4 a.flags ++ leBytes 4 a.nrec ++ leBytes 4 a.satpts ++ leBytes 4 a.ilv ++
    leBytes 4 a.points ++ leBytes 4 a.shift ++ List.replicate 36 0

/-- The bytes of line `k` of COUNT: 16 phase slots. -/
def countLine (a : AuArray) (k : Nat) : List Nat :=
  (List.range 16).flatMap (fun i => leBytes 4 (look a.counts (16 * k + i) 0))

/-- A line of the header or of COUNT waits for a write claim of the unit's own (R232). -/
def auLineOut (n : Nat) (a : Addr) (data : List Nat) (s : State) : State := addAcc ⟨0x10 + n, a, .write, data, allOn, .none, s.now⟩ s

/-- Line `k` of COUNT of an array is written. -/
def auCountOut (n i k : Nat) (s : State) : State :=
  let a := arrayOf (auOf n s) i
  auLineOut n (sqBase + a.base + 0x40 + 64 * k) (countLine a k) s

/-- Headers that have changed wait for their write claims (R232). -/
def auFlush (s : State) : State :=
  (List.range 4).foldl (fun s n => (List.range 2).foldl (fun s i =>
    let a := arrayOf (auOf n s) i
    if a.dirty then auLineOut n (sqBase + a.base) (arrayHeader a) (setArrayAt n i (fun a => { a with dirty := false }) s) else s) s) s

/-- An array restarts for a record (R233): header and COUNT are cleared, in the Square too. -/
def auRestart (n : Nat) (c : AuRecord) (s : State) : State :=
  let p := auPlan n c.gen.config c.gen.settings
  let i := (auOf n s).active
  let base := nth (auBases n c.gen.settings) i 0
  let s := setArrayAt n i (fun _ =>
    { base := base, points := p.points, ilv := p.ilv, shift := regGet (RED_AU_CFG.IN_SHIFT n) c.gen.settings,
      epoch := some c.gen.epoch, gen := c.gen.gen, dirty := true }) s
  (List.range 16).foldl (fun s k => auCountOut n i k s) s

/-- The record a unit works on: the first one not wholly added. -/
def auHead (n : Nat) (s : State) : Option AuRecord := (auOf n s).cur.find? (fun c => !c.added)

/-- The line of a point of an array. -/
def pointLine (a : AuArray) (p : Nat) : Addr := sqBase + a.base + 0x440 + p / 16 * 64

/-- A point after adding a value (R231). -/
def addPoint (first : Bool) (p v : Int) : Int :=
  if first then v
  else if p = 0x7FFFFFFF ∨ p = -0x80000000 then p
  else if 0x7FFFFFFF ≤ p + v then 0x7FFFFFFF
  else if p + v ≤ -0x80000000 then -0x80000000
  else p + v

/-- Whether a point is at one of the two values that mark saturation (R231). -/
def atMarker (p : Int) : Bool := p == 0x7FFFFFFF || p == -0x80000000

/-- The array that a record goes to: the unit switches at the target with PINGPONG, and without it stays with the array at RED_AU_BASE (R230,
R233). DEDUCED: log entry 116. -/
def auSwitch (n : Nat) (c : AuRecord) (s : State) : State :=
  let u := auOf n s
  if regGet (RED_AU_CFG.PINGPONG n) c.gen.settings = 0 then setAu n (fun u => { u with active := 0 }) s
  else if (auArray u).done then
    setArrayAt n (1 - u.active) (fun a => { a with restart := true }) (setAu n (fun u => { u with active := 1 - u.active }) s)
  else s

/-- The head record starts: the array restarts where R233 says so. A unit whose array is done adds nothing more. -/
def auOpen (n : Nat) (c : AuRecord) (s : State) : State :=
  let s := auSwitch n c s
  let a := auArray (auOf n s)
  let s := if a.epoch != some c.gen.epoch || a.restart || (auOf n s).restartAsked then
      auRestart n c (setAu n (fun u => { u with restartAsked := false }) s) else s
  let i := (auOf n s).active
  if (auArray (auOf n s)).done then auStat n (setAu n (fun u => { u with cur := u.cur.filter (fun x => x.recId != c.recId) }) s)
  else
    auStat n (setArrayAt n i (fun a => { a with flags := a.flags ||| c.flags, dirty := a.dirty || c.committed })
      (setAuRec n c.recId (fun x => { x with begun := true, array := i }) s))

/-- The values of a record that a unit has, by the taps. Values past the NS-th have no point (R230; DEDUCED, log entry 114). -/
def auValues (n : Nat) (c : AuRecord) (s : State) : List Int :=
  let p := auPlan n c.gen.config c.gen.settings
  (tapValues (tapOf p.src p.red) c.first c.last s).take c.total

/-- Up to which point a unit may ask for lines: those whose values are all there. -/
def auReady (n : Nat) (c : AuRecord) (s : State) : Nat :=
  let p := auPlan n c.gen.config c.gen.settings
  let lo := c.slot * c.total
  let ready := lo + (auValues n c s).length
  if lo + c.total ≤ ready ∨ tapComplete (tapOf p.src p.red) c.last s = true then lo + c.total else ready / 16 * 16

/-- A unit asks for the lines of its head record whose values are all there (R231, R259); short of claims it adds nothing (R229, R234). -/
def auStep (n : Nat) (s : State) : State :=
  if (auOf n s).short then s
  else match auHead n s with
  | none => s
  | some c0 =>
    let s := if c0.begun then s else auOpen n c0 s
    match auHead n s with
    | none => s
    | some c =>
      let upto := auReady n c s
      if !c.begun || upto ≤ c.asked then s
      else
        let a := arrayOf (auOf n s) c.array
        let lines := (List.range ((upto + 15) / 16 - c.asked / 16)).map (fun i => pointLine a (c.asked + 16 * i))
        let s := lines.foldl (fun s l => addAcc ⟨0x10 + n, l, .read, [], [], .au n, s.now⟩ s) s
        setAuRec n c.recId (fun x => { x with asked := upto, left := x.left ++ lines }) s

/-- A line that a unit asked for arrives: its write waits for the claim 8 slots after the read claim (R32, R33). -/
def auLand (n : Nat) (line : Addr) (data : List Nat) (s : State) : State :=
  match auHead n s with
  | none => s
  | some c => if c.left.contains line then addAcc ⟨0x10 + n, line, .write, data, allOn, .au n, s.now + 5⟩ s else s

/-- A line of points with the head record's values added, and how many of them newly saturate (R231); none where the record is gone. -/
def auPoints (n : Nat) (line : Addr) (data : List Nat) (s : State) : Option (List Nat × Nat) :=
  match auHead n s with
  | none => none
  | some c =>
    let a := arrayOf (auOf n s) c.array
    let v := auValues n c s
    let lo := c.slot * c.total
    let first := (line - (sqBase + a.base + 0x440)) / 4
    let fresh := look a.counts c.slot 0 == 0
    let r := (List.range 16).map (fun i =>
      let p := signed 32 (ofLe (slice data (4 * i) 4))
      if lo ≤ first + i ∧ first + i < lo + v.length then
        let q := addPoint fresh p (nth v (first + i - lo) 0 / 2 ^ a.shift)
        (q, atMarker q && (fresh || !(atMarker p)))
      else (p, false))
    if c.left.contains line then some (r.flatMap (fun x => leBytes 4 (toBits 32 x.1)), (r.filter (·.2)).length) else none

/-- Points that newly saturate are counted, and the first of an array is logged (R231). -/
def auSaturated (n k : Nat) (s : State) : State :=
  match auHead n s with
  | none => s
  | some c =>
    if k = 0 then s
    else
      let s := if (arrayOf (auOf n s) c.array).satpts = 0 then fault 0x0502 n 0 0 s else s
      setArrayAt n c.array (fun a => { a with satpts := a.satpts + k, dirty := true }) s

/-- The last line of a record is written: COUNT and NREC grow and the target is judged (R232, R233). -/
def auAdded (n : Nat) (c : AuRecord) (s : State) : State :=
  let nrec := (arrayOf (auOf n s) c.array).nrec + 1
  let target := regGet (RED_AU_TARGET.TARGET n) c.gen.settings + 1
  let s := setArrayAt n c.array (fun a =>
    { a with counts := put a.counts c.slot (look a.counts c.slot 0 + 1), nrec := nrec, done := decide (target ≤ nrec), dirty := true }) s
  let drop := fun (u : AuState) => u.cur.filter (fun x => x.recId != c.recId)
  let s := if c.committed then setAu n (fun u => { u with cur := drop u }) s else setAuRec n c.recId (fun x => { x with added := true }) s
  let s := auStat n (auCountOut n c.array (c.slot / 16) s)
  if target ≤ nrec then raise (0x20 + n) (set (RED_AU_STAT.DONE n) 1 s) else s

/-- A point line of a unit is done with; `wrote` says that it was written. -/
def auWritten (n : Nat) (line : Addr) (wrote : Bool) (s : State) : State :=
  match auHead n s with
  | none => s
  | some c =>
    if !(c.left.contains line) then s
    else
      let c' := { c with left := c.left.erase line, wrote := c.wrote || wrote }
      let s := setAuRec n c.recId (fun _ => c') s
      if c'.left.isEmpty && c.slot * c.total + c.total ≤ c.asked then auAdded n c' s else s

/-- A record's commit reaches the units: its FLAGS[4:0] join its array's, and the unit lets go of it once it is added (R232). -/
def auCommit (r : Rec) (s : State) : State :=
  (List.range 4).foldl (fun s n =>
    match (auOf n s).cur.find? (fun c => c.recId == r.id) with
    | none => s
    | some c =>
      let s := if c.begun then setArrayAt n c.array (fun a => { a with flags := a.flags ||| (r.flags % 32), dirty := true }) s else s
      if c.added then setAu n (fun u => { u with cur := u.cur.filter (fun x => x.recId != r.id) }) s
      else setAuRec n r.id (fun x => { x with committed := true, flags := r.flags % 32 }) s) s

/-- The units at a global abort: a record that has added lines and does not commit sets TAINT in its array (R232). -/
def auAbort (s : State) : State :=
  (List.range 4).foldl (fun s n =>
    let cur := (auOf n s).cur
    let s := setAu n (fun u => { u with cur := u.cur.filter (·.committed) }) s
    (cur.filter (fun c => !c.committed && c.wrote)).foldl (fun s c =>
      setArrayAt n c.array (fun a => { a with flags := a.flags ||| 256, dirty := true }) s) s) s

/-- RESTART: the unit's array restarts at the next record (R233). -/
def restartAu (n : Nat) (s : State) : State := setAu n (fun u => { u with restartAsked := true }) s

/-- Meaning of RESTART. -/
def execRestart (au : Nat) (s : State) : Host.Outcome State Fault Refusal := .next (restartAu au s)

/-! ## Persistence (R236 to R240) -/

/-- Whether the active plan has claims of the persistence unit (R240). -/
def perClaims (s : State) : Bool :=
  match activeSlot s with
  | none => false
  | some n => 0 < (storeImage n s).minReads 0x18 || (List.range 4096).any (fun k => (claimsAt k s).any (fun c => c.owner == 0x18))

/-- A commit or swap that leaves the unit without claims is logged, and no pass starts (R240). -/
def perCheck (s : State) : State :=
  let short := !perClaims s
  let s := if short then fault 0x0504 0 0 0 s else s
  { s with red.per.noClaims := short }

/-- The tap that the unit takes for a record. -/
def perTap (m : List (Nat × Nat)) : Nat := tapOf (regGet RED_PER_CTRL.SRC m) (regGet RED_PER_CTRL.RED m)

/-- A record reaches the unit: it takes a free bitmap (R221, R238). -/
def perBegin (r : Rec) (s : State) : State :=
  if regGet RED_PER_CTRL.ENABLE r.gen.settings = 1 ∧ s.red.per.maps.length < 2 ∧ oldestHeld (perTap r.gen.settings) s ≤ r.first then
    { s with red.per.maps := s.red.per.maps ++ [⟨r.id, r.gen, r.first, r.last, [], false, 0, false⟩] }
  else s

/-- The row of a value (R237). -/
def perRow (m : List (Nat × Nat)) (v : Int) : Nat :=
  (clip 0 511 ((v - signed 16 (regGet RED_PER_MAP.YOFS m)) / 2 ^ regGet RED_PER_MAP.YSH m)).toNat

/-- The bins a window's values hit, by column from XSTART on (R237). -/
def perBins (m : List (Nat × Nat)) (v : List Int) : List Nat :=
  let w := v.drop (regGet RED_PER_BASE.XSTART m)
  let xsh := regGet RED_PER_MAP.XSH m
  let cols := Nat.min 1024 ((w.length + 2 ^ xsh - 1) / 2 ^ xsh)
  ((List.range cols).foldl (fun (acc : List Nat × Option Nat) c =>
    let rows := ((w.drop (c * 2 ^ xsh)).take (2 ^ xsh)).map (perRow m)
    let span := rows ++ (match acc.2 with | some r => [r] | none => [])
    let lo := span.foldl Nat.min 511
    let hi := span.foldl Nat.max 0
    let hit := if regGet RED_PER_CTRL.VECTOR m = 1 then (List.range (hi + 1 - lo)).map (· + lo) else rows.eraseDups
    (acc.1 ++ hit.map (fun r => r * 1024 + c), rows.getLast?)) ([], none)).1

/-- Whether a sequence number comes before another (R196). -/
def seqBeforeNo (a b : Nat) : Bool := a != b && (b + 2 ^ 32 - a) % 2 ^ 32 < 2 ^ 31

/-- Puts a pass in the order of R239: CLEAR, then RECORD in commit order, then DECAY. -/
def addPass (k : PassKind) : List PassKind → List PassKind
  | [] => [k]
  | x :: xs =>
    let before := match k, x with
      | .clear, .clear => false
      | .clear, _ => true
      | .record _ _, .decay => true
      | .record a _, .record b _ => seqBeforeNo a b
      | _, _ => false
    if before then k :: x :: xs else x :: addPass k xs

/-- The bitmaps whose records have committed and whose values are all there are complete, and ask for their RECORD passes (R237, R239). -/
def perStep (s : State) : State :=
  s.red.per.maps.foldl (fun s m =>
    let tap := perTap m.gen.settings
    if m.committed && !m.complete && tapComplete tap m.last s then
      let bins := perBins m.gen.settings (tapValues tap m.first m.last s)
      { s with
        red.per.waiting := addPass (.record m.seq bins) s.red.per.waiting,
        red.per.maps := s.red.per.maps.map (fun x => if x.recId == m.recId then { x with bins := bins, complete := true } else x) }
    else s) s

/-- A record's commit reaches the unit (R238, R239). -/
def perCommit (r : Rec) (s : State) : State :=
  if regGet RED_PER_CTRL.ENABLE r.gen.settings = 0 then s
  else if !(s.red.per.maps.any (fun m => m.recId == r.id)) then bump RED_PER_STAT.SKIP s
  else
    let clear := s.red.per.epoch != some r.gen.epoch && !(s.red.per.waiting.contains .clear)
    perStep { s with
      red.per.waiting := if clear then addPass .clear s.red.per.waiting else s.red.per.waiting,
      red.per.epoch := some r.gen.epoch,
      red.per.maps := s.red.per.maps.map (fun m => if m.recId == r.id then { m with committed := true, seq := r.seq } else m) }

/-- The unit at a global abort: bitmaps of records not committed are free. -/
def perAbort (s : State) : State := { s with red.per.maps := s.red.per.maps.filter (·.committed) }

/-- A frame event of the display: every DEC_FRAMES-th asks for a DECAY (R239). -/
def perFrame (s : State) : State :=
  if app RED_PER_CTRL.ENABLE s = 0 ∨ app RED_PER_CTRL.DECAY s = 0 then s
  else if s.red.per.frames < app RED_PER_CTRL.DEC_FRAMES s then { s with red.per.frames := s.red.per.frames + 1 }
  else
    let s := { s with red.per.frames := 0 }
    if s.red.per.waiting.contains .decay then bump RED_PER_STAT.DMERGE s
    else { s with red.per.waiting := addPass .decay s.red.per.waiting }

/-- The lines of a pass by number within the histogram (R239). -/
def passLines (k : PassKind) : List Nat :=
  match k with
  | .record _ bins => (bins.map (· / 32)).eraseDups.mergeSort (· ≤ ·)
  | _ => List.range 16384

/-- The base address of the histogram. -/
def perBase (s : State) : Addr := sqBase + app RED_PER_BASE.OFS s * 2 ^ 20

/-- PERSISTENCE_PASS_START: with no pass under way, the first waiting one starts and asks for its lines (R239, R240). -/
def persistencePassStart (s : State) : State :=
  match s.red.per.pass, s.red.per.waiting with
  | none, k :: rest =>
    if s.red.per.noClaims then s
    else
      let s := { s with red.per.pass := some (k, (passLines k).length), red.per.waiting := rest }
      let s := set RED_PER_STAT.PASS (match k with | .clear => 1 | .record _ _ => 2 | .decay => 3) s
      (passLines k).foldl (fun s l => addAcc ⟨0x18, perBase s + 64 * l, .read, [], [], .per, s.now⟩ s) s
  | _, _ => s

/-- Meaning of PERSISTENCE_PASS_START. -/
def execPersistencePassStart (s : State) : Host.Outcome State Fault Refusal := .next (persistencePassStart s)

/-- One bin of a pass (R239). -/
def passBin (k : PassKind) (decay i v : Nat) : Nat :=
  match k with
  | .clear => 0
  | .record _ bins => if bins.contains i then Nat.min (v + 1) 0xFFFF else v
  | .decay => v - Nat.max 1 (v / 2 ^ decay)

/-- A line of a pass arrives: its write waits for the claim 8 slots after the read claim (R32, R33). -/
def perLand (line : Addr) (data : List Nat) (s : State) : State :=
  match s.red.per.pass with
  | none => s
  | some _ => addAcc ⟨0x18, line, .write, data, allOn, .per, s.now + 5⟩ s

/-- A line of the pass under way with its bins changed. -/
def perLine (line : Addr) (data : List Nat) (s : State) : List Nat :=
  match s.red.per.pass with
  | none => data
  | some (k, _) =>
    let l := (line - perBase s) / 64
    (List.range 32).flatMap (fun i => leBytes 2 (passBin k (app RED_PER_CTRL.DECAY s) (32 * l + i) (ofLe (slice data (2 * i) 2))))

/-- A line of a pass is written. -/
def perWritten (s : State) : State :=
  match s.red.per.pass with
  | none => s
  | some (k, n) => { s with red.per.pass := some (k, n - 1) }

/-- PERSISTENCE_PASS_END: a pass with no line left ends; a RECORD pass frees its bitmap (R238, R239). -/
def persistencePassEnd (s : State) : State :=
  match s.red.per.pass with
  | some (k, 0) =>
    let maps := match k with
      | .record q _ => s.red.per.maps.filter (fun m => !(m.committed && m.seq == q))
      | _ => s.red.per.maps
    set RED_PER_STAT.PASS 0 { s with red.per.pass := none, red.per.maps := maps }
  | _ => s

/-- Meaning of PERSISTENCE_PASS_END. -/
def execPersistencePassEnd (s : State) : Host.Outcome State Fault Refusal := .next (persistencePassEnd s)

/-- Meaning of REDUCTION_VALUE_DELIVERY: the values due reach their sink, and the accumulation units go on. -/
def execReductionValueDelivery (out : Nat) (s : State) : Host.Outcome State Fault Refusal :=
  .next (perStep ((List.range 4).foldl (fun s n => auStep n s) (deliverOut out s)))

end Sys2Proof.Machine
end

