-- ==== Sys2Proof/Machine/Measure.lean ====
section
/-! DEFINITION. The measurement units (R241 to R250, R254). -/

namespace Sys2Proof.Machine

/-- What a unit measures by its settings. -/
structure MuParam where
  type : Nat
  holeNan : Bool
  abs : Bool
  tap : Nat
  tap2 : Nat
  base : Int
  top : Int
  start : Int
  deriving DecidableEq, Repr

/-- The settings of unit `n` in a list of field values. -/
def muParam (n : Nat) (m : List (Nat × Nat)) : MuParam :=
  { type := regGet (MU_CTRL.TYPE n) m, holeNan := regGet (MU_CTRL.HOLE_NAN n) m == 1, abs := regGet (MU_CTRL.LVLMODE n) m == 1,
    tap := tapOf (regGet (MU_SRC.SRC n) m) (regGet (MU_SRC.RED n) m), tap2 := tapOf (regGet (MU_SRC.SRC2 n) m) (regGet (MU_SRC.RED2 n) m),
    base := signed 16 (regGet (MU_LVL.BASE n) m), top := signed 16 (regGet (MU_LVL.TOP n) m), start := signed 25 (regGet (MU_GATE.START n) m) }

/-- The decimation N of a tap, 1 for an input. -/
def tapDecim (tap : Nat) (m : List (Nat × Nat)) : Nat := if tap < 4 then 1 else 2 ^ regGet (RED_OUT_CTRL.K (tap - 4)) m

/-- Whether a tap has a beat stream (R246). -/
def tapHasStream (tap cfg : Nat) (m : List (Nat × Nat)) (s : State) : Bool :=
  hasStream cfg (if tap < 4 then tap else regGet (RED_OUT_CTRL.SRC (tap - 4)) m) { s with applied := m }

/-- Whether a commit's measurement settings are invalid (R245). -/
def muInvalid (m : List (Nat × Nat)) : Bool :=
  (List.range 16).any (fun n =>
    let p := muParam n m
    22 < p.type || (p.type == 20 && tapDecim p.tap m != tapDecim p.tap2 m))

/-- Ts in seconds as binary32 (R242): N sample periods, a tick being 1 / 4,096,000,000 s. -/
def tsF (tap cfg : Nat) (m : List (Nat × Nat)) : Nat := roundRatio ⟨samplePeriod cfg * tapDecim tap m, 65536 * 4096000000⟩

/-- The most populated value of a list of whole values that a test accepts, ties going to the higher or the lower one: value and count. -/
def mode' (high : Bool) (l : List Int) : Option (Int × Nat) :=
  (l.mergeSort (· ≤ ·)).foldl (fun (acc : Option (Int × Nat) × Option (Int × Nat)) x =>
    let run : Int × Nat := match acc.2 with
      | some (v, c) => if v = x then (x, c + 1) else (x, 1)
      | none => (x, 1)
    let best := match acc.1 with
      | none => some run
      | some (v, c) => if c < run.2 ∨ (c = run.2 ∧ high = true ∧ v < run.1) then some run else some (v, c)
    (best, some run)) (none, none) |>.1

/-- TOP, BASE, MX and MN of a gate, in LSB (R244). -/
structure Levels where
  top : Int
  base : Int
  mx : Int
  mn : Int
  deriving DecidableEq, Repr

/-- The levels of a gate's values in 1/16 LSB; none for an empty gate. -/
def levelsOf (v : List Int) : Option Levels :=
  match v.map (· / 16) with
  | [] => none
  | x :: xs =>
    let mx := xs.foldl (fun a b => if a < b then b else a) x
    let mn := xs.foldl (fun a b => if b < a then b else a) x
    let m := (mx + mn) / 2
    let above := (x :: xs).filter (fun a => m < a)
    let below := (x :: xs).filter (fun a => a ≤ m)
    let top := match mode' true above with
      | some (a, c) => if 16 * c < above.length then mx else a
      | none => mx
    let base := match mode' false below with
      | some (a, c) => if 16 * c < below.length then mn else a
      | none => mn
    some ⟨top, base, mx, mn⟩

/-- The level Lp by BASE and AMP as binary32 words and p = num / 10 (R244). -/
def levelAt (base amp : Nat) (num : Int) : Nat := fadd base (fmul (roundRatio ⟨num, 10⟩) amp)

/-- A value in LSB as binary32. -/
def xOf (v : Int) : Nat := roundRatio ⟨v, 16⟩

/-- Whether a level lies in a step of two values: x[i-1] < L ≤ x[i], or x[i-1] > L ≥ x[i] (R243). -/
def crosses (rising : Bool) (l : Nat) (a b : Int) : Bool :=
  if rising then fless (xOf a) l && fleq l (xOf b) else fless l (xOf a) && fleq (xOf b) l

/-- The fraction of a crossing (R243). -/
def crossPhi (l : Nat) (a b : Int) : Nat := fdiv (fsub l (xOf a)) (fsub (xOf b) (xOf a))

/-- A crossing: the integer i - 1 and φ. -/
abbrev MuCross := Nat × Nat

/-- Every crossing of a level in one direction. -/
def crossingsOf (rising : Bool) (l : Nat) (v : List Int) : List MuCross :=
  ((v.zip (v.drop 1)).zipIdx).filterMap (fun p => if crosses rising l p.1.1 p.1.2 then some (p.2, crossPhi l p.1.1 p.1.2) else none)

/-- The counted crossings of L50, armed by the level on the far side (R243). -/
def countedOf (rising : Bool) (l arm : Nat) (v : List Int) : List MuCross :=
  let armed := fun (x : Int) => if rising then fleq (xOf x) arm else fleq arm (xOf x)
  match v with
  | [] => []
  | x0 :: _ =>
    (((v.zip (v.drop 1)).zipIdx).foldl (fun (acc : List MuCross × Bool) p =>
      let hit := acc.2 && crosses rising l p.1.1 p.1.2
      ((if hit then acc.1 ++ [(p.2, crossPhi l p.1.1 p.1.2)] else acc.1), (acc.2 && !hit) || armed p.1.2)) ([], armed x0)).1

/-- The interval between two crossings (R243). -/
def dtOf (ts : Nat) (a b : MuCross) : Nat := fmul (fadd (floatOf ((b.1 : Int) - a.1)) (fsub b.2 a.2)) ts

/-- Whether a crossing comes before another. -/
def crossBefore (a b : MuCross) : Bool := a.1 < b.1 || (a.1 == b.1 && fleq a.2 b.2)

/-- RISE and FALL (R245): the last crossing of the first level before the first crossing of the second that follows one. -/
def edgeTime (ts : Nat) (a b : List MuCross) : Option Nat :=
  match b.find? (fun y => a.any (fun x => crossBefore x y)) with
  | none => none
  | some y => ((a.filter (fun x => crossBefore x y)).getLast?).map (fun x => dtOf ts x y)

/-- The first crossing of `a` and the next of `b` after it. -/
def pulseTime (ts : Nat) (a b : List MuCross) : Option Nat :=
  match a with
  | [] => none
  | x :: _ => (b.find? (fun y => crossBefore x y && x != y)).map (fun y => dtOf ts x y)

/-- PERIOD (R245). -/
def periodOf (ts : Nat) (c : List MuCross) : Option Nat :=
  match c.head?, c.getLast? with
  | some a, some b => if 2 ≤ c.length then some (fdiv (dtOf ts a b) (floatOf (c.length - 1))) else none
  | _, _ => none

/-- The levels that edge and time types take (R244), as binary32 words BASE and AMP; none where AMP is 0 or no record came before. -/
def timeLevels (p : MuParam) (prev : Option MuLevels) (epoch : Nat) : Option (Nat × Nat) :=
  let pair : Option (Int × Int) :=
    if p.abs then some (p.base, p.top)
    else match prev with
      | some l => if l.epoch = epoch then some (16 * l.base, 16 * l.top) else none
      | none => none
  match pair with
  | none => none
  | some (b, t) => if t = b then none else some (xOf b, xOf (t - b))

/-- The result of a time type on a gate, given BASE and AMP. -/
def timeResult (type ts : Nat) (v : List Int) (ba : Nat × Nat) : Option Nat :=
  let lv := levelAt ba.1 ba.2
  let up := countedOf true (lv 5) (lv 1) v
  let down := countedOf false (lv 5) (lv 9) v
  match type with
  | 11 => edgeTime ts (crossingsOf true (lv 1) v) (crossingsOf true (lv 9) v)
  | 12 => edgeTime ts (crossingsOf false (lv 9) v) (crossingsOf false (lv 1) v)
  | 13 => edgeTime ts (crossingsOf true (lv 2) v) (crossingsOf true (lv 8) v)
  | 14 => edgeTime ts (crossingsOf false (lv 8) v) (crossingsOf false (lv 2) v)
  | 15 => periodOf ts up
  | 16 => (periodOf ts up).map (fun t => fdiv (floatOf 1) t)
  | 17 => pulseTime ts up down
  | 18 => pulseTime ts down up
  | 19 => match pulseTime ts up down, periodOf ts up with
    | some w, some t => some (fdiv w t)
    | _, _ => none
  | _ => none

/-- DELAY (R245): both sources' first counted rising crossings, each on its own levels. -/
def delayResult (ts : Nat) (v w : List Int) (a b : Nat × Nat) : Option Nat :=
  match (countedOf true (levelAt a.1 a.2 5) (levelAt a.1 a.2 1) v).head?, (countedOf true (levelAt b.1 b.2 5) (levelAt b.1 b.2 1) w).head? with
  | some x, some y => some (dtOf ts x y)
  | _, _ => none

/-- A result by the values of a gate alone (types 1 to 10, 21, 22; R245). -/
def plainResult (type ts : Nat) (v : List Int) : Option Nat :=
  match v with
  | [] => none
  | x :: xs =>
    let mx := xs.foldl (fun a b => if a < b then b else a) x
    let mn := xs.foldl (fun a b => if b < a then b else a) x
    let s1 := floatOf v.sum
    let s2 := floatOf ((v.map (fun a => a * a)).sum)
    let n := floatOf v.length
    let sixteen := floatOf 16
    match type, levelsOf v with
    | 1, _ => some (fdiv (floatOf mx) sixteen)
    | 2, _ => some (fdiv (floatOf mn) sixteen)
    | 3, _ => some (fdiv (floatOf (mx - mn)) sixteen)
    | 4, some l => some (floatOf l.top)
    | 5, some l => some (floatOf l.base)
    | 6, some l => some (floatOf (l.top - l.base))
    | 7, _ => some (fdiv (fdiv s1 n) sixteen)
    | 8, _ => some (fdiv (fsqrt (fdiv s2 n)) sixteen)
    | 9, _ =>
      let m := fdiv s1 n
      let d := fsub (fdiv s2 n) (fmul m m)
      some (fdiv (fsqrt (if fless d 0 then 0 else d)) sixteen)
    | 10, _ => some (fmul s1 (fdiv ts sixteen))
    | 21, some l => if l.top = l.base then none else some (fdiv (floatOf (l.mx - l.top)) (floatOf (l.top - l.base)))
    | 22, some l => if l.top = l.base then none else some (fdiv (floatOf (l.base - l.mn)) (floatOf (l.top - l.base)))
    | _, _ => none

/-- The first beat of a unit's gate of a record, where nothing is missing (R241). -/
def gateWanted (p : MuParam) (r : Rec) : Int :=
  let bt := trigBeat r.time r.gen.offset
  let a := if bt + p.start < bt - 32 then bt - 32 else bt + p.start
  if a < r.first then r.first else a

/-- The first beat of a unit's gate of a record: not before the oldest beat held when the record reached the units (R241). -/
def gateStart (p : MuParam) (r : Rec) : Int :=
  let a := gateWanted p r
  let old := if p.tap < 4 then r.gate else r.gate - 3
  if a < old then old else a

/-- A unit's result for a record (R241 to R246), and TOP and BASE of its gate. A late result is absent (R54), so it cannot be formed
(DEDUCED, log entry 115). -/
def measureOne (n : Nat) (r : Rec) (s : State) : Nat × Option Levels :=
  let m := r.gen.settings
  let p := muParam n m
  let g := gateStart p r
  let v := tapValues p.tap g r.last s
  let lv := levelsOf v
  if p.type = 0 then (nanOf 1, none)
  else if isLate 0xC n s then (nanOf 2, lv)
  else if !(tapHasStream p.tap r.gen.config m s) || (p.type == 20 && !(tapHasStream p.tap2 r.gen.config m s)) then (nanOf 3, none)
  else if p.holeNan && (bit (tapFlags p.tap g r.last s) 2 || (p.type == 20 && bit (tapFlags p.tap2 g r.last s) 2)) then (nanOf 4, lv)
  else
    let ts := tsF p.tap r.gen.config m
    let res :=
      if p.type = 20 then
        let w := tapValues p.tap2 g r.last s
        let own := timeLevels p (nth s.red.levels n none) r.gen.epoch
        let other := timeLevels p (nth s.red.levels (n + 16) none) r.gen.epoch
        match own, other with
        | some a, some b => delayResult ts v w a b
        | _, _ => none
      else if 11 ≤ p.type ∧ p.type ≤ 19 then
        match timeLevels p (nth s.red.levels n none) r.gen.epoch with
        | some ba => timeResult p.type ts v ba
        | none => none
      else plainResult p.type ts v
    (match res with | some w => if isSpecial w then nanOf 2 else w | none => nanOf 2, lv)

/-- Every unit measures a record; its levels serve the next one (R244). -/
def measureRec (r : Rec) (s : State) : State :=
  let res := (List.range 16).map (fun n => measureOne n r s)
  let second := (List.range 16).map (fun n =>
    let p := muParam n r.gen.settings
    if p.type = 20 then levelsOf (tapValues p.tap2 (gateStart p r) r.last s) else none)
  { s with
    record.recs := s.record.recs.map (fun x => if x.id == r.id then { x with mu := res.map (·.1) } else x)
    red.levels := ((res.map (·.2) ++ second).zip s.red.levels).map (fun p => match p.1 with
      | some l => some ⟨r.gen.epoch, l.top, l.base⟩
      | none => p.2) }

/-- Records whose results are due, 24 slots after their end, are measured (R32, unit 0x0C). -/
def measureDue (s : State) : State :=
  (s.record.recs.filter (fun r => r.phase == .capturing && r.ended && r.mu.isEmpty && decide (endSlot r + 24 ≤ (s.now : Int)))).foldl
    (fun s r => measureRec r s) s

/-- The measurement units begin a record at its delivery: a gate start no longer held is clipped (R241). -/
def muBegin (r : Rec) (s : State) : State :=
  let s := (List.range 16).foldl (fun s n =>
    let p := muParam n r.gen.settings
    if p.type ≠ 0 ∧ gateWanted p r < oldestHeld p.tap s then bump (MU_STAT.GATE_CLIP n) s else s) s
  { s with record.recs := s.record.recs.map (fun x => if x.id == r.id then { x with gate := oldestHeld 0 s } else x) }

/-! ## Statistics (R248 to R250) -/

/-- One result joins a unit's statistics. -/
def statAdd (x : Nat) (t : MuStat) : MuStat :=
  if isNan x then { t with nans := Nat.min (2 ^ 32 - 1) (t.nans + 1) }
  else
    let n := Nat.min (2 ^ 32 - 1) (t.n + 1)
    if n = 1 then { t with n := 1, mn := x, mx := x, mean := x, m2 := 0 }
    else
      let d := fsub x t.mean
      let mean := fadd t.mean (fdiv d (floatOf n))
      { t with n := n, mn := if fless x t.mn then x else t.mn, mx := if fless t.mx x then x else t.mx, mean := mean,
               m2 := fadd t.m2 (fmul d (fsub x mean)) }

/-- A record's commit reaches the enabled units' statistics; a new epoch restarts them first (R248, R249). -/
def muCommit (r : Rec) (s : State) : State :=
  { s with red.stats := s.red.stats.mapIdx (fun n t =>
      if regGet (MU_CTRL.TYPE n) r.gen.settings = 0 then t
      else
        let t := if t.epoch = r.gen.epoch then t else { ({} : MuStat) with epoch := r.gen.epoch }
        statAdd (nth r.mu n (nanOf 1)) t) }

/-- The standard deviation of R248. -/
def statSd (t : MuStat) : Nat := if t.n < 2 then nanOf 2 else fsqrt (fdiv t.m2 (floatOf (t.n - 1)))

/-- TAKE: all statistics go to the statistics registers (R250). -/
def muTake (s : State) : State :=
  (List.range 16).foldl (fun s n =>
    let t := nth s.red.stats n {}
    set (MU_ST_N.N n) t.n (set (MU_ST_MIN.VALUE n) t.mn (set (MU_ST_MAX.VALUE n) t.mx (set (MU_ST_MEAN.VALUE n) t.mean
      (set (MU_ST_SD.VALUE n) (statSd t) (set (MU_ST_NAN.NANS n) t.nans (set (MU_ST_EPOCH.EPOCH n) t.epoch s))))))) s

/-- Meaning of TAKE. -/
def execTake (s : State) : Host.Outcome State Fault Refusal := .next (muTake s)

end Sys2Proof.Machine
end

