-- ==== Sys2Proof/Machine/Commit.lean ====
section
/-! DEFINITION. Generation commits (R189, R211 to R215, R225, R229, R245, R260, R265, R271, R441, R480), the restored configuration's
judgement (R577), and the start of ledger writes (R92). -/

namespace Sys2Proof.Machine

/-! ## The register table as the bus and the commit read it -/

/-- Every field of a register row, in every place it stands. -/
def RegRow.all (r : RegRow) : List FieldRow := (List.range r.count).flatMap r.fields

/-- The register row that holds an address, with its number. -/
def regRowAt (a : Addr) : Option (RegRow × Nat) :=
  (regTable.find? (fun r => r.base ≤ a && (a - r.base) / r.stride < r.count && (a - r.base) % r.stride == 0)).map
    (fun r => (r, (a - r.base) / r.stride))

/-- The fields of the register at an address. -/
def fieldsAt (a : Addr) : List FieldRow :=
  match regRowAt a with
  | some (r, n) => (r.fields n).filter (fun f => f.fld.addr == a)
  | none => []

/-- Whether a field key belongs to a Kept field. -/
def keptKey (k : Nat) : Bool := (fieldsAt (k / 32)).any (fun f => f.kept && f.fld.key == k)

/-- The Kept fields among field values. -/
def keptPart (m : List (Nat × Nat)) : List (Nat × Nat) := m.filter (fun e => keptKey e.1)

/-- Whether some staged epoch-breaking field differs from its committed value (R214). -/
def carryBreaks (s : State) : Bool :=
  regTable.any (fun r => (r.fields 0).any (·.epoch) &&
    r.all.any (fun f => f.kept && f.epoch && regGet f.fld s.regs != regGet f.fld s.committed))

/-! ## Records and rings (R189, R260, R271) -/

/-- What a ring takes: stream, base, bytes in all, bytes of one ring or ring slot. -/
structure RingUse where
  stream : Nat
  base : Nat
  total : Nat
  part : Nat
  deriving DecidableEq, Repr

/-- The rings of the enabled streams that have bytes, by field values. DEDUCED: log entry 49. -/
def ringUses (m : List (Nat × Nat)) (cfg : Nat) (s : State) : List RingUse :=
  (List.range 8).filterMap (fun i =>
    let bpb := bytesPerBeat i cfg m s
    if bit (regGet REC_CFG.STREAMS m) i && 0 < bpb then
      let base := regGet (REC_RING_BASE_LO.ADDR i) m * 64 + regGet (REC_RING_BASE_HI.ADDR i) m * 2 ^ 32
      let len := regGet REC_RING_LEN.LEN m
      if regGet REC_CFG.PLACE m = 0 then
        some ⟨i, base, len * (regGet REC_LEN.LENGTH m * bpb), regGet REC_LEN.LENGTH m * bpb⟩
      else some ⟨i, base, len * bpb, len * bpb⟩
    else none)

/-- Whether a range of bytes lies wholly in the Square, or wholly in the Boulevard's data space. -/
def whollySquare (a n : Nat) : Bool := sqBase ≤ a && a + n ≤ sqBase + 0x2000000
def whollyBlv (a n : Nat) (s : State) : Bool := blvBase ≤ a && a + n ≤ blvBase + blvCapacity s / 8 * 7

/-- Whether two ranges of bytes share a byte. -/
def overlap (a b : Nat × Nat) : Bool := 0 < a.2 && 0 < b.2 && a.1 < b.1 + b.2 && b.1 < a.1 + a.2

/-- The reserved regions of the Square: system region, accumulator region, frame buffer (R263). -/
def reservedRegions (m : List (Nat × Nat)) : List (Nat × Nat) :=
  [(sqBase + 0x1880000, 0x80000), (sqBase + regGet SQ_ACC.BASE m * 2 ^ 20, regGet SQ_ACC.SIZE m * 2 ^ 20), (sqBase + 0x1E00000, 0x200000)]

/-- Whether some two ranges of a list overlap. -/
def anyOverlap : List (Nat × Nat) → Bool
  | [] => false
  | r :: l => l.any (overlap r) || anyOverlap l

/-- Whether a ring breaks R189, R260 or R271 where it lies. -/
def ringInvalid (place : Nat) (s : State) (r : RingUse) : Bool :=
  r.part % 64 != 0 ||
  (if whollySquare r.base r.total then place != 1 || r.base % 4096 != 0 || r.total % 4096 != 0
   else if whollyBlv r.base r.total s then
     r.base % 8192 != 0 || r.part % 8192 != 0 || (r.part != 8192 && (r.part / 8192 - 1) % 14 == 0)
   else true)

/-- Whether field values break the rules for records and rings. -/
def recInvalid (m : List (Nat × Nat)) (cfg : Nat) (s : State) : Bool :=
  let place := regGet REC_CFG.PLACE m
  let len := regGet REC_LEN.LENGTH m
  let ringLen := regGet REC_RING_LEN.LEN m
  let rings := ringUses m cfg s
  let table := (sqBase + regGet REC_HDR_BASE.BASE m * 128, (regGet REC_HDR_ENTRIES.ENTRIES m + 1) * 128)
  len * samplesPerBeat cfg < 256 || 16777216 < len || len < regGet REC_PRE.PRE m ||
  (place == 1 && ringLen < len + horizonBeats cfg) ||
  (place == 0 && (ringLen < 1 || 65536 < ringLen)) ||
  (List.range 8).any (fun i => bit (regGet REC_CFG.STREAMS m) i && regGet (AVE_IS_CTRL.FMT i) m == 3) ||
  rings.any (ringInvalid place s) || !(whollySquare table.1 table.2) ||
  anyOverlap (rings.map (fun r => (r.base, r.total)) ++ [table]) ||
  (rings.map (fun r => (r.base, r.total)) ++ [table]).any (fun r => (reservedRegions m).any (overlap r)) ||
  (place == 0 && (List.range 4).any (fun n => regGet (TRG_CTRL.ROLE n) m == 0 &&
    (regGet (TRG_CTRL.SPEC n) m == 1 || regGet (TRG_CTRL.INDEP n) m == 1)))

/-- Whether the accumulator region is invalid (R265). -/
def accInvalid (m : List (Nat × Nat)) (cfg : Nat) : Bool :=
  let base := regGet SQ_ACC.BASE m * 2 ^ 20
  let size := regGet SQ_ACC.SIZE m * 2 ^ 20
  let region := (sqBase + base, size)
  let inside := fun (a n : Nat) => base ≤ a && a + n ≤ base + size
  regGet SQ_ACC.SIZE m < 1 || 30 < regGet SQ_ACC.SIZE m || 0x2000000 < base + size ||
  overlap region (sqBase + 0x1880000, 0x80000) || overlap region (sqBase + 0x1E00000, 0x200000) ||
  (List.range 4).any (fun n => regGet (RED_AU_CTRL.ENABLE n) m == 1 &&
    (auBases n m).any (fun b => !(inside b (auBytes (auPlan n cfg m).points)))) ||
  (regGet RED_PER_CTRL.ENABLE m == 1 && !(inside (regGet RED_PER_BASE.OFS m * 2 ^ 20) 0x100000))

/-- What the reduction outputs demand apart from the rule a swap repeats (R225, R577). -/
def redPlaceInvalid (m : List (Nat × Nat)) : Bool :=
  (List.range 4).any (fun n => 24 < regGet (RED_OUT_CTRL.K n) m) ||
  (List.range 8).any (fun i => regGet (AVE_IS_CTRL.RED i) m == 1 && regGet (AVE_IS_CTRL.FMT i) m != 2)

/-- The Erost arm lead: at least 2,048 ticks, in units of 4,096 (R480). -/
def leadInvalid (m : List (Nat × Nat)) : Bool := regGet ERL_NET.LEAD m * 4096 < 2048

/-- Whether a written or implicit commit of field values fails a check (R189, R225, R229, R245, R260, R265, R271, R441, R480). -/
def commitInvalid (m : List (Nat × Nat)) (s : State) : Bool :=
  let t := { s with applied := m }
  let cfg := activeConfig s
  recInvalid m cfg t || accInvalid m cfg || redInvalid m cfg || auInvalid m t || muInvalid m ||
  stimInvalid m (mode s) s || leadInvalid m

/-! ## The ledger (R88, R89, R92, R94) -/

/-- A line of the ledger's SRAM. DESIGN CHOICE: log entry 132. -/
def ledgerLine (k : Nat) (s : State) : List Nat := (sparseFind k s.boot.ledger).getD (List.replicate 64 0)

/-- The first bytes of a ledger copy. -/
def ledgerBytes (n len : Nat) (s : State) : List Nat :=
  ((List.range (ceilDiv len 64)).flatMap (fun k => ledgerLine (128 * n + k) s)).take len

/-- The CRC of a copy's bytes: the header, with CRC taken as zero, and the entries (R88). -/
def ledgerCrc (b : List Nat) : Nat := crc32c (b.take 16 ++ [0, 0, 0, 0] ++ b.drop 20)

/-- A copy whose MAGIC, COUNT and CRC are right (R88, R89). -/
def ledgerCopy (n : Nat) (s : State) : Option LedgerCopy :=
  let h := ledgerLine (128 * n) s
  let num := fun (o k : Nat) => ofLe (slice h o k)
  let count := num 0x0E 2
  if num 0 4 ≠ 0x5247444C then none
  else if count < 1 ∨ 1020 < count then none
  else
    let b := ledgerBytes n (32 + 8 * count) s
    if num 0x10 4 ≠ ledgerCrc b then none
    else some { tag := num 4 4, seq := num 8 4, gen := num 0x0C 2, config := num 0x14 1,
                entries := (List.range count).map (fun i => (ofLe (slice b (32 + 8 * i) 4), ofLe (slice b (36 + 8 * i) 4))) }

/-- A ledger copy that is valid for the booted image (R89). -/
def ledgerValid (n : Nat) (s : State) : Option LedgerCopy :=
  match ledgerCopy n s with
  | some x => if x.tag = s.boot.tag then some x else none
  | none => none

/-- The copy in use: the newer valid one, L0 where neither is newer (R89). Two copies whose SEQ differ by exactly 2^31 are each newer than the
other by the rule's words: L1 is taken (DESIGN CHOICE, log entry 118). -/
def newestCopy (s : State) : Option Nat :=
  match ledgerValid 0 s, ledgerValid 1 s with
  | none, none => none
  | some _, none => some 0
  | none, some _ => some 1
  | some a, some b => if a.seq ≠ b.seq ∧ (b.seq + 2 ^ 32 - a.seq) % 2 ^ 32 ≤ 2 ^ 31 then some 1 else some 0

/-- The entries of a ledger copy: one for every register with a Kept field, the committed value with the other bits zero (R88). -/
def ledgerEntries (m : List (Nat × Nat)) : List (Nat × Nat) :=
  (regTable.filter (fun r => (r.fields 0).any (·.kept))).flatMap (fun r =>
    (List.range r.count).map (fun n => (r.base + r.stride * n,
      (((r.fields n).filter (·.kept)).map (fun f => regGet f.fld m * 2 ^ f.fld.lo)).foldl (· + ·) 0)))

/-- The committed settings with the MAPOUT fields as they stand, which are Kept and not staged (R132). -/
def ledgerSettings (s : State) : List (Nat × Nat) :=
  (List.range 68).foldl (fun m sc => regSet (AVE_SC_CTRL.MAPOUT sc) (get (AVE_SC_CTRL.MAPOUT sc) s) m) s.committed

/-- The bytes of a ledger copy (R88). -/
def LedgerCopy.bytes (c : LedgerCopy) : List Nat :=
  let head := leBytes 4 0x5247444C ++ leBytes 4 c.tag ++ leBytes 4 c.seq ++ leBytes 2 c.gen ++ leBytes 2 c.entries.length
  let rest := [c.config] ++ List.replicate 11 0 ++ c.entries.flatMap (fun e => leBytes 4 e.1 ++ leBytes 4 e.2)
  head ++ leBytes 4 (ledgerCrc (head ++ [0, 0, 0, 0] ++ rest)) ++ rest

/-- What the next ledger write holds. -/
def nextCopy (s : State) : LedgerCopy :=
  { tag := s.boot.tag, seq := (((newestCopy s).bind (fun k => ledgerCopy k s)).elim 0 (·.seq) + 1) % 2 ^ 32, gen := get REC_GEN.GEN s,
    config := activeConfig s, entries := ledgerEntries (ledgerSettings s) }

/-- A ledger write starts, into the copy that does not hold the newest contents, or into L0. While one runs, the newest generation waits
for its end (R92). -/
def startLedger (s : State) : State :=
  if s.boot.write.isSome then { s with boot.newer := true }
  else
    let b := (nextCopy s).bytes
    let w : LedgerWrite := ⟨match newestCopy s with | some k => 1 - k | none => 0, b, (List.range (ceilDiv b.length 64)).drop 1 ++ [0]⟩
    set SYS_LEDGER.WRITING 1 { s with boot.write := some w, boot.newer := false }

/-- One line of a ledger write is carried (R92, R276). -/
def ledgerCarry (w : LedgerWrite) (s : State) : State :=
  match w.lines with
  | [] => s
  | k :: l =>
    let line := (List.range 64).map (fun i => nth w.bytes (64 * k + i) 0)
    { s with boot.ledger := sparseInsert (128 * w.copy + k) line s.boot.ledger, boot.write := some { w with lines := l } }

/-- Both copies are invalid: their MAGIC is gone (R93). -/
def ledgerVoid (s : State) : State := { s with boot.ledger := sparseErase 0 (sparseErase 128 s.boot.ledger) }

/-! ## Commits (R211 to R215) -/

/-- What follows every change of the committed settings: status that a commit judges (R147, R163, R229, R234, R240) and commit times. -/
def afterCommit (s : State) : State :=
  let s := judgeTrigger true s
  let s := perCheck (auCheck s.committed s)
  let s := commitOuts s
  { s with line.commitSlot := s.now }

/-- GEN and EPOCH advance; EPOCH only without CARRY (R211, R213). -/
def nextGen (carry : Bool) (s : State) : State :=
  let s := count REC_GEN.GEN { s with record.carry := carry }
  if carry then s else count REC_EPOCH.EPOCH s

/-- All staging copies are committed (R211). -/
def takeStaging (carry : Bool) (s : State) : State :=
  nextGen carry { s with committed := keptPart s.regs }

/-- A refused commit: nothing changes but REFUSED, CAUSE and the log (R214). -/
def refuseCommit (cause : Nat) (s : State) : State :=
  fault 0x0403 0 0 cause (set REC_EPOCH.CAUSE cause (set REC_EPOCH.REFUSED 1 s))

/-- A written commit (R189, R211, R214). DEDUCED: log entry 48. -/
def writtenCommit (carry : Bool) (s : State) : State :=
  if carry && carryBreaks s then refuseCommit 1 s
  else if commitInvalid (keptPart s.regs) s then
    let s' := refuseCommit 2 s
    if stimInvalid (keptPart s.regs) (mode s) s then fault 0x0D04 0 0 2 s' else s'
  else startLedger (afterCommit (takeStaging carry s))

/-- A write of REC_GEN_CMD (R211). -/
def commitCmd (value : Nat) (s : State) : State := if bit value 0 then writtenCommit (bit value 1) s else s

/-- Meaning of COMMIT. -/
def execCommit (value : Nat) (s : State) : Host.Outcome State Fault Refusal := .next (commitCmd value s)

/-- An implicit commit (R215): it always advances GEN and EPOCH; staging copies that fail a check stay staged (log entry 20). -/
def implicitCommit (s : State) : State :=
  if commitInvalid (keptPart s.regs) s then startLedger (afterCommit (nextGen false s))
  else startLedger (afterCommit (takeStaging false s))

/-! ## The restored configuration (R577) -/

/-- The addresses of the first and the last register of the parts of a group. SPEC and INDEP of group 1 are taken apart. -/
def groupRegs (g : Nat) : List (String) :=
  match g with
  | 1 => ["REC_CFG", "REC_LEN", "REC_PRE", "REC_SEG", "REC_RING_LEN", "REC_HDR_BASE", "REC_HDR_ENTRIES", "REC_RING_BASE_LO", "REC_RING_BASE_HI",
      "AVE_IS_CTRL"]
  | 2 => ["SQ_ACC"]
  | 3 => ["RED_OUT_CTRL", "RED_AU_CTRL", "RED_AU_CFG", "RED_AU_BASE", "RED_AU_BASE2", "RED_AU_TARGET", "RED_PER_CTRL", "RED_PER_MAP", "RED_PER_BASE"]
  | 4 => ["MU_CTRL", "MU_SRC", "MU_LVL", "MU_GATE"]
  | 5 => ["STM_CTRL", "STM_TDR", "STM_TDR_WIDTH", "STM_LAS_DLY", "STM_LAS_WIDTH"]
  | 6 => ["ERL_NET"]
  | _ => []

/-- The Kept fields of a group. -/
def groupFields (g : Nat) : List Fld :=
  ((regTable.filter (fun r => (groupRegs g).contains r.name)).flatMap (fun r => (r.all.filter (·.kept)).map (·.fld))) ++
  (if g = 1 then (List.range 4).flatMap (fun n => [TRG_CTRL.SPEC n, TRG_CTRL.INDEP n]) else [])

/-- Whether a group stands at its reset values. -/
def groupAtReset (g : Nat) (s : State) : Bool := (groupFields g).all (fun f => get f s == f.reset)

/-- The first failing check of a restored configuration, as the list of its groups (R577). -/
def firstFailing577 (s : State) : Option (List Nat) :=
  let m := keptPart s.regs
  let cfg := activeConfig s
  let t := { s with applied := m }
  if recInvalid m cfg t then some [1]
  else if accInvalid m cfg then some [2, 3]
  else if redPlaceInvalid m then some [3, 1]
  else if auPlaceInvalid m cfg then some [3, 2, 1]
  else if muInvalid m then some [4]
  else if stimInvalid m (mode s) s then some [5]
  else if leadInvalid m then some [6]
  else none

/-- A group returns to its reset values: its REVERTED bit and fault 0x010A (R577). -/
def returnGroup (g : Nat) (s : State) : State :=
  let s := (groupFields g).foldl (fun s f => set f f.reset s) s
  fault 0x010A 0 0 g (set SYS_LEDGER.REVERTED (get SYS_LEDGER.REVERTED s ||| 2 ^ (g - 1)) s)

/-- The judgement of R577, repeated until every check passes: each round returns one group, so six rounds reach the reset values. -/
def judgeRestored : Nat → State → State
  | 0, s => s
  | n + 1, s =>
    match firstFailing577 s with
    | none => s
    | some gs =>
      match gs.find? (fun g => !(groupAtReset g s)) with
      | none => s
      | some g => judgeRestored n (returnGroup g s)

end Sys2Proof.Machine
end

