-- ==== Sys2Proof/Machine/Capture.lean ====
section
/-! DEFINITION. Rows of the record engine and the beat that draw on every tap: BEAT, HEADER_READY, RECORD_COMMIT (R108, R195,
R196, R221, R233). -/

namespace Sys2Proof.Machine

/-! ## Header and commit (R195, R196) -/

/-- A record's header becomes ready: it takes the next sequence number, its segment index, and the flags of its window (R196, R198, R201). A
header that is late is absent (R54, kind 3). -/
def numberRec (r : Rec) (s : State) : State :=
  let s := if r.mu.isEmpty then measureRec r s else s
  let q := get REC_SEQ.NEXT s
  let x := (s.record.recs.find? (fun x => x.id == r.id)).getD r
  let t := takeSeg x (count REC_SEQ.NEXT s)
  let late := isLate 0x0B 0 s
  let y := { t.1 with phase := .numbered, seq := q, flags := t.1.flags ||| windowFlags t.1 s,
                      hdr := if late then 0 else t.1.hdr, queued := t.1.queued && !late }
  { t.2 with record.recs := t.2.record.recs.map (fun x => if x.id == r.id then y else x) }

/-- HEADER_READY: the records whose headers are ready in this slot are numbered in the order of R196. -/
def headerReady (s : State) : State :=
  let due := (s.record.recs.filter (wantsNumber s.now)).foldl (fun l r => insertRec r l) []
  due.foldl (fun s r => numberRec r s) (measureDue s)

/-- Meaning of HEADER_READY. -/
def execHeaderReady (s : State) : Host.Outcome State Fault Refusal := .next (headerReady s)

/-- One commit: the measurement statistics, persistence and accumulation units take the record, then the engine lets it go. -/
def commitOne (r : Rec) (s : State) : State := commitRec r (auCommit r (perCommit r (muCommit r s)))

/-- RECORD_COMMIT: records commit in sequence order while they are complete, up to three in a slot (R195, R196, R310). -/
def recordCommits : Nat → State → State
  | 0, s => s
  | n + 1, s =>
    match committable s with
    | none => s
    | some r => recordCommits n (commitOne r s)

/-- Meaning of RECORD_COMMIT. -/
def execRecordCommit (s : State) : Host.Outcome State Fault Refusal := .next (recordCommits 3 s)

/-! ## A beat (R3, R108, R221) -/

/-- Whether BEAT has its beat: even slot, a beat not yet taken, the front end past its latency, and the Avenue
converting. -/
def beatDue (s : State) : Bool :=
  s.tickOn && s.now % 2 == 0 && 40 ≤ s.now && s.ave.beat ≤ (s.now - 40) / 2 && converting s

/-- A beat reaches the taps, the triggers, the reduction stage and the ingest streams. -/
def takeBeat (b : Nat) (codes ahead : List Nat) (s : State) : State :=
  let beats := inputBeats codes ahead s
  let s := beats.foldl (fun s x => addMark ⟨b, x.input, x.flags⟩ s) s
  let s := beats.foldl (fun s x => addTap x.input b (x.y.map (· * 16)) x.flags s) s
  let s := reduceBeat b beats (holdBeat b beats (lightBeat b (beats.find? (fun x => x.input == 3)) s))
  let s := aveBeat b codes ahead (streamsBeat b beats s)
  perStep (measureDue ((List.range 4).foldl (fun s n => auStep n s) s))

/-- Meaning of BEAT: the beat that reaches the Avenue in this slot; the front end samples in RUN, under CONFIG 0 for its own watches only (R107). A
beat that is late is absent (R54, kind 3). -/
def execBeat (codes ahead : List Nat) (s : State) : Host.Outcome State Fault Refusal :=
  if beatDue s && !(isLate 1 0 s) then .next (takeBeat ((s.now - 40) / 2) codes ahead s) else .next s

/-! ## Live registers -/

/-- STATE of the record engine (R198, R219): 0 STOPPED, 1 ARMING, 2 ARMED, 3 CAPTURE, 4 DEAD, 5 HELD. -/
def recStatState (s : State) : Nat :=
  if !s.record.running then 0
  else if s.record.startWaits then 5
  else if s.record.place = 1 ∨ mode s = 4 then 2
  else match armed s with
    | some r => if r.armBeat + r.gen.pre ≤ (s.ave.beat : Int) then 2 else 1
    | none =>
      if s.record.recs.any (fun r => r.phase == .capturing && !r.ended) then 3
      else if s.record.dead && decide (s.now < s.record.armDue ∨ segClosed 4 s = true) then 4
      else 5

/-- The record engine's live registers (R219, R220): STATE, holds, open and provisional records, queue depth and reservations, and the
next beat written. -/
def refreshRecStat (s : State) : State :=
  let w := if s.record.running && s.record.place == 1 then (streamBeat s.ave.beat s).toNat else 0
  let s := set REC_STAT.STATE (recStatState s) (set REC_STAT.HELD (held s)
    (set REC_STAT.OPEN (Nat.min 7 (s.record.recs.filter (fun r => !r.prov && r.phase != .armed)).length)
      (set REC_STAT.PROV (s.record.recs.filter (fun r => r.prov)).length s)))
  let s := set REC_CQ_STAT.DEPTH s.record.queue.length (set REC_CQ_STAT.RSV s.record.recs.length (setB REC_CQ_STAT.FULL (cqFill s == 256) s))
  set REC_WBEAT_LO.W w (set REC_WBEAT_HI.W (w / 2 ^ 32) s)

end Sys2Proof.Machine
end

