-- ==== Sys2Proof/Machine/Tramlines.lean ====
section
/-! DEFINITION. The Tramlines (R309 to R323): event lines, stops, EVT pins and queue events. -/

namespace Sys2Proof.Machine

/-! ## Sources and register writes (R311, R312, R316, R323) -/

/-- Whether a source code is one of R311's table; 0 is the idle code. -/
def sourceKnown (c : Nat) : Bool :=
  c ≤ 0x04 || c == 0x08 || c == 0x09 || (0x20 ≤ c && c ≤ 0x2B) || c == 0x30 || c == 0x31 || (0x34 ≤ c && c ≤ 0x36) ||
  (0x38 ≤ c && c ≤ 0x3D) || (0x40 ≤ c && c ≤ 0x68) || (0x80 ≤ c && c ≤ 0xBF && c % 4 != 3) || (0xC0 ≤ c && c ≤ 0xD1)

/-- A write of 1 to OVERRUN of a stop clears it and its bit of EVT_OVR (R323). -/
def overrunClear (n : Nat) (s : State) : State := set (EVT_STOP_CNT.OVERRUN n) 0 s

/-- The bits of a register whose clearing write holds 1 there lose their 1. -/
def clearOnes (f : Fld) (v : Nat) (s : State) : State := set f (get f s - (get f s &&& v)) s

/-- A write of an event register takes effect (R323). A line whose SRC is reserved carries no event, since nothing raises one (R311). The WM of
queues 0 to 4 only mirrors the registers that set it. -/
def evtApply (addr v : Nat) (s : State) : State :=
  if addr < 0x40780100 then set (EVT_LINE_SRC.SRC ((addr - 0x40780000) / 4)) v s
  else if addr < 0x40780400 then set ⟨addr, 0, 32, 0⟩ v s
  else if addr < 0x40780500 then (if bit v 8 then overrunClear ((addr - 0x40780400) / 4) s else s)
  else if addr = EVT_OVR_LO.addr then (List.range 32).foldl (fun s i => if bit v i then overrunClear i s else s) s
  else if addr = EVT_OVR_HI.addr then (List.range 32).foldl (fun s i => if bit v i then overrunClear (32 + i) s else s) s
  else if addr = EVT_SEEN_LO.addr then clearOnes EVT_SEEN_LO.SEEN v s
  else if addr = EVT_SEEN_HI.addr then clearOnes EVT_SEEN_HI.SEEN v s
  else if addr = EVT_SW.addr then (List.range 16).foldl (fun s i => if bit v i then raise (0xC0 + i) s else s) s
  else if 0x40780520 ≤ addr ∧ addr < 0x40780530 then
    let p := (addr - 0x40780520) / 4
    set (EVT_PIN.DIR p) v (set (EVT_PIN.EDGE p) (v / 2) (set (EVT_PIN.LINE p) (v / 256) (set (EVT_PIN.WIDTH p) (v / 2 ^ 16)
      (set (EVT_PIN.POL p) (v / 2 ^ 24) s))))
  else if 0x40780614 ≤ addr ∧ addr < 0x40780640 then set (EVT_Q_CFG.WM ((addr - 0x40780600) / 4)) v s
  else s

/-- A write of an event register applies in the slot after it; while no slot runs, at once (R323). -/
def evtWrite (addr v : Nat) (s : State) : State :=
  if s.plan.running then { s with evt.later := s.evt.later ++ [(addr, v)] } else evtApply addr v s

/-- A write of EVT_LINE_SRC: BAD and the fault come at the write (R311). -/
def evtLineSrcWrite (n v : Nat) (s : State) : State :=
  if 64 ≤ n then s
  else
    let bad := !(sourceKnown (v % 256))
    let s := setB (EVT_LINE_SRC.BAD n) bad s
    evtWrite (0x40780000 + 4 * n) v (if bad then fault 0x0802 n 0 0 s else s)

/-- Meaning of EVT_LINE_SRC_WRITE. -/
def execEvtLineSrcWrite (n value : Nat) (s : State) : Host.Outcome State Fault Refusal := .next (evtLineSrcWrite n value s)

/-- Meaning of EVT_SW: the SW sources whose bits are set raise their events in the slot after the write (R312, R323). -/
def execEvtSw (value : Nat) (s : State) : Host.Outcome State Fault Refusal := .next (evtWrite EVT_SW.addr value s)

/-- A write of a stop's CLR clears its counter at the end of the slot (R316). -/
def stopClear (n : Nat) (s : State) : State :=
  if s.plan.running then { s with evt.clears := n :: s.evt.clears } else set (EVT_STOP_CNT.COUNT n) 0 s

/-- Meaning of CLR: the value holds the stop's number. -/
def execClr (value : Nat) (s : State) : Host.Outcome State Fault Refusal := .next (stopClear (value % 64) s)

/-! ## Delivery (R309, R310, R313, R314, R317) -/

/-- Whether a line is in a stop's mask in effect. -/
def inMask (stop line : Nat) (s : State) : Bool :=
  if line < 32 then bit (get (EVT_STOP_MASK_LO.MASK stop) s) line else bit (get (EVT_STOP_MASK_HI.MASK stop) s) (line - 32)

/-- Marks a line as seen (R323). -/
def seeLine (n : Nat) (s : State) : State :=
  if n < 32 then set EVT_SEEN_LO.SEEN (get EVT_SEEN_LO.SEEN s ||| 2 ^ n) s else set EVT_SEEN_HI.SEEN (get EVT_SEEN_HI.SEEN s ||| 2 ^ (n - 32)) s

/-- The slot whose events are delivered next: the oldest raising slot before the present one. -/
def deliverySlot (s : State) : Option Nat :=
  (s.evt.raised.filter (fun e => e.1 < s.now)).foldl (fun m e => match m with
    | none => some e.1
    | some x => some (Nat.min x e.1)) none

/-- The lines deliver the events of a slot to the stops. -/
def deliverLines (lines : List Nat) (s : State) : State :=
  let s := lines.eraseDups.foldl (fun s n => seeLine n s) s
  let arrivals := fun (st : Nat) => (lines.filter (fun n => inMask st n s)).length
  let s := (List.range 57).foldl (fun s st =>
    let n := arrivals st
    if n = 0 then s else arrive st n s) s
  (List.range 4).foldl (fun s p =>
    if on (EVT_PIN.DIR p) s && lines.contains (get (EVT_PIN.LINE p) s) then { s with evt.pinDue := s.evt.pinDue ++ [(p, s.now + 2)] } else s) s

/-- EVENT_DELIVERY: the lines deliver the events raised in the previous slot. -/
def eventDelivery (s : State) : State :=
  match deliverySlot s with
  | none => s
  | some r =>
    let lines := (s.evt.lines.filter (fun e => e.1 == r)).map (·.2)
    deliverLines lines { s with
      evt.raised := s.evt.raised.filter (fun e => e.1 != r), evt.lines := s.evt.lines.filter (fun e => e.1 != r) }

/-- Meaning of EVENT_DELIVERY. -/
def execEventDelivery (s : State) : Host.Outcome State Fault Refusal := .next (eventDelivery s)

/-! ## EVT pins (R317) -/

/-- EVT_PIN_INPUT_EDGE: an edge that EDGE selects on an input pin raises EVT_IN 3 slots later; while the fabric is stopped it wakes the
device where enabled (R513, R522). -/
def evtPinInputEdge (p : Nat) (rising : Bool) (s : State) : State :=
  let e := get (EVT_PIN.EDGE p) s
  if p < 4 ∧ on (EVT_PIN.DIR p) s = false ∧ (e = 2 ∨ (e = 0 ∧ rising = true) ∨ (e = 1 ∧ rising = false)) then
    if s.pwr.fabricStopped then wakeIf (3 + p) 4 s else { s with evt.pinDue := s.evt.pinDue ++ [(4 + p, s.now + 3)] }
  else s

/-- Meaning of EVT_PIN_INPUT_EDGE. -/
def execEvtPinInputEdge (pin : Nat) (rising : Bool) (s : State) : Host.Outcome State Fault Refusal := .next (evtPinInputEdge pin rising s)

/-- The width of an output pulse in slots. -/
def evtWidth (p : Nat) (s : State) : Nat := Nat.max 1 (get (EVT_PIN.WIDTH p) s)

/-- EVT_PIN_PULSE_START: a due output pulse starts, or extends the running one. -/
def evtPinPulseStart (p : Nat) (s : State) : State :=
  if s.evt.pinDue.any (fun e => e.1 == p && e.2 ≤ s.now) && on (EVT_PIN.DIR p) s then
    { s with evt.pinDue := s.evt.pinDue.filter (fun e => !(e.1 == p && e.2 ≤ s.now)), evt.pinOn := put s.evt.pinOn p (s.now + evtWidth p s) }
  else s

/-- Meaning of EVT_PIN_PULSE_START. -/
def execEvtPinPulseStart (pin : Nat) (s : State) : Host.Outcome State Fault Refusal := .next (evtPinPulseStart pin s)

/-- EVT_PIN_PULSE_END: a pulse whose width has passed ends. -/
def evtPinPulseEnd (p : Nat) (s : State) : State :=
  { s with evt.pinOn := s.evt.pinOn.filter (fun e => !(e.1 == p && e.2 ≤ s.now)) }

/-- Meaning of EVT_PIN_PULSE_END. -/
def execEvtPinPulseEnd (pin : Nat) (s : State) : Host.Outcome State Fault Refusal := .next (evtPinPulseEnd pin s)

/-- Whether an EVT output pin is driven to its active level; its driver is off while PRES_N is high (R317). -/
def evtPinActive (p : Nat) (s : State) : Bool := on (EVT_PIN.DIR p) s && !s.boot.presN && s.evt.pinOn.any (fun e => e.1 == p)

/-- The level of an EVT output pin by its polarity; none while its driver is off (R317). -/
def evtPinLevel (p : Nat) (s : State) : Option Bool :=
  if on (EVT_PIN.DIR p) s && !s.boot.presN then some (evtPinActive p s != on (EVT_PIN.POL p) s) else none

/-! ## Queues (R318 to R321) -/

/-- Descriptors in the error log ring (R531). -/
def logDepth (s : State) : Nat := get LOG_STAT.DEPTH s

/-- Depth of queue `q` (R318). -/
def queueDepth (q : Nat) (s : State) : Nat :=
  match q with
  | 0 => s.record.queue.length
  | 1 => (outOf 0 s).queue.length
  | 2 => (outOf 1 s).queue.length
  | 3 => (outOf 2 s).queue.length
  | 4 => (outOf 3 s).queue.length
  | 5 => headerFifo s
  | 6 => s.dma.fifo.length
  | 7 => s.erl.portA.tx.length
  | 8 => s.erl.portB.tx.length
  | 9 => s.sp.p0.queue.length
  | 10 => s.sp.p2.queue.length
  | 11 => s.sp.p0.rx.length
  | 12 => s.sp.p2.rx.length
  | 13 => s.line.toneFifo.length
  | 14 => s.line.spkFifo.length
  | _ => logDepth s

/-- Capacity of a queue. -/
def queueCap (q : Nat) : Nat :=
  match q with
  | 0 => 256
  | 5 => 32
  | 7 => 32
  | 8 => 32
  | 9 => 16
  | 10 => 16
  | 11 => 16
  | 12 => 16
  | 15 => 256
  | _ => 64

/-- Whether a queue's watermark is crossed falling. -/
def queueFalls (q : Nat) : Bool := q ∈ [7, 8, 9, 10, 13, 14]

/-- The watermark setting of a queue: its own register for the commit and reduction queues (R323). -/
def queueWm (q : Nat) (s : State) : Nat :=
  match q with
  | 0 => get REC_CQ_CTRL.WM s
  | 1 => (outOf 0 s).out.wm
  | 2 => (outOf 1 s).out.wm
  | 3 => (outOf 2 s).out.wm
  | 4 => (outOf 3 s).out.wm
  | _ => get (EVT_Q_CFG.WM q) s

/-- Whether a queue is full: the commit queue counts its reservations (R318). -/
def queueFull (q : Nat) (s : State) : Bool := if q = 0 then cqFill s == 256 else queueDepth q s == queueCap q

/-- One queue is judged after a cycle (R321). A watermark of registers 0 to 4 counts from the slot after its write. DEDUCED: log entry 34. -/
def judgeQueue (q : Nat) (s : State) : State :=
  let m := nth s.evt.queues q {}
  let d := queueDepth q s
  let wm := if q ≤ 4 ∧ m.judged = true then m.wm else queueWm q s
  let wms := if queueFalls q then decide (d ≤ wm) else decide (wm ≤ d)
  let full := queueFull q s
  let src := 0x80 + 4 * q
  let s := if m.depth = 0 ∧ 0 < d then raise src s else s
  let s := if wms && !m.wms && (m.judged || !(queueFalls q)) then raise (src + 1) s else s
  let s := if full && !m.full then raise (src + 2) s else s
  let s := set (EVT_Q_STAT.DEPTH q) d (setB (EVT_Q_STAT.NE q) (decide (0 < d)) (setB (EVT_Q_STAT.WMS q) wms (setB (EVT_Q_STAT.FULL q) full s)))
  { s with evt.queues := modifyNth (fun _ => ⟨d, full, wms, queueWm q s, true⟩) q s.evt.queues }

/-- Every queue is judged after the cycle of a slot. -/
def judgeQueues (s : State) : State := (List.range 16).foldl (fun s q => judgeQueue q s) s

/-- What a slot does to the Tramlines at its end: the queues are judged, the stops' counters are evaluated, and those to be cleared are
cleared after that (R314, R316, R321). -/
def evtSlotEnd (s : State) : State :=
  let s := (List.range 57).foldl (fun s st => evalStop st s) (judgeQueues s)
  { s.evt.clears.foldl (fun s n => set (EVT_STOP_CNT.COUNT n) 0 s) s with evt.clears := [], evt.fresh := [], evt.ran := [] }

/-- What a new slot brings to the Tramlines: due input events are raised (R317). -/
def evtSlotStart (s : State) : State :=
  let due := s.evt.pinDue.filter (fun e => 4 ≤ e.1 && e.2 ≤ s.now)
  due.foldl (fun s e => raise (0x60 + (e.1 - 4)) s) { s with evt.pinDue := s.evt.pinDue.filter (fun e => !(4 ≤ e.1 && e.2 ≤ s.now)) }

end Sys2Proof.Machine
end

