-- ==== Sys2Proof/Machine/Dma.lean ====
section
/-! DEFINITION. The Roundabout's channels (R281 to R308). -/

namespace Sys2Proof.Machine

/-! ## Channels -/

/-- A channel. -/
def chOf (n : Nat) (s : State) : DmaCh := nth s.dma.chans n {}

/-- Replaces a channel. -/
def setCh (n : Nat) (f : DmaCh → DmaCh) (s : State) : State := { s with dma.chans := modifyNth f n s.dma.chans }

/-- Whether a channel carries a host frame: a descriptor whose one side is the frame's buffer, kind 3, which no descriptor in memory can
name (R412). -/
def frameCh (c : DmaCh) : Bool := match c.desc with | some d => d.skind == 3 || d.dkind == 3 | none => false

/-- Replaces a frame in flight. -/
def setFrame (q : Nat) (f : InFlight → InFlight) (s : State) : State :=
  { s with hfr.flight := s.hfr.flight.map (fun x => if x.serial == q then f x else x) }

/-- The first failure of a frame stands: result and word (R413). -/
def InFlight.fail (res idx : Nat) (x : InFlight) : InFlight := if x.result = 0 then { x with result := res, errIdx := idx } else x

/-- A failure at a word of the frame that a channel carries. -/
def frameFail (n res idx : Nat) (s : State) : State :=
  if frameCh (chOf n s) then (match s.hfr.dmaFrame with | some q => setFrame q (InFlight.fail res idx) s | none => s) else s

/-- The frame of a channel ends. -/
def frameEnd (n res : Nat) (s : State) : State :=
  if frameCh (chOf n s) then
    match s.hfr.dmaFrame with
    | some q => setFrame q (fun x => { x with done := true, result := if res = 0 then x.result else res }) { s with hfr.dmaFrame := none }
    | none => s
  else s

/-- The class of a channel (R283, R412). -/
def chClass (n : Nat) (s : State) : Nat := if frameCh (chOf n s) then get HFR_CFG.CLASS s else get (DMA_CH_CTRL.CLASS n) s

/-- The destination of a channel's present work: DKIND, PORT, DST. -/
def chDest (c : DmaCh) : Nat × Nat × Nat :=
  match c.desc, c.template with
  | some d, _ => (d.dkind, d.port, d.dst)
  | none, some t => (t.dkind, t.port, t.dst)
  | none, none => (0, 0, 0)

/-- Whether a channel works on a descriptor or a record. -/
def chBusy (c : DmaCh) : Bool := c.desc.isSome || c.cqSeq.isSome

/-- The address of byte `64 k` of a two-dimensional walk (R289). -/
def walkAddr (base len : Nat) (stride : Int) (k : Nat) : Addr :=
  if len = 0 then base else ((base : Int) + stride * ((64 * k) / len : Nat)).toNat % 2 ^ 40 + (64 * k) % len

/-- The address of source line `k` of a channel's work. -/
def srcAddr (c : DmaCh) (k : Nat) : Addr :=
  match c.desc with
  | some d => walkAddr d.src d.slen d.sstr k
  | none => nth c.srcLines k 0

/-- The address of destination line `k` (R289, R294). -/
def dstAddr (c : DmaCh) (k : Nat) : Addr :=
  match c.desc, c.template with
  | some d, _ => walkAddr d.dst d.dlen d.dstr k
  | none, some t => t.dst + (if t.dlen = 0 then c.dstPtr + 64 * k else (c.dstPtr + 64 * k) % t.dlen)
  | none, none => 0

/-- The source kind of a channel's work: a record's lines lie in memory. -/
def srcKind (c : DmaCh) : Nat := match c.desc with | some d => d.skind | none => 0

/-- Whether a staging line is free: four lines, of which those read but not arrived count (R282). -/
def stagingFree (c : DmaCh) : Bool := c.staged.length + c.inFlight < 4

/-- Whether a channel's pacing permits new reads (R298). -/
def pacePermits (n : Nat) (s : State) : Bool :=
  frameCh (chOf n s) || match get (DMA_CH_PACE.MODE n) s with
  | 1 => (chOf n s).granted
  | 2 => (chOf n s).pacedOn
  | _ => true

/-- Whether a channel is in CQ mode. -/
def cqMode (n : Nat) (s : State) : Bool := on (DMA_CH_CTRL.DSRC n) s && !(frameCh (chOf n s))

/-- Whether a channel's pacing permits the read of a descriptor or template (R298): a count runs a record, not a template. -/
def fetchPermits (n : Nat) (s : State) : Bool :=
  pacePermits n s || (cqMode n s && get (DMA_CH_PACE.MODE n) s != 2)

/-- A channel's next memory read: its descriptor line, or its next source line (R282). -/
def nextRead (n : Nat) (s : State) : Option Addr :=
  let c := chOf n s
  if !c.active || c.aborting.isSome || !stagingFree c then none
  else match c.fetch with
    | some a => if c.fetchIssued then none else if fetchPermits n s then some a else none
    | none =>
      if chBusy c && srcKind c == 0 && c.reads < c.total && pacePermits n s then some (srcAddr c c.reads) else none

/-- A channel's pending memory write: its oldest staged line, 4 slots after its arrival (R282). -/
def nextWrite (n : Nat) (s : State) : Option Addr :=
  let c := chOf n s
  match c.staged with
  | [] => none
  | l :: _ => if c.active && c.aborting.isNone && (chDest c).1 == 0 && l.arrived + 4 ≤ s.now then some (dstAddr c c.writes) else none

/-- A channel's next pending access in a direction. -/
def nextAccess (write : Bool) (n : Nat) (s : State) : Option Addr := if write then nextWrite n s else nextRead n s

/-- A channel's oldest pending access (R284): whether it is a write, and its address. A write is pending from 4 slots after its line's
arrival, a read from the slot that `readSince` holds; at the same age the write is taken for the older. DESIGN CHOICE: log entry 104. -/
def oldestAccess (n : Nat) (s : State) : Option (Bool × Addr) :=
  match nextWrite n s, nextRead n s with
  | some w, some r =>
    let since := (((chOf n s).staged.head?).map (fun l => l.arrived + 4)).getD 0
    if since ≤ ((chOf n s).readSince.getD s.now) then some (true, w) else some (false, r)
  | some w, none => some (true, w)
  | none, some r => some (false, r)
  | none, none => none

/-- Of the channels that a test accepts, the one of highest class, round-robin after the one that the class last served (R283). -/
def chooseCh (ok : Nat → Bool) (s : State) : Option Nat :=
  let pick := fun (cls : Nat) =>
    let last := look s.dma.rr cls 31
    ((List.range 32).map (fun i => (last + 1 + i) % 32)).find? (fun n => chClass n s == cls && ok n)
  ((List.range 4).filterMap pick).head?

/-- Notes the channel last served of its class. -/
def served (n : Nat) (s : State) : State := { s with dma.rr := put s.dma.rr (chClass n s) n }

/-- The channel that a Roundabout claim of the slot serves (R283). Every claim of a slot is judged on the same state, so their order has no
effect (R28). -/
def claimChoice (c : Claim) (s : State) : Option Nat :=
  chooseCh (fun n => match nextAccess (c.op != 0) n s with
    | some a => inSquare a && bankOf a == c.bank
    | none => false) s

/-! ## Status -/

/-- STATE, STAGED and ON of a channel that is active (R308). -/
def refreshCh (n : Nat) (s : State) : State :=
  let c := chOf n s
  let st := if c.fetch.isSome then 1 else if !(chBusy c) || (c.reads < c.total && !(pacePermits n s) && c.staged.isEmpty) then 2 else 3
  let s := if c.active then set (DMA_CH_STAT.STATE n) st s else s
  set (DMA_CH_STAT.STAGED n) c.staged.length (setB (DMA_CH_PACE.ON n) (c.active && c.pacedOn) s)

/-- A channel leaves activity with a STATE. -/
def chStop (n state : Nat) (s : State) : State :=
  refreshCh n (set (DMA_CH_STAT.STATE n) state (setCh n (fun c =>
    { c with active := false, fetch := none, fetchIssued := false, desc := none, template := none, cqSeq := none, srcLines := [], staged := [],
             inFlight := 0, granted := false, pacedOn := false, haltAtEnd := false, aborting := none }) s))

/-- A channel halts with an error (R290, R296). -/
def chHalt (n err code : Nat) (s : State) : State := fault code n 0 0 (set (DMA_CH_STAT.ERR n) err (chStop n 4 s))

/-- An error that halts the channel at the end of its descriptor (R304). -/
def chErr (n err : Nat) (s : State) : State := set (DMA_CH_STAT.ERR n) err (setCh n (fun c => { c with haltAtEnd := true }) s)

/-! ## Start (R281, R290, R292, R296, R298) -/

/-- The address in DMA_CH_DESC. -/
def descAddr (n : Nat) (s : State) : Addr := get (DMA_CH_DESC_LO.ADDR n) s * 64 + get (DMA_CH_DESC_HI.ADDR n) s * 2 ^ 32

/-- Whether a 40-bit address is a line of the Square or of the Boulevard's data space. -/
def memLine (a : Addr) (s : State) : Bool := a % 64 == 0 && (inSquare a || inBlv a s)

/-- DMA_START: an idle channel becomes active, or the start is refused. -/
def dmaStart (n : Nat) (s : State) : State :=
  if (chOf n s).active then set (DMA_CH_STAT.BUSY_WR n) 1 s
  else
    let s := set (DMA_CH_STAT.ERR n) 0 s
    let other := (List.range 32).any (fun k => k != n && (chOf k s).active && cqMode k s)
    if get (DMA_CH_PACE.MODE n) s = 2 ∧ get (DMA_CH_PACE.HI n) s ≤ get (DMA_CH_PACE.LO n) s then
      fault 0x0701 n 0 0 (set (DMA_CH_STAT.ERR n) 1 s)
    else if cqMode n s && other then fault 0x0704 n 0 0 (set (DMA_CH_STAT.ERR n) 5 s)
    else if !(memLine (descAddr n s) s) then chHalt n 1 0x0701 s
    else refreshCh n (setCh n (fun _ => { active := true, fetch := some (descAddr n s) }) s)

/-- Meaning of DMA_START. -/
def execDmaStart (ch : Nat) (s : State) : Host.Outcome State Fault Refusal := .next (if ch < 32 then dmaStart ch s else s)

/-! ## Descriptors (R287, R288, R290, R292) -/

/-- A descriptor from its 64 bytes. -/
def descOf (b : List Nat) : Desc :=
  let w := fun (o n : Nat) => ofLe (slice b o n)
  let ctl := w 0x28 4
  { src := w 0 8, dst := w 8 8, slen := w 0x10 4, sstr := signed 32 (w 0x14 4), scnt := w 0x18 4, dlen := w 0x1C 4,
    dstr := signed 32 (w 0x20 4), dcnt := w 0x24 4, skind := bits ctl 0 4, dkind := bits ctl 4 4, port := bits ctl 8 4,
    last := bit ctl 12, pulse := bit ctl 13, cnt := bit ctl 14, tag := w 0x2C 4, next := w 0x30 8 }

/-- Whether reserved bits and bytes of a descriptor are zero. -/
def descClean (b : List Nat) : Bool :=
  let ctl := ofLe (slice b 0x28 4)
  bits ctl 2 2 == 0 && bits ctl 6 2 == 0 && bits ctl 9 3 == 0 && bits ctl 15 17 == 0 && (slice b 0x38 8).all (fun x => x == 0)

/-- The rules of R290 on a descriptor. -/
def descOk (b : List Nat) (d : Desc) (s : State) : Bool :=
  descClean b && d.skind ≤ 2 && d.dkind ≤ 2 && (d.src < 2 ^ 40) && (d.dst < 2 ^ 40) &&
  (d.last || (d.next < 2 ^ 40 && memLine d.next s)) &&
  (if d.skind = 1 then decide (d.src < 4) else d.src % 64 == 0 && d.sstr % 64 == 0) &&
  (if d.dkind = 1 then d.dst == 0 else d.dst % 64 == 0 && d.dstr % 64 == 0) &&
  d.slen % 64 == 0 && 64 ≤ d.slen && d.dlen % 64 == 0 && 64 ≤ d.dlen &&
  1 ≤ d.scnt && d.scnt ≤ 2 ^ 24 && 1 ≤ d.dcnt && d.dcnt ≤ 2 ^ 24 &&
  d.slen * d.scnt == d.dlen * d.dcnt && d.slen * d.scnt ≤ 2 ^ 32 - 64

/-- The rules of R292 on a template. -/
def templateOk (b : List Nat) (d : Desc) : Bool :=
  descClean b && d.skind == 0 && d.dkind ≤ 2 && d.src == 0 && d.dst < 2 ^ 40 && d.slen == 0 && d.sstr == 0 && d.scnt == 0 &&
  d.dstr == 0 && d.dcnt == 0 && !d.last && d.tag == 0 && d.next == 0 && d.dlen % 64 == 0 &&
  (if d.dkind = 1 then d.dst == 0 else d.dst % 64 == 0)

/-- Whether another active channel takes a reduction queue (R296). DEDUCED: log entry 43. -/
def queueTaken (n q : Nat) (s : State) : Bool :=
  (List.range 32).any (fun k => k != n && (chOf k s).active && (match (chOf k s).desc with | some d => d.skind == 1 && d.src == q | none => false))

/-- Data in flight to a channel that is due. -/
def dueFlights (n : Nat) (s : State) : List Flight := s.memory.flight.filter (fun f => f.tag == .dma n && f.due ≤ s.now)

/-- Takes flights off the way. -/
def dropFlights (n : Nat) (s : State) : State := { s with memory.flight := s.memory.flight.filter (fun f => !(f.tag == .dma n && f.due ≤ s.now)) }

/-- A fenced or uncorrectable read is noted at the channel (R303, R304). -/
def noteRead (n : Nat) (f : Flight) (s : State) : State :=
  let s := if f.fenced then fault 0x0405 0x20 0 0 (set (DMA_CH_STAT.FENCED n) 1 s) else s
  if f.bad then set (DMA_CH_STAT.UE n) 1 s else s

/-- DESCRIPTOR_LOADED: a fetched descriptor or template is checked and taken up (R290, R292). -/
def descriptorLoaded (n : Nat) (s : State) : State :=
  let c := chOf n s
  match dueFlights n s with
  | f :: _ =>
    if !(c.active && c.fetchIssued) then s
    else
      let s := noteRead n f (dropFlights n s)
      let s := setCh n (fun c => { c with fetch := none, fetchIssued := false, inFlight := c.inFlight - 1 }) s
      if c.aborting.isSome then s
      else
        let d := descOf f.data
        if cqMode n s then
          if templateOk f.data d then refreshCh n (setCh n (fun c => { c with template := some d, dstPtr := 0 }) s) else chHalt n 1 0x0701 s
        else if !(descOk f.data d s) then chHalt n 1 0x0701 s
        else if d.skind == 1 && queueTaken n d.src s then chHalt n 5 0x0704 s
        else refreshCh n (setCh n (fun c => { c with desc := some d, reads := 0, writes := 0, total := d.slen * d.scnt / 64 }) s)
  | [] => s

/-- Meaning of DESCRIPTOR_LOADED. -/
def execDescriptorLoaded (ch : Nat) (s : State) : Host.Outcome State Fault Refusal := .next (descriptorLoaded ch s)

/-! ## Lines (R282 to R286, R303, R304) -/

/-- The first failing word of a line that a frame reads: result and number of the 32-bit word, from the uncorrectable 64-bit words and the
fenced bytes (R262, R413). -/
def lineFailure (bad fenced : List Nat) : Option (Nat × Nat) :=
  match (bad.map (2 * ·)).min?, (fenced.map (· / 4)).min? with
  | some x, some y => if x ≤ y then some (0x14, x) else some (0x16, y)
  | some x, none => some (0x14, x)
  | none, some y => some (0x16, y)
  | none, none => none

/-- A channel issues its next read (R282). -/
def readIssued (n : Nat) (s : State) : State :=
  served n (setCh n (fun c =>
    if c.fetch.isSome then { c with fetchIssued := true, inFlight := c.inFlight + 1, readSince := none }
    else { c with reads := c.reads + 1, inFlight := c.inFlight + 1, readSince := none }) s)

/-- A failure within line `k` of a frame is noted at its word. -/
def noteFailure (n k : Nat) (bad fenced : List Nat) (s : State) : State :=
  match lineFailure bad fenced with
  | some (res, w) => frameFail n res (16 * k + w) s
  | none => s

/-- A channel issues the read of a line: it is on its way until `due` (R282). `bad` are the numbers of its uncorrectable words, `fenced` the
places of its fenced bytes. -/
def issueRead (n : Nat) (a : Addr) (due : Nat) (data bad fenced : List Nat) (s : State) : State :=
  let k := (chOf n s).reads
  addFlight ⟨due, 0x20, a, .dma n, data, !bad.isEmpty, !fenced.isEmpty⟩ (noteFailure n k bad fenced (readIssued n s))

/-- DMA_LINE_ARRIVAL: read data that is due enters staging. -/
def dmaLineArrival (n : Nat) (s : State) : State :=
  let c := chOf n s
  if c.fetchIssued then s
  else
    let l := dueFlights n s
    if l.isEmpty then s
    else
      let s := l.foldl (fun s f => noteRead n f s) (dropFlights n s)
      refreshCh n (setCh n (fun c =>
        { c with staged := c.staged ++ l.map (fun f => ⟨s.now, f.data⟩), inFlight := c.inFlight - l.length }) s)

/-- Meaning of DMA_LINE_ARRIVAL. -/
def execDmaLineArrival (ch : Nat) (s : State) : Host.Outcome State Fault Refusal := .next (dmaLineArrival ch s)

/-- The oldest staged line leaves staging. -/
def unstage (n : Nat) (s : State) : State :=
  refreshCh n (setCh n (fun c => { c with staged := c.staged.drop 1, writes := c.writes + 1 }) s)

/-- A write claim or entry moves the channel's oldest staged line to memory (R283, R304). -/
def issueWrite (n : Nat) (a : Addr) (s : State) : State :=
  match (chOf n s).staged with
  | [] => s
  | l :: _ =>
    let r := lineWrite 0x20 a l.data allOn s
    let s := match r.1 with
      | .ok => r.2
      | .prot => chErr n 3 (frameFail n 0x12 (16 * (chOf n s).writes) r.2)
      | .addr => chErr n 2 (frameFail n 0x11 (16 * (chOf n s).writes) r.2)
    served n (unstage n s)

/-- Erost port `p` by number. -/
def erlPort (p : Nat) (s : State) : ErlPort := if p = 0 then s.erl.portA else s.erl.portB

/-- Replaces an Erost port. -/
def setPort (p : Nat) (f : ErlPort → ErlPort) (s : State) : State :=
  if p = 0 then { s with erl.portA := f s.erl.portA } else { s with erl.portB := f s.erl.portB }

/-- Posted-write lines in a port's transmit queue: 8 of its 32 lines are held for completions (R318, R470). -/
def txLines (p : Nat) (s : State) : Nat := ((erlPort p s).tx.filter (fun k => k.vc == 1)).length

/-- DMA_PORT_LINE_OUT: a staged line leaves for the SP1 FIFO or an Erost transmit queue, 4 slots after its arrival, once the port has
room (R285). -/
def dmaPortLineOut (n : Nat) (s : State) : State :=
  let c := chOf n s
  match c.staged with
  | [] => s
  | l :: _ =>
    let d := chDest c
    if !c.active || c.aborting.isSome || s.now < l.arrived + 4 then s
    else if d.1 = 1 ∧ s.dma.fifo.length < 64 then unstage n { s with dma.fifo := s.dma.fifo ++ [l.data] }
    else if d.1 = 2 ∧ txLines d.2.1 s < 24 then
      unstage n (setPort d.2.1 (fun p => { p with tx := p.tx ++ [⟨1, 0, dstAddr c c.writes, 0, 0, l.data, 0⟩] }) s)
    else if d.1 = 3 then
      match s.hfr.dmaFrame with
      | some q => unstage n (setFrame q (fun x => { x with payload := x.payload ++ (List.range 16).map (fun i => ofLe (slice l.data (4 * i) 4)) }) s)
      | none => unstage n s
    else s

/-- Meaning of DMA_PORT_LINE_OUT. -/
def execDmaPortLineOut (ch : Nat) (s : State) : Host.Outcome State Fault Refusal := .next (dmaPortLineOut ch s)

/-! ## Completion (R291, R295, R306) -/

/-- PULSE and CNT of a completion; whether the count has reached zero. DEDUCED: log entry 99. -/
def countDone (n : Nat) (pulse cnt : Bool) (s : State) : Bool × State :=
  let s := if pulse then raise (0x40 + n) s else s
  if cnt then
    let v := (get (DMA_CH_COUNT.COUNT n) s + 2 ^ 24 - 1) % 2 ^ 24
    let s := set (DMA_CH_COUNT.COUNT n) v s
    if v = 0 then (true, set DMA_GEND.END (get DMA_GEND.END s ||| 2 ^ n) (set (DMA_CH_STAT.END n) 1 s)) else (false, s)
  else (false, s)

/-- DMA_DESCRIPTOR_COMPLETE: the last line of a descriptor or record has left staging (R291, R294, R295, R304, R306). A completion in the
slot of an abort stands. -/
def dmaDescriptorComplete (n : Nat) (s : State) : State :=
  let c := chOf n s
  if !c.active || (c.aborting.isSome && c.aborting != some s.now) || !(chBusy c) || c.writes < c.total || !c.staged.isEmpty then s
  else match c.desc, c.template with
    | some d, _ =>
      let f := if frameCh c then draw s else (d.tag, s)
      let r := countDone n d.pulse d.cnt (set (DMA_CH_TAG.TAG n) f.1 (frameEnd n 0 f.2))
      let s := setCh n (fun c => { c with desc := none, granted := false }) r.2
      if c.haltAtEnd then chStop n 4 s
      else if r.1 || d.last then chStop n 0 s
      else
        let s := set (DMA_CH_DESC_LO.ADDR n) (d.next / 64) (set (DMA_CH_DESC_HI.ADDR n) (d.next / 2 ^ 32) s)
        refreshCh n (setCh n (fun c => { c with fetch := some d.next, fetchIssued := false }) s)
    | none, some t =>
      let seq := c.cqSeq.getD 0
      let rel := on (DMA_CH_CTRL.AUTO_REL n) s && app REC_CFG.RMODE s == 0 &&
        s.record.past.any (fun p => p.seq == seq && p.place == 0)
      let s := if rel then release seq s else s
      let r := countDone n t.pulse t.cnt s
      let s := setCh n (fun c => { c with
        cqSeq := none, srcLines := [], granted := false
        dstPtr := if t.dlen = 0 then c.dstPtr + 64 * c.total else (c.dstPtr + 64 * c.total) % t.dlen }) r.2
      if c.haltAtEnd then chStop n 4 s
      else if r.1 then chStop n 0 s
      else refreshCh n s
    | none, none => s

/-- Meaning of DMA_DESCRIPTOR_COMPLETE. -/
def execDmaDescriptorComplete (ch : Nat) (s : State) : Host.Outcome State Fault Refusal := .next (dmaDescriptorComplete ch s)

/-! ## Abort (R305) -/

/-- DMA_ABORT: the channel issues no access after this slot. -/
def dmaAbort (n : Nat) (s : State) : State :=
  if (chOf n s).active && (chOf n s).aborting.isNone then setCh n (fun c => { c with aborting := some s.now }) s else s

/-- Meaning of DMA_ABORT. -/
def execDmaAbort (ch : Nat) (s : State) : Host.Outcome State Fault Refusal := .next (dmaAbort ch s)

/-- DMA_ABORT_COMPLETE: once the issued reads have arrived, the channel discards its staging. -/
def dmaAbortComplete (n : Nat) (s : State) : State :=
  let c := chOf n s
  if c.aborting.isSome && !(s.memory.flight.any (fun f => f.tag == .dma n && s.now < f.due)) &&
      !(s.memory.reading.any (fun f => f.tag == .dma n)) then
    fault 0x0702 n 0 0 (chStop n 5 (dropFlights n (frameEnd n 0x18 s)))
  else s

/-- Meaning of DMA_ABORT_COMPLETE. -/
def execDmaAbortComplete (ch : Nat) (s : State) : Host.Outcome State Fault Refusal := .next (dmaAbortComplete ch s)

/-! ## Register writes (R307) -/

/-- A write of a channel register takes effect. -/
def dmaApply (addr v : Nat) (s : State) : State :=
  let n := (addr - 0x40700000) / 0x40
  match (addr - 0x40700000) % 0x40 with
  | 0x00 =>
    let s := set (DMA_CH_CTRL.CLASS n) (v / 16) (set (DMA_CH_CTRL.DSRC n) (v / 64) (set (DMA_CH_CTRL.HDR n) (v / 128)
      (set (DMA_CH_CTRL.STREAM n) (v / 256) (set (DMA_CH_CTRL.AUTO_REL n) (v / 2048) s))))
    if bit v 0 then dmaStart n s else s
  | 0x08 => set (DMA_CH_DESC_LO.ADDR n) (v / 64) s
  | 0x0C => set (DMA_CH_DESC_HI.ADDR n) v s
  | 0x10 => set (DMA_CH_COUNT.COUNT n) v s
  | 0x14 => set (DMA_CH_PACE.MODE n) v (set (DMA_CH_PACE.SRC n) (v / 16) (set (DMA_CH_PACE.LO n) (v / 256)
      (set (DMA_CH_PACE.HI n) (v / 2 ^ 20) s)))
  | _ => s

/-- A write of DMA_CH_CTRL, DESC, COUNT or PACE: ABORT acts in its slot and wins over START, a write to an active channel is dropped
with BUSY_WR, any other applies in the next slot. -/
def dmaChRegWrite (addr v : Nat) (s : State) : State :=
  let n := (addr - 0x40700000) / 0x40
  let r := (addr - 0x40700000) % 0x40
  if addr < 0x40700000 ∨ 32 ≤ n then s
  else if r = 0x04 then
    let clr := fun (F : Fld) (b : Nat) (s : State) => if bit v b then set F 0 s else s
    clr (DMA_CH_STAT.FENCED n) 3 (clr (DMA_CH_STAT.UE n) 4 (clr (DMA_CH_STAT.END n) 5 (clr (DMA_CH_STAT.BUSY_WR n) 6 s)))
  else if r = 0 ∧ bit v 1 = true ∧ (chOf n s).active = true then dmaAbort n s
  else if (chOf n s).active then set (DMA_CH_STAT.BUSY_WR n) 1 s
  else
    let v := if r = 0 ∧ bit v 1 = true then v - v % 2 else v
    if s.plan.running then { s with evt.later := s.evt.later ++ [(addr, v)] } else dmaApply addr v s

/-- Meaning of DMA_CH_REG_WRITE. -/
def execDmaChRegWrite (addr value : Nat) (s : State) : Host.Outcome State Fault Refusal := .next (dmaChRegWrite addr value s)

/-- A deferred register write applies in its slot (R307, R323). -/
def laterApply (addr v : Nat) (s : State) : State := if addr < 0x40780000 then dmaApply addr v s else evtApply addr v s

/-! ## What a slot does to the channels beside its claims -/

/-- The level a channel is paced by (R299). -/
def paceLevel (src : Nat) (s : State) : Nat :=
  match src with
  | 4 => s.record.queue.length
  | 5 => 64 - s.dma.fifo.length
  | 6 => 32 - s.erl.portA.tx.length
  | 7 => 32 - s.erl.portB.tx.length
  | n => (outOf n s).queue.length

/-- LEVEL pacing is judged on the depths after a cycle (R298, R299). -/
def judgePace (n : Nat) (s : State) : State :=
  if (chOf n s).active && get (DMA_CH_PACE.MODE n) s == 2 then
    let l := paceLevel (get (DMA_CH_PACE.SRC n) s) s
    if get (DMA_CH_PACE.HI n) s ≤ l then setCh n (fun c => { c with pacedOn := true }) s
    else if l ≤ get (DMA_CH_PACE.LO n) s then setCh n (fun c => { c with pacedOn := false }) s
    else s
  else s

/-- The lines of a committed record's window in a stream, in order, by the settings of its generation (R293). -/
def windowLines (stream : Nat) (r : Past) : List Addr :=
  let t := nth r.rings stream {}
  let b := t.perBeat
  if b = 0 ∨ t.bytes = 0 ∨ bit r.streams stream = false then []
  else if r.place = 0 then (List.range (r.length * b / 64)).map (fun k => t.base + r.pos * r.length * b + 64 * k)
  else
    let o := r.pos * b
    (List.range ((o + r.length * b - 1) / 64 + 1 - o / 64)).map (fun k => t.base + (o / 64 + k) % (t.bytes / 64) * 64)

/-- The CQ channel takes the head of the commit queue as its next record (R292). -/
def cqTake (n : Nat) (s : State) : State :=
  let c := chOf n s
  if c.active && c.aborting.isNone && cqMode n s && c.template.isSome && c.cqSeq.isNone && pacePermits n s then
    match s.record.queue with
    | [] => s
    | d :: rest =>
      let seq := nth d 0 0
      let p := s.record.past.find? (fun r => r.seq == seq)
      let w := (p.map (windowLines (get (DMA_CH_CTRL.STREAM n) s))).getD []
      let hdr := (p.map (·.hdr)).getD (headerAddr s.applied seq)
      let h := if on (DMA_CH_CTRL.HDR n) s then [hdr, hdr + 64] else []
      refreshCh n (setCh n (fun c => { c with cqSeq := some seq, srcLines := h ++ w, reads := 0, writes := 0, total := (h ++ w).length })
        { s with record.queue := rest })
  else s

/-- A QUEUE source gives its channel one line a slot without a claim (R285, R289). -/
def queueTake (n : Nat) (s : State) : State :=
  let c := chOf n s
  match c.desc with
  | none => s
  | some d =>
    if d.skind = 1 ∧ c.active = true ∧ c.aborting = none ∧ c.reads < c.total ∧ stagingFree c = true ∧ pacePermits n s = true then
      match (outOf d.src s).queue with
      | [] => s
      | l :: rest =>
        let s := outStat d.src (setOut d.src (fun o => { o with queue := rest }) s)
        refreshCh n (setCh n (fun c => { c with reads := c.reads + 1, staged := c.staged ++ [⟨s.now, l⟩] }) s)
    else s

/-- The payload of a WRITE frame enters its channel's staging, one line a slot (R412). -/
def frameTake (n : Nat) (s : State) : State :=
  let c := chOf n s
  match c.desc, s.hfr.dmaFrame with
  | some d, some q =>
    if d.skind = 3 ∧ c.active = true ∧ c.aborting = none ∧ c.reads < c.total ∧ stagingFree c = true then
      match s.hfr.flight.find? (fun x => x.serial == q) with
      | some x =>
        let l := ((x.frame.payload.drop (16 * c.reads)).take 16).flatMap (fun w => leBytes 4 w)
        refreshCh n (setCh n (fun c => { c with reads := c.reads + 1, staged := c.staged ++ [⟨s.now, l⟩] }) s)
      | none => s
    else s
  | _, _ => s

/-- Starts a channel on a host frame: `write` from the frame to memory, else from memory to the frame's reply (R412). -/
def frameStart (n q : Nat) (write : Bool) (a : Addr) (words : Nat) (s : State) : State :=
  let d : Desc := { src := if write then 0 else a, dst := if write then a else 0, slen := 4 * words, sstr := 0, scnt := 1,
                    dlen := 4 * words, dstr := 0, dcnt := 1, skind := if write then 3 else 0, dkind := if write then 0 else 3, port := 0,
                    last := true, pulse := false, cnt := false, tag := 0, next := 0 }
  let s := set (DMA_CH_STAT.ERR n) 0 { s with hfr.dmaFrame := some q }
  refreshCh n (setCh n (fun _ => { active := true, desc := some d, total := words / 16 }) s)

/-- The line of zeros that an unmapped address reads as (R257). -/
def zeroLine : List Nat := List.replicate 64 0

/-- Whether an address lies in the register space, of which the spec gives no access of whole lines. The XIP windows are unmapped for every
master but the core (R386). -/
def wordSpace (a : Addr) : Bool := 0x40000000 ≤ a && a < 0x41000000

/-- A line of 64 free values. -/
def freeLine (s : State) : List Nat × State :=
  ((List.range 64).map (fun i => Config.freeNat (s.freeCtr + i) % 256), { s with freeCtr := s.freeCtr + 64 })

/-- Whether another master may take the port of a TCM in this slot: at the start of a cycle, before the core (R361). DESIGN CHOICE: log
entry 105. -/
def masterPort (a : Addr) (s : State) : Bool := s.now % 2 == 0 && portFree a s

/-- Accesses of a channel that no claim serves: ITCM and DTCM by their ports (R361); unmapped addresses, whose line is zero or dropped
(R257, R304); lines of the register space, of which the spec states no result: a read brings free values and a write has no effect. DEDUCED
and DESIGN CHOICE: log entry 44. -/
def offClaims (n : Nat) (s : State) : State :=
  let s := match nextRead n s with
    | some a =>
      if inSquare a || inBlv a s then s
      else if (tcmOf a).isSome then
        (if masterPort a s then issueRead n a (s.now + 1) (readBytes a 64 s) [] [] (takePort a 1 s) else s)
      else if wordSpace a then (let l := freeLine s
        issueRead n a (s.now + 1) l.1 [] [] l.2)
      else chErr n 2 (issueRead n a (s.now + 1) zeroLine [] [] (frameFail n 0x11 (16 * (chOf n s).reads) (unmapped 0x20 a s)))
    | none => s
  match nextWrite n s with
  | some a =>
    if inSquare a || inBlv a s then s
    else if (tcmOf a).isSome then
      (match (chOf n s).staged with
       | l :: _ => if masterPort a s then unstage n (writeBytes a l.data (takePort a 1 s)) else s
       | [] => s)
    else if wordSpace a then unstage n s
    else issueWrite n a s
  | none => s

/-- Notes the slot since which a channel's next read is pending. -/
def readAge (n : Nat) (s : State) : State :=
  let since := if (nextRead n s).isSome then some ((chOf n s).readSince.getD s.now) else none
  setCh n (fun c => { c with readSince := since }) s

/-- What every slot does to the channels at its start: pacing is judged, records and queue lines are taken. -/
def dmaSlot (s : State) : State :=
  (List.range 32).foldl (fun s n =>
    if (chOf n s).active then readAge n (offClaims n (frameTake n (queueTake n (cqTake n (judgePace n s))))) else s) s

/-- Grants a channel one descriptor or record for a count of its stop, when it asks for one (R298, R315). -/
def dmaGrant (n : Nat) (s : State) : State :=
  let c := chOf n s
  if c.active && !(frameCh c) && get (DMA_CH_PACE.MODE n) s == 1 && !c.granted && canRun n s &&
      (if cqMode n s then c.template.isSome && c.cqSeq.isNone && !s.record.queue.isEmpty else c.fetch.isSome && !c.fetchIssued) then
    setCh n (fun c => { c with granted := true }) (consume n s)
  else s

end Sys2Proof.Machine
end

