-- ==== Sys2Proof/Machine/Erost.lean ====
section
/-! DEFINITION. The Erost link (R464 to R488): ports, election, alignment, timing messages, packets, remote windows. -/

namespace Sys2Proof.Machine

/-! ## Ports and identity -/

/-- The unit's 64-bit unique ID (R16). -/
def ownId (s : State) : Nat := get SYS_UID_LO.ID s + 2 ^ 32 * get SYS_UID_HI.ID s

/-- Whether a port is UP. -/
def portUp (p : Nat) (s : State) : Bool := get (ERL_PORT_STAT.STATE p) s == 2

/-- Whether the unit is in CONFLICT. -/
def inConflict (s : State) : Bool := on ERL_STAT.CONFLICT s

/-- Whether the unit takes part in timing: neither in CONFLICT nor TOO_FAR (R473, R474). -/
def timingOk (s : State) : Bool := !(inConflict s) && get ERL_STAT.ROLE s != 3

/-- Whether the links run in this rung (R511, R513). -/
def linksAwake (s : State) : Bool := get PWR_STAT.RUNG s ≤ 2

/-- Slots in 10 ms. -/
abbrev slots10ms : Nat := 10240000

/-! ## Outgoing reads of DMA channels (R486) -/

/-- A completion reaches its channel: the line enters staging (R285), an error status halts the channel (R304). -/
def finishRead (n : Nat) (data : List Nat) (status : Nat) (s : State) : State :=
  let c := chOf n s
  if !c.active || c.aborting.isSome then setCh n (fun c => { c with inFlight := c.inFlight - 1 }) s
  else
    let s := setCh n (fun c => { c with inFlight := c.inFlight - 1, staged := c.staged ++ [⟨s.now, data⟩] }) s
    let s := if bit status 1 then set (DMA_CH_STAT.FENCED n) 1 s else s
    refreshCh n (if bit status 0 then chErr n 4 s else s)

/-- Every outgoing read of a port that a test accepts completes locally with ERROR. -/
def failReads (p : Nat) (ok : RemoteRead → Bool) (s : State) : State :=
  let due := (erlPort p s).reads.filter ok
  let s := setPort p (fun x => { x with
    reads := x.reads.filter (fun r => !(ok r)), reqs := x.reqs.filter (fun k => !(due.any (fun r => r.tag == k.tag))) }) s
  due.foldl (fun s r => finishRead r.chan zeroLine 1 s) s

/-- A channel with an Erost source asks for its next line (R282, R486); in CONFLICT the line completes with ERROR at once. -/
def requestLine (n : Nat) (s : State) : State :=
  let c := chOf n s
  match c.desc with
  | none => s
  | some d =>
    if d.skind = 2 ∧ c.active = true ∧ c.aborting = none ∧ c.reads < c.total ∧ stagingFree c = true ∧ pacePermits n s = true then
      let tag := (erlPort d.port s).nextTag
      let a := srcAddr c c.reads
      let s := setCh n (fun c => { c with reads := c.reads + 1, inFlight := c.inFlight + 1 }) s
      if inConflict s then finishRead n zeroLine 1 s
      else setPort d.port (fun x => { x with
        nextTag := (tag + 1) % 256, reads := x.reads ++ [⟨tag, n, s.now⟩], reqs := x.reqs ++ [⟨2, 0, a, tag, 0, [], 0⟩] }) s
    else s

/-! ## Sending packets (R468 to R470) -/

/-- Credits of a VC: 16 when the link comes up. -/
def creditsOf (vc : Nat) (x : ErlPort) : Nat := look x.credits vc 16

/-- Quarter slots that a packet takes on the link: 66 bits are 8.25 slots, five flits for a line and one for a request (R464, R468). -/
def packetTime (k : Packet) : Nat := if k.vc = 2 then 33 else 165

/-- Gives a packet its number, charges its credit and keeps it for replay. -/
def sendPacket (k : Packet) (now : Nat) (x : ErlPort) : ErlPort :=
  let n := look x.nextSeq k.vc 0
  { x with nextSeq := put x.nextSeq k.vc ((n + 1) % 4096), credits := put x.credits k.vc (creditsOf k.vc x - 1),
           replay := x.replay ++ [{ k with seq := n }], sentAt := now, txFree := Nat.max (4 * now) x.txFree + packetTime k }

/-- The next packet of a port: the oldest of the transmit queue whose VC has a credit, else the oldest read request with one. -/
def nextPacket (x : ErlPort) : Option (Packet × ErlPort) :=
  match takeFirst (fun (k : Packet) => 0 < creditsOf k.vc x) x.tx with
  | some (k, rest) => some (k, { x with tx := rest })
  | none =>
    match x.reqs with
    | k :: rest => if 0 < creditsOf 2 x then some (k, { x with reqs := rest }) else none
    | [] => none

/-- A port's transmitter in a slot: it sends when the link is free, a credit is there and the replay buffer of 32 has room; in CONFLICT posted
writes are dropped (R474). -/
def transmit (p : Nat) (s : State) : State :=
  let x := erlPort p s
  let x := if inConflict s then { x with tx := x.tx.filter (fun k => k.vc != 1) } else x
  let s := setPort p (fun _ => x) s
  if portUp p s && x.txFree ≤ 4 * s.now + 3 && x.replay.length < 32 then
    match nextPacket x with
    | some (k, y) => setPort p (fun _ => sendPacket k s.now y) s
    | none => s
  else s

/-! ## VC0 messages (R478, R479) -/

/-- A message is queued on a port's lane 0; one that cannot launch within 2 block periods is dropped and counted (R479). -/
def sendVc0 (p : Nat) (m : Timing) (s : State) : State :=
  if !(portUp p s) || !(timingOk s) then s
  else
    let x := erlPort p s
    let l := Nat.max (4 * s.now) x.vc0Free
    if l < 4 * s.now + 66 then
      setPort p (fun x => { x with vc0 := ({ m with lslot := s.now % 256 } :: x.vc0).take 16, vc0Free := l + 33 }) s
    else
      let s := bump (ERL_PORT_CNT.VC0_LOST p) s
      if x.vc0Logged then s else fault 0x0E04 p 0 0 (setPort p (fun x => { x with vc0Logged := true }) s)

/-- Sends a message on both ports. -/
def sendBoth (m : Timing) (s : State) : State := sendVc0 1 m (sendVc0 0 m s)

/-- Forwards a received message out of the other port (R479). DEDUCED: log entry 76. -/
def forward (p kind : Nat) (m : TimingIn) (s : State) : State :=
  sendVc0 (1 - p) ⟨kind, (m.hop + 1) % 8, 0, m.tick, m.frac⟩ s

/-! ## Election (R472 to R474) -/

/-- The beacon a port uses in choosing: the one kept until 30 µs after its arrival, whether or not the port is still UP; one from the downstream
side is ignored (R472). -/
def usedBeacon (p : Nat) (s : State) : Option Beacon :=
  match (erlPort p s).beacon with
  | some (b, _) => if b.upstream != ownId s then some b else none
  | none => none

/-- ALIGNED is left, and logged (R476). -/
def loseAligned (s : State) : State :=
  if on ERL_STAT.ALIGNED s then fault 0x0E05 0 0 0 (set ERL_STAT.ALIGNED 0 { s with erl.good := 0 }) else s

/-- Takes the role that the election gives. -/
def takeRole (role master hops up : Nat) (s : State) : State :=
  let change := s.erl.lastMaster != some master || (role == 2 && s.erl.lastUpstream != some up)
  let known := s.erl.lastMaster.isSome
  let wasFar := get ERL_STAT.ROLE s == 3
  let s := if change && known then loseAligned s else s
  let s := if change then { s with erl.thetas := [], erl.good := 0 } else s
  let s := { s with erl.lastMaster := some master, erl.lastUpstream := if role = 2 then some up else none }
  let s := set ERL_STAT.ROLE role (set ERL_STAT.HOPS hops (set ERL_STAT.UPSTREAM up
    (set ERL_MASTER_LO.ID master (set ERL_MASTER_HI.ID (master / 2 ^ 32) s))))
  let s := if role = 1 then setB ERL_STAT.ALIGNED (!(inConflict s)) s else if role = 3 then loseAligned s else s
  if role = 3 ∧ wasFar = false then fault 0x0E09 0 0 1 s else s

/-- The election (R473), after a beacon received or forgotten and at a restart (R474). Until the first of these the unit has no role. -/
def elect (s : State) : State :=
  let own := ownId s
  let ba := usedBeacon 0 s
  let bb := usedBeacon 1 s
  let m := [ba, bb].foldl (fun m b => match b with | some x => Nat.min m x.master | none => m) own
  if m = own then takeRole 1 own 0 0 s
  else
    let ha := match ba with | some b => if b.master = m then some b.hops else none | none => none
    let hb := match bb with | some b => if b.master = m then some b.hops else none | none => none
    let up := match ha, hb with
      | some x, some y => if y < x then 1 else 0
      | some _, none => 0
      | none, _ => 1
    let h := 1 + (match (if up = 0 then ha else hb) with | some x => x | none => 0)
    if 7 < h then takeRole 3 m 7 up s else takeRole 2 m h up s

/-- The unit enters CONFLICT (R474): latched, logged with the IDs concerned. A master is not ALIGNED in CONFLICT (R476); a slave makes no
exchange there, so its ALIGNED stays as it is. -/
def enterConflict (p id : Nat) (s : State) : State :=
  if inConflict s then s
  else
    let s := fault 0x0E03 p id (id / 2 ^ 32) ((if get ERL_STAT.ROLE s = 1 then set ERL_STAT.ALIGNED 0 else fun t => t) (set ERL_STAT.CONFLICT 1 s))
    failReads 1 (fun _ => true) (failReads 0 (fun _ => true) s)

/-- Whether the beacons of both ports name one master and neither names the unit as upstream (R474). -/
def ringSeen (s : State) : Bool :=
  match (erlPort 0 s).beacon, (erlPort 1 s).beacon with
  | some (a, _), some (b, _) => a.master == b.master && a.upstream != ownId s && b.upstream != ownId s
  | _, _ => false

/-- BEACON_RECEIVE: the beacon is kept, judged for CONFLICT, and the election rerun (R472 to R474). -/
def beaconReceive (p : Nat) (b : BeaconIn) (s : State) : State :=
  if !(portUp p s) then s
  else
    let s := setPort p (fun x => { x with beacon := some (⟨b.id, b.master, b.hops, b.upstream, b.conflict⟩, s.now) }) s
    let s := if b.id = ownId s ∨ b.conflict = true ∨ ringSeen s = true then enterConflict p b.id s else s
    elect s

/-- Meaning of BEACON_RECEIVE. -/
def execBeaconReceive (port : Nat) (b : BeaconIn) (s : State) : Host.Outcome State Fault Refusal := .next (beaconReceive port b s)

/-- BEACON_FORGET: a beacon 30 µs old is forgotten and the election rerun. -/
def beaconForget (p : Nat) (s : State) : State :=
  match (erlPort p s).beacon with
  | some (_, t) => if t + 30720 ≤ s.now then elect (setPort p (fun x => { x with beacon := none }) s) else s
  | none => s

/-- Meaning of BEACON_FORGET. -/
def execBeaconForget (port : Nat) (s : State) : Host.Outcome State Fault Refusal := .next (beaconForget port s)

/-- The beacon the unit sends (R472): a unit with an upstream port, a slave or one that is TOO_FAR, names the neighbour there. -/
def beaconOf (s : State) : Beacon :=
  let m := match s.erl.lastMaster with | some m => m | none => ownId s
  let p := get ERL_STAT.UPSTREAM s
  let up := if 2 ≤ get ERL_STAT.ROLE s
    then (match (erlPort p s).beacon with | some (b, _) => b.id | none => (erlPort p s).partner)
    else ownId s
  ⟨ownId s, m, get ERL_STAT.HOPS s, up, inConflict s⟩

/-- Whether a port's beacon is due: 10 µs, 1 % less at the earliest, after the last. -/
def beaconDue (p : Nat) (s : State) : Bool :=
  portUp p s && (match (erlPort p s).sentBeacon with | some (_, t) => decide (t + 10138 ≤ s.now) | none => true)

/-- A slave's time exchange with its upstream neighbour begins (R475). -/
def sendTreq (s : State) : State :=
  match s.erl.lastUpstream with
  | some p =>
    let t1 : Int := 256 * tick s
    setPort p (fun x => { x with treq := some t1 }) (sendVc0 p ⟨4, 0, 0, toBits 32 t1, 0⟩ s)
  | none => s

/-- BEACON_SEND: every UP port sends its beacon, and a slave a TREQ upstream (R472, R475). -/
def beaconSend (s : State) : State :=
  let due := (List.range 2).filter (fun p => beaconDue p s)
  let s := due.foldl (fun s p => setPort p (fun x => { x with sentBeacon := some (beaconOf s, s.now) }) s) s
  if get ERL_STAT.ROLE s = 2 && (match s.erl.lastUpstream with | some p => due.contains p | none => false) && timingOk s then sendTreq s else s

/-- Meaning of BEACON_SEND. -/
def execBeaconSend (s : State) : Host.Outcome State Fault Refusal := .next (beaconSend s)

/-- CONFLICT clears and the election restarts without the beacons kept (R474). -/
def erostRestart (s : State) : State :=
  elect (set ERL_STAT.CONFLICT 0 (setPort 0 (fun x => { x with beacon := none }) (setPort 1 (fun x => { x with beacon := none }) s)))

/-- Meaning of EROST_RESTART. -/
def execErostRestart (s : State) : Host.Outcome State Fault Refusal := .next (erostRestart s)

/-! ## Training and loss (R465, R466, R487) -/

/-- A port starts training. -/
def startTraining (p : Nat) (s : State) : State :=
  set (ERL_PORT_STAT.STATE p) 1 (setPort p (fun x => { x with trainFrom := s.now, retryAt := none }) s)

/-- A port goes DOWN: its buffers are discarded, its outgoing reads complete with ERROR, and with EN set it retrains after 10 ms (R466, R486,
R487). Accepted posted writes still drain, and the beacon it received is kept until 30 µs after its arrival (R472). -/
def portDown (p cause : Nat) (s : State) : State :=
  let s := set (ERL_PORT_STAT.STATE p) 0 (if cause = 0 then s else set (ERL_PORT_STAT.CAUSE p) cause s)
  let s := failReads p (fun _ => true) s
  let s := setPort p (fun x => { x with
    retryAt := some (s.now + slots10ms), replay := [], waiting := [], held := [], reqs := [], sentBeacon := none,
    vc0 := [], treq := none }) s
  { s with memory.acc := s.memory.acc.filter (fun a => !(a.tag == .remote p && a.kind == .read)),
           memory.flight := s.memory.flight.filter (fun f => f.tag != .remote p) }

/-- An UP port is taken down with an event and a log entry (R466). -/
def linkLost (p cause : Nat) (s : State) : State :=
  if portUp p s then fault 0x0E02 p 0 cause (raise (0x66 + p) (portDown p cause s)) else s

/-- EROST_PORT_ABORT (R487). -/
def portAbort (p : Nat) (s : State) : State := fault 0x0E0A p 0 0 (raise (0x66 + p) (portDown p 5 s))

/-- Meaning of EROST_PORT_ABORT. -/
def execErostPortAbort (port : Nat) (s : State) : Host.Outcome State Fault Refusal := .next (portAbort port s)

/-- A write of ERL_PORT_CTRL: EN starts or stops the port's training, then ABORT (R465, R487). -/
def portCtrlWrite (p v : Nat) (s : State) : State :=
  let was := on (ERL_PORT_CTRL.EN p) s
  let s := set (ERL_PORT_CTRL.EN p) v s
  let s := if bit v 0 && !was && linksAwake s then startTraining p s
    else if !(bit v 0) && was then
      (let up := portUp p s
       let s := setPort p (fun x => { x with retryAt := none }) (portDown p 0 s)
       if up then raise (0x66 + p) s else s)
    else s
  if bit v 1 then portAbort p s else s

/-- Meaning of EROST_PORT_ENABLE: a write of ERL_PORT_CTRL. -/
def execErostPortEnable (port value : Nat) (s : State) : Host.Outcome State Fault Refusal := .next (portCtrlWrite port value s)

/-- EROST_UP: training has measured the one-way delay in 1/64 tick; above 15.0 ns (3,932 of them) it fails with TOO_LONG (R465).
DEDUCED: log entry 74. -/
def erostUp (p partner delay : Nat) (s : State) : State :=
  if get (ERL_PORT_STAT.STATE p) s ≠ 1 then s
  else
    let s := set (ERL_PORT_DELAY.DELAY p) delay s
    if 3932 < delay then
      fault 0x0E0B p 0 0 (set (ERL_PORT_STAT.STATE p) 0 (set (ERL_PORT_STAT.CAUSE p) 2
        (setPort p (fun x => { x with retryAt := some (s.now + slots10ms) }) s)))
    else
      let s := setPort p (fun x => { x with
        partner := partner, trainLogged := false, nextSeq := [], expect := [], credits := [], replay := [], waiting := [], admitted := [],
        vc0Free := 0, txFree := 0 }) s
      raise (0x64 + p) (set (ERL_PORT_STAT.STATE p) 2 s)

/-- Meaning of EROST_UP. -/
def execErostUp (port partner delay : Nat) (s : State) : Host.Outcome State Fault Refusal := .next (erostUp port partner delay s)

/-- TRAINING_TIMEOUT: training not complete within 1 ms (0.1 ms less at the earliest) fails (R465). -/
def trainingTimeout (p : Nat) (s : State) : State :=
  let x := erlPort p s
  if get (ERL_PORT_STAT.STATE p) s = 1 ∧ x.trainFrom + 921600 ≤ s.now then
    let s := set (ERL_PORT_STAT.STATE p) 0 (set (ERL_PORT_STAT.CAUSE p) 1
      (setPort p (fun x => { x with retryAt := some (s.now + slots10ms), trainLogged := true }) s))
    if x.trainLogged then s else fault 0x0E01 p 0 1 s
  else s

/-- Meaning of TRAINING_TIMEOUT. -/
def execTrainingTimeout (port : Nat) (s : State) : Host.Outcome State Fault Refusal := .next (trainingTimeout port s)

/-- EROST_RETRY: a failed or downed port with EN set trains again after 10 ms (1 ms less at the earliest). -/
def erostRetry (p : Nat) (s : State) : State :=
  match (erlPort p s).retryAt with
  | some t => if t ≤ s.now + 1024000 ∧ on (ERL_PORT_CTRL.EN p) s = true ∧ get (ERL_PORT_STAT.STATE p) s = 0 ∧ linksAwake s = true then startTraining p s else s
  | none => s

/-- Meaning of EROST_RETRY. -/
def execErostRetry (port : Nat) (s : State) : Host.Outcome State Fault Refusal := .next (erostRetry port s)

/-- Adds to a saturating counter. -/
def addSat (F : Fld) (n : Nat) (s : State) : State := set F (Nat.min (2 ^ F.width - 1) (get F s + n)) s

/-- CRC_INTERVAL_END: the CRC errors of a 1 ms interval, and how many of them lost a VC0 flit (R466, R467, R479). -/
def crcIntervalEnd (p errors lost : Nat) (s : State) : State :=
  let s := addSat (ERL_PORT_CNT.CRC p) errors s
  let s := if lost = 0 then s
    else
      let s := addSat (ERL_PORT_CNT.VC0_LOST p) lost s
      if (erlPort p s).vc0Logged then s else fault 0x0E04 p 0 0 (setPort p (fun x => { x with vc0Logged := true }) s)
  if 16 < errors then linkLost p 3 s else s

/-- Meaning of CRC_INTERVAL_END. -/
def execCrcIntervalEnd (port errors vc0Lost : Nat) (s : State) : Host.Outcome State Fault Refusal :=
  .next (crcIntervalEnd port errors vc0Lost s)

/-- Meaning of LOCK_LOST. -/
def execLockLost (port : Nat) (s : State) : Host.Outcome State Fault Refusal := .next (linkLost port 4 s)

/-! ## Arm, disarm, fire (R480) -/

/-- The tick that an ARM or DISARM names: the earliest after now with its low 32 bits; further ahead than any LEAD reaches it is a tick
already past (R478, R480; log entry 19). -/
def armTickOf (m : TimingIn) (s : State) : Option Nat :=
  let d := (m.tick + 2 ^ 32 - tick s % 2 ^ 32) % 2 ^ 32
  if d = 0 ∨ 2 ^ 32 - 4096 - 200 * (m.hop + 1) < d then none else some (tick s + d)

/-- An ARM or DISARM is delivered. DEDUCED: log entry 32. -/
def armMessage (p : Nat) (start : Bool) (m : TimingIn) (s : State) : State :=
  if !(portUp p s) || !(timingOk s) then s
  else
    let s := forward p (if start then 1 else 2) m s
    let s := if start then raise 0x68 s else s
    match armTickOf m s with
    | none => fault 0x0E09 0 0 2 s
    | some a =>
      if on ERL_STAT.ALIGNED s && com ERL_NET.ARM_EN s == 1 then { s with erl.armAt := s.erl.armAt ++ [(a, start)] } else s

/-- Meaning of ARM. -/
def execArm (port : Nat) (m : TimingIn) (s : State) : Host.Outcome State Fault Refusal := .next (armMessage port true m s)

/-- Meaning of DISARM. -/
def execDisarm (port : Nat) (m : TimingIn) (s : State) : Host.Outcome State Fault Refusal := .next (armMessage port false m s)

/-- ARM_TICK: START or STOP acts in the slot that contains its tick. -/
def armTick (s : State) : State :=
  match takeFirst (fun (a : Nat × Bool) => a.1 < tick s + 4) s.erl.armAt with
  | some (a, rest) => (if a.2 then engineStart else engineStop) { s with erl.armAt := rest }
  | none => s

/-- Meaning of ARM_TICK. -/
def execArmTick (s : State) : Host.Outcome State Fault Refusal := .next (armTick s)

/-- A master with ARM_EN sends ARM or DISARM and schedules its own action LEAD ticks ahead. -/
def networkArm (start : Bool) (s : State) : State :=
  let a := tick s + 4096 * com ERL_NET.LEAD s
  sendBoth ⟨if start then 1 else 2, 0, 0, a % 2 ^ 32, 0⟩ { s with erl.armAt := s.erl.armAt ++ [(a, start)] }

/-- A START by register or stop: on a master with ARM_EN for the whole network, on a slave with ARM_EN ignored (R480). -/
def localStart (s : State) : State :=
  if com ERL_NET.ARM_EN s = 1 ∧ get ERL_STAT.ROLE s = 1 then networkArm true s
  else if com ERL_NET.ARM_EN s = 1 ∧ get ERL_STAT.ROLE s = 2 then bump ERL_STAT.LOCAL_IGN s
  else engineStart s

/-- A STOP by register or stop. -/
def localStop (s : State) : State :=
  if com ERL_NET.ARM_EN s = 1 ∧ get ERL_STAT.ROLE s = 1 then networkArm false s else engineStop s

/-- Meaning of START. -/
def execStart (s : State) : Host.Outcome State Fault Refusal := .next (localStart s)

/-- Meaning of STOP. -/
def execStop (s : State) : Host.Outcome State Fault Refusal := .next (localStop s)

/-- The time a FIRE names in fraction LSBs of the tick count: the latest tick not after now with its low 32 bits (R478). -/
def fireTime (m : TimingIn) (s : State) : Int :=
  (tick s : Int) * 65536 - ((tick s + 2 ^ 32 - m.tick) % 2 ^ 32 : Nat) * 65536 + m.frac

/-- FIRE is delivered: forwarded, and taken by EROST units while the unit is ALIGNED (R480). -/
def fireMessage (p : Nat) (m : TimingIn) (s : State) : State :=
  if !(portUp p s) || !(timingOk s) then s
  else
    let s := forward p 3 m s
    if on ERL_STAT.ALIGNED s then erostFire p (fireTime m s) s else bump ERL_STAT.NOTIME s

/-- Meaning of FIRE. -/
def execFire (port : Nat) (m : TimingIn) (s : State) : Host.Outcome State Fault Refusal := .next (fireMessage port m s)

/-- An owning fire of a unit in FIRE_TX is sent on both ports with its corrected time (R480). -/
def sendFire (unit : Nat) (t : Int) (s : State) : State :=
  if on ERL_STAT.ALIGNED s && bit (app ERL_NET.FIRE_TX s) unit then
    let r := reportedTime t s
    sendBoth ⟨3, 0, 0, toBits 32 (r / 65536), toBits 16 r⟩ s
  else s

/-! ## Time exchange (R475, R476) -/

/-- TREQ: stamped on arrival and answered by a TRSP, which launches within 2 block periods (66 ticks), how long exactly left open.
DEDUCED: log entry 75. -/
def treqMessage (p : Nat) (m : TimingIn) (s : State) : State :=
  if !(portUp p s) || !(timingOk s) then s
  else
    let f := draw s
    sendVc0 p ⟨5, 0, 0, toBits 32 m.stamp, f.1 % 66⟩ f.2

/-- Meaning of TREQ. -/
def execTreq (port : Nat) (m : TimingIn) (s : State) : Host.Outcome State Fault Refusal := .next (treqMessage port m s)

/-- Whether the reference in use is that of the upstream port (R501). -/
def onUpstream (s : State) : Bool := match s.erl.lastUpstream with | some p => get CLK_STAT.IN_USE s == 2 + p | none => false

/-- An offset (twice θ in 1/256 tick) updates the average, the step and ALIGNED (R476): 2 ps are 4.19 of its units, 20 ps 41.9. -/
def takeTheta (th : Int) (s : State) : State :=
  let l := (th :: s.erl.thetas).take 16
  let avg := roundFree (l.foldl (· + ·) 0) (2 * l.length) { s with erl.thetas := l }
  let s := set ERL_OFFSET.THETA (toBits 32 avg.1) avg.2
  let whole : Int := if th < 0 then -(-th / 512) else th / 512
  let s := if onUpstream s && whole != 0 then fault 0x0E05 0 0 0 { s with clk.step := s.clk.step ++ [(s.now, .add whole false)], erl.thetas := [] } else s
  let s := if th.natAbs ≤ 4 then { s with erl.good := Nat.min 16 (s.erl.good + 1) } else { s with erl.good := 0 }
  if 41 < th.natAbs then loseAligned s
  else if s.erl.good = 16 ∧ onUpstream s = true then set ERL_STAT.ALIGNED 1 s else s

/-- TRSP: with t1 of the last TREQ, t2 and t3 − t2 from the message and t4 its arrival, it yields an offset (R475). -/
def trspMessage (p : Nat) (m : TimingIn) (s : State) : State :=
  match (erlPort p s).treq with
  | some t1 =>
    if portUp p s && timingOk s && s.erl.lastUpstream == some p then
      let t2 := t1 + signed 32 (toBits 32 ((m.tick : Int) - t1))
      let t3 := t2 + 256 * m.frac
      takeTheta ((t2 - t1) - (m.stamp - t3)) (setPort p (fun x => { x with treq := none }) s)
    else s
  | none => s

/-- Meaning of TRSP. -/
def execTrsp (port : Nat) (m : TimingIn) (s : State) : Host.Outcome State Fault Refusal := .next (trspMessage port m s)

/-! ## Receiving packets (R469, R470, R482 to R485) -/

/-- The rate interval of the tick count: 10 µs, 40,960 ticks (R485). -/
def rateIndex (s : State) : Nat := tick s / 40960

/-- The open window of a port that holds a line whole and permits the operation, by number (R483, item 2). -/
def windowFor (p : Nat) (line : Addr) (write : Bool) (s : State) : Option Nat :=
  findIdx? (fun (w : Window) => w.opened && bit w.ports p && bit w.perm (b2n write) && w.base ≤ line && line + 64 ≤ w.base + w.length) s.erl.windows

/-- A refusal is counted and logged once per read of the counter (R483). -/
def remoteRefuse (p : Nat) (s : State) : State :=
  let s := bump (ERL_PORT_CNT.REFUSED p) s
  if (erlPort p s).refusedLogged then s else fault 0x0E07 p 0 0 (setPort p (fun x => { x with refusedLogged := true }) s)

/-- Completion lines reserved: 8 of the transmit queue (R470). -/
def reserved (x : ErlPort) : Nat := x.held.length + (x.tx.filter (fun k => k.vc == 3)).length

/-- One packet of the receive buffer is judged (R483, R485): it is executed, refused, or stays (none). A posted-write line is ready 6 slots after
its receipt, a read request at its acceptance (R484). A write dropped by a region's protection counts there too (R264). -/
def letIn (p : Nat) (k : Packet) (s : State) : Option State :=
  let x := erlPort p s
  let write := k.vc == 1
  if !write && 8 ≤ reserved x then none
  else
    let refuse := fun (s : State) =>
      let s := remoteRefuse p s
      if write then s else setPort p (fun x => { x with tx := x.tx ++ [⟨3, 0, 0, k.tag, 1, zeroLine, 0⟩] }) s
    if !(timingOk s) then some (refuse s)
    else match windowFor p k.addr write s with
      | none => some (refuse s)
      | some w =>
        if write && inSquare k.addr && !(mayWrite (0x2C + p) (k.addr - sqBase) s) then some (refuse (protDrop (0x2C + p) k.addr s))
        else if (match s.erl.windows[w]? with | some v => v.rate | none => 0) ≤ look x.admitted w 0 then none
        else
          let s := setPort p (fun x => { x with admitted := put x.admitted w (look x.admitted w 0 + 1) }) s
          some (if write then addAcc ⟨0x2C + p, k.addr, .write, k.data, allOn, .remote p, Nat.max (k.since + 6) s.now⟩ s
            else addAcc ⟨0x2C + p, k.addr, .read, [], [], .remote p, s.now⟩
              (setPort p (fun x => { x with held := x.held ++ [{ k with vc := 3 }] }) s))

/-- The receive buffer of a port in arrival order; a new interval gives new budgets. -/
def admitAll (p : Nat) (s : State) : State :=
  let s := if (erlPort p s).rateFrom = rateIndex s then s
    else setPort p (fun x => { x with rateFrom := rateIndex s, admitted := [] }) s
  let l := (erlPort p s).waiting
  l.foldl (fun s k => match letIn p k s with
    | some t => t
    | none => setPort p (fun x => { x with waiting := x.waiting ++ [k] }) s) (setPort p (fun x => { x with waiting := [] }) s)

/-- What a slot does to the link: requests that waited for a completion line or a new interval are taken where they now may be, channels ask for
remote lines, and the ports send. -/
def linkSlot (s : State) : State :=
  let s := [0, 1].foldl (fun s p => if (erlPort p s).waiting.isEmpty then s else admitAll p s) s
  let s := (List.range 32).foldl (fun s n => if (chOf n s).active then requestLine n s else s) s
  transmit 1 (transmit 0 s)

/-- Judges a received number (R469): whether the packet is accepted. -/
def receiveSeq (p vc seq : Nat) (s : State) : Bool × State :=
  let e := look (erlPort p s).expect vc 0
  if seq = e then (true, setPort p (fun x => { x with expect := put x.expect vc ((e + 1) % 4096), acks := put x.acks vc seq }) s)
  else if (e + 4096 - seq) % 4096 ≤ 2048 then (false, setPort p (fun x => { x with acks := put x.acks vc seq }) s)
  else (false, setPort p (fun x => { x with naks := put x.naks vc e }) s)

/-- Packets of a VC in a port's receive buffer: those that wait, and those whose access is pending (R470, R484). -/
def rxFill (p vc : Nat) (s : State) : Nat :=
  ((erlPort p s).waiting.filter (fun k => k.vc == vc)).length +
  (s.memory.acc.filter (fun a => a.tag == .remote p && (a.kind == .write) == (vc == 1))).length

/-- A packet of VC1 or VC2 is received. One sent without a credit finds no room and is discarded with a NAK. -/
def receivePacket (p vc : Nat) (k : PacketIn) (s : State) : State :=
  if !(portUp p s) then s
  else if 16 ≤ rxFill p vc s ∧ k.seq = look (erlPort p s).expect vc 0 then setPort p (fun x => { x with naks := put x.naks vc k.seq }) s
  else
    let r := receiveSeq p vc k.seq s
    if r.1 then admitAll p (setPort p (fun x => { x with waiting := x.waiting ++ [⟨vc, k.seq, lineOf k.addr, k.tag, 0, k.data, s.now⟩] }) r.2) else r.2

/-- Meaning of POSTED_WRITE. -/
def execPostedWrite (port : Nat) (p : PacketIn) (s : State) : Host.Outcome State Fault Refusal := .next (receivePacket port 1 p s)

/-- Meaning of READ_REQUEST. -/
def execReadRequest (port : Nat) (p : PacketIn) (s : State) : Host.Outcome State Fault Refusal := .next (receivePacket port 2 p s)

/-- COMPLETION: a line of an outstanding read goes to its channel; one that none awaits is discarded (R486, R487). -/
def completionIn (p : Nat) (k : PacketIn) (s : State) : State :=
  if !(portUp p s) then s
  else
    let r := receiveSeq p 3 k.seq s
    if !r.1 then r.2
    else match takeFirst (fun (x : RemoteRead) => x.tag == k.tag) (erlPort p r.2).reads with
      | some (x, rest) => finishRead x.chan (k.data.take 64) k.status (setPort p (fun y => { y with reads := rest }) r.2)
      | none => r.2

/-- Meaning of COMPLETION. -/
def execCompletion (port : Nat) (p : PacketIn) (s : State) : Host.Outcome State Fault Refusal := .next (completionIn port p s)

/-- LINK_ACK: entries of a VC up to a number leave the replay buffer, and credits return (R469, R470). -/
def linkAck (p vc seq credits : Nat) (s : State) : State :=
  setPort p (fun x => { x with
    replay := x.replay.filter (fun k => !(k.vc == vc && (seq + 4096 - k.seq) % 4096 < 2048)),
    credits := put x.credits vc (Nat.min 16 (creditsOf vc x + credits)) }) s

/-- Meaning of LINK_ACK. -/
def execLinkAck (port vc seq credits : Nat) (s : State) : Host.Outcome State Fault Refusal := .next (linkAck port vc seq credits s)

/-- A replay: the kept packets that a test accepts are sent again. -/
def replayNow (p : Nat) (ok : Packet → Bool) (s : State) : State :=
  let l := (erlPort p s).replay.filter ok
  if l.isEmpty || !(portUp p s) then s
  else
    let time := l.foldl (fun t k => t + packetTime k) 0
    bump (ERL_PORT_CNT.REPLAY p) (setPort p (fun x => { x with sentAt := s.now, txFree := Nat.max (4 * s.now) x.txFree + time }) s)

/-- Meaning of NAK: the packets of the VC from the named number on are replayed. -/
def execNak (port vc seq : Nat) (s : State) : Host.Outcome State Fault Refusal :=
  .next (replayNow port (fun k => k.vc == vc && decide ((k.seq + 4096 - seq) % 4096 < 2048)) s)

/-- Meaning of REPLAY_TIMEOUT: 2 µs without an acknowledge. -/
def execReplayTimeout (port : Nat) (s : State) : Host.Outcome State Fault Refusal :=
  .next (if (erlPort port s).sentAt + 2048 ≤ s.now then replayNow port (fun _ => true) s else s)

/-- REMOTE_READ_TIMEOUT: reads without a completion for 100 µs (1 µs less at the earliest) complete with ERROR (R486). -/
def remoteReadTimeout (p : Nat) (s : State) : State :=
  let due := (erlPort p s).reads.filter (fun r => r.since + 101376 ≤ s.now)
  due.foldl (fun s r => fault 0x0E06 r.chan 0 0 (failReads p (fun x => x.tag == r.tag) s)) s

/-- Meaning of REMOTE_READ_TIMEOUT. -/
def execRemoteReadTimeout (port : Nat) (s : State) : Host.Outcome State Fault Refusal := .next (remoteReadTimeout port s)

/-- Meaning of RATE_INTERVAL: requests held are admitted in arrival order up to the new budgets (R485). -/
def execRateInterval (s : State) : Host.Outcome State Fault Refusal := .next (admitAll 1 (admitAll 0 s))

/-- The export windows are opened at boot: each must lie wholly in the Square or the Boulevard data space (R482). -/
def openExports (l : List Window) (s : State) : State :=
  let ok := fun (w : Window) => 0 < w.length &&
    ((sqBase ≤ w.base && w.base + w.length ≤ sqBase + 0x2000000) || (blvBase ≤ w.base && w.base + w.length ≤ blvBase + blvCapacity s / 8 * 7))
  let s := { s with erl.windows := l.map (fun w => { w with opened := ok w }) }
  let s := set ERL_WIN.OPEN ((s.erl.windows.mapIdx (fun i w => 2 ^ i * b2n w.opened)).foldl (· + ·) 0) s
  (s.erl.windows.mapIdx (fun i w => (i, w.opened))).foldl (fun s w => if w.2 then s else fault 0x0E08 w.1 0 0 s) s

/-- The ports go DOWN without a fault on entry to DOZE or lower (R513). -/
def linksSleep (s : State) : State :=
  (List.range 2).foldl (fun s p => if get (ERL_PORT_STAT.STATE p) s = 0 then s else setPort p (fun x => { x with retryAt := none }) (portDown p 0 s)) s

/-- Enabled ports train again at the exit (R513). -/
def linksWake (s : State) : State :=
  (List.range 2).foldl (fun s p => if on (ERL_PORT_CTRL.EN p) s then startTraining p s else s) s

end Sys2Proof.Machine
end

