-- ==== Sys2Proof/Machine/Crypto.lean ====
section
/-! DEFINITION. The standard algorithms that the spec names: SHA-256 (R82), ECDSA on P-256 (R82), AES-128 in CTR mode (R394). Their
definitions are the standards' own (FIPS 180-4, FIPS 186-4, FIPS 197), which the spec does not restate (PRESUMED, log entry 23). -/

namespace Sys2Proof.Machine

/-! ## SHA-256 -/

/-- The round constants. -/
def shaK : Array Nat := ([0x428a2f98, 0x71374491, 0xb5c0fbcf, 0xe9b5dba5, 0x3956c25b, 0x59f111f1, 0x923f82a4, 0xab1c5ed5] ++
  [0xd807aa98, 0x12835b01, 0x243185be, 0x550c7dc3, 0x72be5d74, 0x80deb1fe, 0x9bdc06a7, 0xc19bf174] ++
  [0xe49b69c1, 0xefbe4786, 0x0fc19dc6, 0x240ca1cc, 0x2de92c6f, 0x4a7484aa, 0x5cb0a9dc, 0x76f988da] ++
  [0x983e5152, 0xa831c66d, 0xb00327c8, 0xbf597fc7, 0xc6e00bf3, 0xd5a79147, 0x06ca6351, 0x14292967] ++
  [0x27b70a85, 0x2e1b2138, 0x4d2c6dfc, 0x53380d13, 0x650a7354, 0x766a0abb, 0x81c2c92e, 0x92722c85] ++
  [0xa2bfe8a1, 0xa81a664b, 0xc24b8b70, 0xc76c51a3, 0xd192e819, 0xd6990624, 0xf40e3585, 0x106aa070] ++
  [0x19a4c116, 0x1e376c08, 0x2748774c, 0x34b0bcb5, 0x391c0cb3, 0x4ed8aa4a, 0x5b9cca4f, 0x682e6ff3] ++
  [0x748f82ee, 0x78a5636f, 0x84c87814, 0x8cc70208, 0x90befffa, 0xa4506ceb, 0xbef9a3f7, 0xc67178f2]).toArray

/-- The initial hash value. -/
def shaH0 : List Nat := [0x6a09e667, 0xbb67ae85, 0x3c6ef372, 0xa54ff53a, 0x510e527f, 0x9b05688c, 0x1f83d9ab, 0x5be0cd19]

/-- 32-bit addition and rotation. -/
def add32 (a b : Nat) : Nat := (a + b) % 2 ^ 32
def rotr (n x : Nat) : Nat := x / 2 ^ n + x % 2 ^ n * 2 ^ (32 - n)

/-- The message schedule from its first 16 words: `n` more words are appended. -/
def shaSchedule : Nat → Array Nat → Array Nat
  | 0, w => w
  | n + 1, w =>
    let g := fun (k : Nat) => w.getD (w.size - k) 0
    let s0 := rotr 7 (g 15) ^^^ rotr 18 (g 15) ^^^ (g 15 / 8)
    let s1 := rotr 17 (g 2) ^^^ rotr 19 (g 2) ^^^ (g 2 / 1024)
    shaSchedule n (w.push ((g 16 + s0 + g 7 + s1) % 2 ^ 32))

/-- One round on the eight working variables. -/
def shaRound (k w : Nat) (v : List Nat) : List Nat :=
  match v with
  | [a, b, c, d, e, f, g, h] =>
    let s1 := rotr 6 e ^^^ rotr 11 e ^^^ rotr 25 e
    let ch := (e &&& f) ^^^ ((e ^^^ 0xFFFFFFFF) &&& g)
    let t1 := (h + s1 + ch + k + w) % 2 ^ 32
    let s0 := rotr 2 a ^^^ rotr 13 a ^^^ rotr 22 a
    let maj := (a &&& b) ^^^ (a &&& c) ^^^ (b &&& c)
    [add32 t1 (add32 s0 maj), a, b, c, add32 d t1, e, f, g]
  | _ => v

/-- A big-endian number of bytes. -/
def ofBe (l : List Nat) : Nat := l.foldl (fun n b => 256 * n + b % 256) 0

/-- The big-endian bytes of a number. -/
def beBytes (n v : Nat) : List Nat := (leBytes n v).reverse

/-- One block of 64 bytes. -/
def shaBlock (h : List Nat) (block : List Nat) : List Nat :=
  let w0 := ((List.range 16).map (fun i => ofBe (slice block (4 * i) 4))).toArray
  let w := shaSchedule 48 w0
  let v := (List.range 64).foldl (fun v i => shaRound (shaK.getD i 0) (w.getD i 0) v) h
  (h.zip v).map (fun p => add32 p.1 p.2)

/-- Blocks of 64 bytes, `n` at most. -/
def shaBlocks : Nat → List Nat → List Nat → List Nat
  | 0, h, _ => h
  | n + 1, h, l => if l.isEmpty then h else shaBlocks n (shaBlock h (l.take 64)) (l.drop 64)

/-- SHA-256 of a list of bytes: 32 bytes. -/
def sha256 (l : List Nat) : List Nat :=
  let pad := (119 - l.length % 64) % 64
  let m := l ++ 0x80 :: List.replicate pad 0 ++ beBytes 8 (8 * l.length)
  (shaBlocks (m.length / 64) shaH0 m).flatMap (beBytes 4)

/-! ## ECDSA on P-256 -/

/-- The prime of the field, the order of the group, the curve's b and the base point. -/
abbrev p256 : Nat := 0xFFFFFFFF00000001000000000000000000000000FFFFFFFFFFFFFFFFFFFFFFFF
abbrev n256 : Nat := 0xFFFFFFFF00000000FFFFFFFFFFFFFFFFBCE6FAADA7179E84F3B9CAC2FC632551
abbrev b256 : Nat := 0x5AC635D8AA3A93E7B3EBBD55769886BC651D06B0CC53B0F63BCE3C3E27D2604B
abbrev gx256 : Nat := 0x6B17D1F2E12C4247F8BCE6E563A440F277037D812DEB33A0F4A13945D898C296
abbrev gy256 : Nat := 0x4FE342E2FE1A7F9B8EE7EB4A7C0F9E162BCE33576B315ECECBB6406837BF51F5

/-- A power modulo `m`, by the low `n` bits of the exponent. -/
def powMod (m : Nat) : Nat → Nat → Nat → Nat
  | 0, _, _ => 1 % m
  | n + 1, b, e => (if bit e 0 then b else 1) * powMod m n (b * b % m) (e / 2) % m

/-- The inverse modulo a prime below 2^256. -/
def invMod (m a : Nat) : Nat := powMod m 256 (a % m) (m - 2)

/-- Difference modulo `m`. -/
def subMod (m a b : Nat) : Nat := (a % m + m - b % m) % m

/-- A point of the curve in Jacobian coordinates; z = 0 is the point at infinity. -/
structure JPoint where
  x : Nat
  y : Nat
  z : Nat
  deriving DecidableEq, Repr

/-- The double of a point. -/
def JPoint.double (q : JPoint) : JPoint :=
  if q.z = 0 ∨ q.y = 0 then ⟨1, 1, 0⟩
  else
    let zz := q.z * q.z % p256
    let m := 3 * subMod p256 q.x zz * ((q.x + zz) % p256) % p256
    let yy := q.y * q.y % p256
    let t := 4 * q.x * yy % p256
    let x := subMod p256 (m * m) (2 * t)
    ⟨x, subMod p256 (m * subMod p256 t x) (8 * (yy * yy % p256)), 2 * q.y * q.z % p256⟩

/-- The sum of two points. -/
def JPoint.add (a b : JPoint) : JPoint :=
  if a.z = 0 then b
  else if b.z = 0 then a
  else
    let za := a.z * a.z % p256
    let zb := b.z * b.z % p256
    let u1 := a.x * zb % p256
    let u2 := b.x * za % p256
    let s1 := a.y * (zb * b.z % p256) % p256
    let s2 := b.y * (za * a.z % p256) % p256
    if u1 = u2 then (if s1 = s2 then a.double else ⟨1, 1, 0⟩)
    else
      let h := subMod p256 u2 u1
      let r := subMod p256 s2 s1
      let hh := h * h % p256
      let hhh := hh * h % p256
      let v := u1 * hh % p256
      let x := subMod p256 (r * r) (hhh + 2 * v)
      ⟨x, subMod p256 (r * subMod p256 v x) (s1 * hhh % p256), a.z * b.z % p256 * h % p256⟩

/-- A multiple of a point, by the low `n` bits of the factor. -/
def JPoint.mul (q : JPoint) : Nat → Nat → JPoint
  | 0, _ => ⟨1, 1, 0⟩
  | n + 1, k =>
    let r := (JPoint.mul q n (k / 2)).double
    if bit k 0 then r.add q else r

/-- Whether coordinates below the prime satisfy the curve's equation. -/
def onCurve (x y : Nat) : Bool :=
  decide (x < p256) && decide (y < p256) && y * y % p256 == (x * x % p256 * x + (p256 - 3) * x + b256) % p256

/-- Steps 3 and 4 of R82 on a hash. -/
def ecdsaOk (x y r s h : Nat) : Bool :=
  onCurve x y && decide (1 ≤ r ∧ r < n256 ∧ 1 ≤ s ∧ s < n256) &&
    (let w := invMod n256 s
     let q := (JPoint.mul ⟨gx256, gy256, 1⟩ 256 (h * w % n256)).add (JPoint.mul ⟨x, y, 1⟩ 256 (r * w % n256))
     q.z != 0 && (q.x * invMod p256 (q.z * q.z % p256) % p256) % n256 == r)

/-! ## AES-128 -/

/-- Multiplication by x in the field of AES. -/
def xtime (b : Nat) : Nat := if b < 128 then 2 * b else (2 * b) ^^^ 0x11B

/-- The product in the field of AES, by the low `n` bits of the second factor. -/
def gmul : Nat → Nat → Nat → Nat
  | 0, _, _ => 0
  | n + 1, a, b => (if bit b 0 then a else 0) ^^^ gmul n (xtime a) (b / 2)

/-- The 254th power, which is the inverse of a non-zero element. -/
def ginv (a : Nat) : Nat :=
  let m := gmul 8
  let a2 := m a a
  let a4 := m a2 a2
  let a8 := m a4 a4
  let a16 := m a8 a8
  let a32 := m a16 a16
  let a64 := m a32 a32
  m (m (m (m (m (m a2 a4) a8) a16) a32) a64) (m a64 a64)

/-- An 8-bit rotation. -/
def rotl8 (n x : Nat) : Nat := x * 2 ^ n % 256 + x / 2 ^ (8 - n)

/-- The substitution of AES. -/
def sbox (a : Nat) : Nat :=
  let i := ginv (a % 256)
  i ^^^ rotl8 1 i ^^^ rotl8 2 i ^^^ rotl8 3 i ^^^ rotl8 4 i ^^^ 0x63

/-- The exclusive or of two lists of bytes. -/
def xorBytes (a b : List Nat) : List Nat := (a.zip b).map (fun p => p.1 ^^^ p.2)

/-- Round keys: the next one from the last and its round constant. -/
def nextKey (rc : Nat) (k : List Nat) : List Nat :=
  let w := fun (i : Nat) => slice k (4 * i) 4
  let t := match w 3 with
    | [a, b, c, d] => [sbox b ^^^ rc, sbox c, sbox d, sbox a]
    | l => l
  let k0 := xorBytes (w 0) t
  let k1 := xorBytes (w 1) k0
  let k2 := xorBytes (w 2) k1
  k0 ++ k1 ++ k2 ++ xorBytes (w 3) k2

/-- SubBytes and ShiftRows of a state in column order. -/
def subShift (s : List Nat) : List Nat := (List.range 16).map (fun i => sbox (nth s ((i + 4 * (i % 4)) % 16) 0))

/-- MixColumns. -/
def mixColumns (s : List Nat) : List Nat :=
  (List.range 16).map (fun i =>
    let c := i / 4 * 4
    let b := fun (k : Nat) => nth s (c + (i + k) % 4) 0
    xtime (b 0) ^^^ (xtime (b 1) ^^^ b 1) ^^^ b 2 ^^^ b 3)

/-- The rounds, `n` left, the last without MixColumns. -/
def aesRounds : Nat → Nat → List Nat → List Nat → List Nat
  | 0, _, _, s => s
  | n + 1, rc, k, s =>
    let k' := nextKey rc k
    let t := subShift s
    aesRounds n (xtime rc) k' (xorBytes (if n = 0 then t else mixColumns t) k')

/-- AES-128 of a block of 16 bytes. -/
def aes128 (key block : List Nat) : List Nat := aesRounds 10 1 key (xorBytes block key)

/-- The counter block of R394. -/
def ctrBlock (tag f : Nat) : List Nat := beBytes 4 tag ++ [0, 0, 0, 0] ++ beBytes 8 (f / 16)

/-- A line at a slot-relative flash offset, decrypted (R394). -/
def ctrLine (key : List Nat) (tag f : Nat) (line : List Nat) : List Nat :=
  (List.range 4).flatMap (fun i => xorBytes (slice line (16 * i) 16) (aes128 key (ctrBlock tag (f + 16 * i))))

end Sys2Proof.Machine
end

