-- ==== Sys2Proof/Machine/ImageFile.lean ====
section
/-! DEFINITION. The Oldaeth container (R70 to R81): the header record, the record sequence and the contents of every section. -/

namespace Sys2Proof.Machine

/-! ## Reading bytes -/

/-- A byte of an image; 0 beyond its end. -/
def imgByte (p : Array Nat) (o : Nat) : Nat := p.getD o 0

/-- `n` bytes of an image from an offset. -/
def imgBytes (p : Array Nat) (o n : Nat) : List Nat := (List.range n).map (fun i => imgByte p (o + i))

/-- A little-endian number of `n` bytes. -/
def imgNum (p : Array Nat) (o n : Nat) : Nat := ofLe (imgBytes p o n)

/-- Whether bytes `o` up to `e` are zero. -/
def imgZero (p : Array Nat) (o e : Nat) : Bool := (imgBytes p o (e - o)).all (fun b => b == 0)

/-! ## The header record (R72, R73) -/

/-- Whether the first case of R73 holds: a constant, the CRC, a reserved byte or a field's range is wrong. -/
def headerBroken (p : Array Nat) : Bool :=
  let u := imgNum p
  u 0 2 != 1 || u 2 2 != 0 || u 4 4 != 248 || u 8 4 != 0x41444C4F || u 0x0C 2 != 1 || u 0x0E 2 != 0x0680 ||
  u 0xF8 4 != crc32c (imgBytes p 0 0xF8) || 1 < u 0x1D 1 || 2 < u 0x1E 1 || u 0x22 1 < 4 || 31 < u 0x22 1 || 3 < u 0x23 1 ||
  1000 < u 0x2C 2 || u 0x1F 1 != 0 || u 0x27 1 != 0 || !(imgZero p 0x2E 0xF8) || !(imgZero p 0xFC 0x100)

/-- The reason for which a header fails, 0 when it passes (R73); the part's stepping is coded as SYS_ID[7:0]. DEDUCED: log entry 62. -/
def headerReason (p : Array Nat) : Nat :=
  if headerBroken p then 1
  else if 16777216 < imgNum p 0x18 4 then 7
  else if SYS_ID.MINOR.reset + 16 * SYS_ID.MAJOR.reset < imgNum p 0x1C 1 then 2
  else 0

/-- The fields of a header. -/
def headerOf (p : Array Nat) : ImageHeader :=
  let u := imgNum p
  { tag := u 0x10 4, seq := u 0x14 4, size := u 0x18 4, autostart := u 0x1D 1, policy := u 0x1E 1, octRead := u 0x20 2, octDummy := u 0x22 1,
    octFreq := u 0x23 1, octWren := u 0x24 1, octCfgCmd := u 0x25 1, octCfgData := u 0x26 1, octCfgAddr := u 0x28 4, octCfgWait := u 0x2C 2,
    start := imgBytes p 0 64 }

/-! ## Sections (R74 to R80) -/

/-- An XIP descriptor of the FIRMWARE section. -/
structure XipDesc where
  flash : Nat
  win : Nat
  length : Nat
  key : Nat
  deriving DecidableEq, Repr

/-- The FIRMWARE section: ENTRY, ITCM and DTCM contents, and the windows in use. -/
structure Firmware where
  entry : Nat
  itcm : List Nat
  dtcm : List Nat
  xip : List XipDesc
  deriving DecidableEq, Repr

/-- A plan of the PLANS section: its bytes, MODE, CONFIG and PRIMARY. -/
structure PlanSec where
  bytes : List Nat
  mode : Nat
  config : Nat
  primary : Bool
  deriving DecidableEq, Repr

/-- What the sections of an image hold, and where the SIGNATURE record starts. -/
structure Sections where
  seen : List Nat := []
  firmware : Firmware := ⟨0, [], [], []⟩
  plans : List PlanSec := []
  defaults : List (Nat × Nat × Nat) := []
  trims : List (Nat × Nat × Nat) := []
  displayRegs : List (Nat × Nat) := []
  initList : List InitEntry := []
  stimulus : List StimTable := []
  exports' : List Window := []
  sigOfs : Nat := 0
  deriving DecidableEq, Repr

/-- The FIRMWARE value at an offset (R74). LENGTH is what the parts take; descriptors at and above XIP_COUNT are not judged. -/
def firmwareSec (p : Array Nat) (v len : Nat) : Option Firmware :=
  let u := fun (o n : Nat) => imgNum p (v + o) n
  let il := u 4 4
  let dl := u 8 4
  let xc := u 0xC 4
  let xip : List XipDesc := (List.range xc).map (fun i => ⟨u (0x10 + 16 * i) 4, u (0x14 + 16 * i) 4, u (0x18 + 16 * i) 4, u (0x1C + 16 * i) 1⟩)
  let bad := fun (i : Nat) (x : XipDesc) => x.flash % 4096 != 0 || x.win % 4096 != 0 || x.length % 4096 != 0 || x.length == 0 ||
    268435456 < x.win + x.length || (3 < x.key && x.key != 0xFF) || u (0x1D + 16 * i) 3 != 0 ||
    ((xip.take i).any (fun y => x.win < y.win + y.length && y.win < x.win + x.length))
  if len < 0x50 || il < 4 || 262144 < il || il % 4 != 0 || 131072 < dl || dl % 4 != 0 || 4 < xc || u 0 4 % 4 != 0 || il ≤ u 0 4 ||
     len != 0x50 + il + dl || (xip.mapIdx bad).any id then none
  else some ⟨u 0 4, imgBytes p (v + 0x50) il, imgBytes p (v + 0x50 + il) dl, xip⟩

/-- The PLANS value (R75). -/
def plansSec (p : Array Nat) (v len : Nat) : Option (List PlanSec) :=
  let u := fun (o n : Nat) => imgNum p (v + o) n
  let n := u 0 1
  let bad := fun (i : Nat) =>
    let d := 0x10 + 16 * i
    u d 4 % 64 != 0 || u d 4 < 0x90 || len < u d 4 + u (d + 4) 4 || 131072 < u (d + 4) 4 || 7 < u (d + 8) 1 || 3 < u (d + 9) 1 ||
    1 < u (d + 10) 1 || !(imgZero p (v + d + 11) (v + d + 16)) ||
    (u (d + 10) 1 == 1 && (List.range i).any (fun j => u (0x10 + 16 * j + 10) 1 == 1 && u (0x10 + 16 * j + 8) 1 == u (d + 8) 1))
  if len < 0x90 || n < 1 || 8 < n || !(imgZero p (v + 1) (v + 0x10)) || !(imgZero p (v + 0x10 + 16 * n) (v + 0x90)) || (List.range n).any bad then none
  else some ((List.range n).map (fun i =>
    let d := 0x10 + 16 * i
    ⟨imgBytes p (v + u d 4) (u (d + 4) 4), u (d + 8) 1, u (d + 9) 1, u (d + 10) 1 == 1⟩))

/-- The DEFAULTS value (R76): address, value and mask of every entry. -/
def defaultsSec (p : Array Nat) (v len : Nat) : Option (List (Nat × Nat × Nat)) :=
  let n := imgNum p v 4
  if len < 4 || 2048 < n || len != 4 + 12 * n then none
  else
    let l := (List.range n).map (fun i => (imgNum p (v + 4 + 12 * i) 4, imgNum p (v + 8 + 12 * i) 4, imgNum p (v + 12 + 12 * i) 4))
    if l.any (fun e => e.1 % 4 != 0 || e.1 < 0x40000000 || 0x40FFFFFC < e.1) then none else some l

/-- The CALIBRATION value (R77): OFFSET, GAIN and SKEW of every sub-converter. -/
def calibrationSec (p : Array Nat) (v len : Nat) : Option (List (Nat × Nat × Nat)) :=
  if len < 0x228 || imgNum p (v + 2) 2 != 68 || !(imgZero p (v + 4) (v + 8)) || (List.range 68).any (fun i => imgNum p (v + 14 + 8 * i) 2 != 0) then none
  else some ((List.range 68).map (fun i => (imgNum p (v + 8 + 8 * i) 2, imgNum p (v + 10 + 8 * i) 2, imgNum p (v + 12 + 8 * i) 2)))

/-- The panel init entries from an offset: `n` are still to come, up to the end `e` of the value (R78). -/
def initSec (p : Array Nat) (e : Nat) : Nat → Nat → Option (List InitEntry)
  | 0, o => if o = e then some [] else none
  | n + 1, o =>
    let k := imgByte p o
    let next := o + (2 + k + 3) / 4 * 4
    if e < o + 2 || k < 1 || 16 < k || e < next || !([0x11, 0x29, 0x34, 0x35].contains (imgByte p (o + 2))) || !(imgZero p (o + 2 + k) next) then none
    else (initSec p e n next).map (fun l => ⟨imgByte p (o + 1), imgBytes p (o + 2) k⟩ :: l)

/-- The DISPLAY_TIMING value (R78). -/
def displaySec (p : Array Nat) (v len : Nat) : Option (List (Nat × Nat) × List InitEntry) :=
  let nr := imgNum p v 2
  let regs := (List.range nr).map (fun i => (imgNum p (v + 4 + 8 * i) 4, imgNum p (v + 8 + 8 * i) 4))
  if len < 4 + 8 * nr || regs.any (fun r => r.1 % 4 != 0 || r.1 < 0x40900000 || 0x4090FFFC < r.1) then none
  else (initSec p (v + len) (imgNum p (v + 2) 2) (v + 4 + 8 * nr)).map (fun l => (regs, l))

/-- The stimulus tables from an offset: `n` are still to come (R79). -/
def tablesSec (p : Array Nat) (e : Nat) : Nat → Nat → Option (List StimTable)
  | 0, o => if o = e then some [] else none
  | n + 1, o =>
    let k := imgNum p (o + 2) 4
    if e < o + 6 || 2 < imgByte p (o + 1) || e < o + 6 + k then none
    else (tablesSec p e n (o + 6 + k)).map (fun l => ⟨imgByte p o, imgByte p (o + 1), imgBytes p (o + 6) k⟩ :: l)

/-- The STIMULUS value (R79): 16 tables and 64 KiB at most. -/
def stimulusSec (p : Array Nat) (v len : Nat) : Option (List StimTable) :=
  if len < 1 || 16 < imgByte p v then none
  else match tablesSec p (v + len) (imgByte p v) (v + 1) with
    | some l => if 65536 < (l.map (·.data.length)).foldl (· + ·) 0 then none else some l
    | none => none

/-- The EXPORT_WINDOWS value (R80). -/
def exportSec (p : Array Nat) (v len : Nat) : Option (List Window) :=
  let n := imgByte p v
  let u := fun (i o k : Nat) => imgNum p (v + 8 + 24 * i + o) k
  let bad := fun (i : Nat) => u i 0 8 % 4096 != 0 || 2 ^ 40 ≤ u i 0 8 || u i 8 4 % 4096 != 0 || 3 < u i 12 1 || 3 < u i 13 1 ||
    u i 14 2 < 1 || 1024 < u i 14 2 || u i 16 8 != 0
  if len < 8 || 8 < n || len != 8 + 24 * n || !(imgZero p (v + 1) (v + 8)) || (List.range n).any bad then none
  else some ((List.range n).map (fun i => ⟨u i 0 8, u i 8 4, u i 12 1, u i 13 1, u i 14 2, false⟩))

/-- One section's value joined to what came before; none where its content is wrong, reason 0x04. -/
def takeSection (p : Array Nat) (type v len : Nat) (x : Sections) : Option Sections :=
  let y := { x with seen := type :: x.seen }
  match type with
  | 2 => (firmwareSec p v len).map (fun f => { y with firmware := f })
  | 3 => (plansSec p v len).map (fun l => { y with plans := l })
  | 4 => (defaultsSec p v len).map (fun l => { y with defaults := l })
  | 5 => (calibrationSec p v len).map (fun l => { y with trims := l })
  | 6 => (displaySec p v len).map (fun d => { y with displayRegs := d.1, initList := d.2 })
  | 7 => (stimulusSec p v len).map (fun l => { y with stimulus := l })
  | 8 => (exportSec p v len).map (fun l => { y with exports' := l })
  | _ => some x

/-- The records from an offset to the SIGNATURE, which ends exactly at the image's end (R70, R71). `fuel` bounds the number of records. A reason
answers for a failure. -/
def walkRecords (p : Array Nat) (size : Nat) : Nat → Nat → Sections → Except Nat Sections
  | 0, _, _ => .error 3
  | fuel + 1, o, x =>
    let type := imgNum p o 2
    let len := imgNum p (o + 4) 4
    let e := (o + 8 + len + 63) / 64 * 64
    if size < o + 8 || size < e || imgNum p (o + 2) 2 != 0 || !(imgZero p (o + 8 + len) e) then .error 3
    else if type = 0xFF then
      if e ≠ size then .error 3
      else if len ≠ 128 then .error 4
      else if !(x.seen.contains 2) || !(x.seen.contains 3) then .error 3
      else if x.firmware.xip.any (fun d => o < d.flash + d.length) then .error 4
      else .ok { x with sigOfs := o }
    else if 0x8000 ≤ type then walkRecords p size fuel e x
    else if type < 2 || 8 < type || x.seen.contains type then .error 3
    else match takeSection p type (o + 8) len x with
      | some y => walkRecords p size fuel e y
      | none => .error 4

/-- The sections of an image of a size, after its header of 256 bytes. -/
def parseImage (p : Array Nat) (size : Nat) : Except Nat Sections := walkRecords p size (size / 64 + 1) 256 {}

/-! ## Authentication (R82) -/

/-- The reason for which authentication fails, 0 when it passes: 5 for the key's digest, 6 for the signature. -/
def authReason (p : Array Nat) (sig : Nat) (keyHash : List Nat) : Nat :=
  let key := imgBytes p (sig + 8) 64
  let num := fun (o : Nat) => ofBe (imgBytes p (sig + 8 + o) 32)
  if sha256 key ≠ keyHash then 5
  else if ecdsaOk (num 0) (num 32) (num 64) (num 96) (ofBe (sha256 (imgBytes p 0 sig))) then 0
  else 6

end Sys2Proof.Machine
end

