-- ==== Sys2Proof/Machine/SeqBuffer.lean ====
section
/-! DEFINITION. The sequencer's side of the memories: the store buffer (R363), the group buffer (R368), and how outstanding loads gather their
lines (R357). The plan's slots call it. -/

namespace Sys2Proof.Machine

/-- The ranges of R255 as the core sees them. -/
inductive SeqRegion where
  | itcm | dtcm | xip | reg | square | aper | none
  deriving DecidableEq, Repr

/-- The range of a 32-bit address (R255). -/
def seqRegion (a : Nat) : SeqRegion :=
  if a < 0x40000 then .itcm
  else if 0x100000 ≤ a ∧ a < 0x120000 then .dtcm
  else if 0x10000000 ≤ a ∧ a < 0x20000000 then .xip
  else if 0x40000000 ≤ a ∧ a < 0x41000000 then .reg
  else if 0x60000000 ≤ a ∧ a < 0x62000000 then .square
  else if 0x70000000 ≤ a ∧ a < 0x80000000 then .aper
  else .none

/-- Whether an address lies in ITCM or DTCM. -/
def inTcm (a : Nat) : Bool := seqRegion a == .itcm || seqRegion a == .dtcm

/-- The owner code of the core (R23). -/
abbrev seqOwner : Owner := 0x24

/-- The lines that the bytes from an address touch: one, or two for a crossing access (R367). -/
def linesOf (a n : Nat) : List Addr :=
  if lineOf a = lineOf (a + n - 1) then [lineOf a] else [lineOf a, lineOf a + 64]

/-- The bytes of the range `a .. a + n - 1` that lie in a line: their places in the line. -/
def partIn (a n : Nat) (line : Addr) : List Bool := (List.range 64).map (fun i => a ≤ line + i && line + i < a + n)

/-- The 64 bytes of a line in which the little-endian bytes of a store stand at their places. -/
def storeLine (a n v : Nat) (line : Addr) : List Nat :=
  (List.range 64).map (fun i => if a ≤ line + i then (if line + i < a + n then bits v (8 * (line + i - a)) 8 else 0) else 0)

/-! ## ITCM and DTCM words (R331, R361) -/

/-- A 32-bit word of ITCM or DTCM as its check bits deliver it, and whether it is uncorrectable. DEDUCED: log entry 59. -/
def tcmWord (a : Addr) (s : State) : Nat × Bool :=
  match upsetOf (a / 4 * 4) s with
  | some (true, raw) => (ofLe (raw.take 4), true)
  | _ => (ofLe (readBytes (a / 4 * 4) 4 s), false)

/-- A write of bytes within one word of ITCM or DTCM: it ends a correctable error, and an uncorrectable one when it writes the whole word. -/
def tcmWrite (a : Addr) (b : List Nat) (s : State) : State :=
  let o := a % 4
  upsetWrite (a / 4 * 4) ((List.range 4).map (fun i => if o ≤ i && i < o + b.length then some (nth b (i - o) 0) else none)) (writeBytes a b s)

/-- A write of bytes that may touch two words. -/
def tcmStore (a : Addr) (b : List Nat) (s : State) : State :=
  let n := 4 - a % 4
  let s := tcmWrite a (b.take n) s
  if b.length ≤ n then s else tcmWrite (a + n) (b.drop n) s

/-! ## The store buffer (R363) -/

/-- A store to the Square that is the head of the buffer becomes a pending access, from the slot after it reached the head. -/
def submitHead (s : State) : State :=
  match s.seq.buffer with
  | e :: _ =>
    if inSquare e.addr then
      (linesOf e.addr e.size).foldl (fun s l =>
        addAcc ⟨seqOwner, l, .masked, storeLine e.addr e.size e.data l, partIn e.addr e.size l, .store, e.head + 1⟩ s) s
    else s
  | [] => s

/-- The head store has taken effect: the next one becomes the head. -/
def popStore (s : State) : State :=
  match s.seq.buffer with
  | [] => s
  | _ :: [] => { s with seq.buffer := [] }
  | _ :: e :: rest => submitHead { s with seq.buffer := { e with head := Nat.max e.head s.now } :: rest }

/-- A store enters the buffer in MEM, three cycles after its issue (R363). -/
def pushStore (raw : Nat) (a : Addr) (n v : Nat) (s : State) : State :=
  let e : StoreEntry := ⟨raw, a, n, v, 2 * (s.now / 2 + 3)⟩
  let s' := { s with seq.buffer := s.seq.buffer ++ [e] }
  if s.seq.buffer.isEmpty then submitHead s' else s'

/-- A store is refused: one waits to be reported, a further one is lost (R347). -/
def refuseStore (raw : Nat) (prot : Bool) (s : State) : State :=
  if s.seq.storeErr.isSome then { s with seq.sys.multi := true } else { s with seq.storeErr := some (raw, prot) }

/-- A Square claim has served a part of the head store: it is popped with its last part. -/
def storeServed (ok : Bool) (s : State) : State :=
  let s := match s.seq.buffer with
    | e :: _ => if ok then s else refuseStore e.raw true s
    | [] => s
  if s.memory.acc.any (fun a => a.tag == .store) then s else popStore s

/-! ## The group buffer (R368) -/

/-- Whether the resident group holds a Boulevard line. -/
def groupHolds (line : Addr) (s : State) : Bool :=
  match s.seq.group with
  | some b => b.ch == blvCh line && b.group == blvGroup line && decide (b.from_ ≤ s.now)
  | none => false

/-- The write-back of a dirty group is asked for: its 8 lines become pending writes. -/
def askClean (s : State) : State :=
  match s.seq.group with
  | some b =>
    if b.dirty && !b.flushing then
      (List.range 8).foldl (fun s i =>
        addAcc ⟨seqOwner, blvAddr b.ch (b.group * 512 + 64 * i), .write, nth b.data i [], allOn, .group, s.now + 1⟩ s)
        { s with seq.group := some { b with flushing := true } }
    else s
  | none => s

/-- Whether the group buffer is clean. -/
def groupClean (s : State) : Bool := match s.seq.group with | some b => !b.dirty | none => true

/-- A check-write run has written the group's check bytes: with all lines written the group is clean. -/
def groupEcw (ch : Nat) (s : State) : State :=
  match s.seq.group with
  | some b =>
    if b.ch = ch ∧ b.flushing = true ∧ ¬ s.memory.acc.any (fun a => a.tag == .group && a.kind == .write) then
      { s with seq.group := some { b with dirty := false, flushing := false } }
    else s
  | none => s

/-- The eight lines of the wanted group have come: it is resident from the next slot. -/
def groupFill (s : State) : State :=
  match s.seq.groupWant with
  | none => s
  | some (ch, g) =>
    let mine := fun (f : Flight) => f.tag == .group && decide (f.due ≤ s.now)
    let lines := (List.range 8).map (fun i => s.memory.flight.find? (fun f => mine f && f.addr == blvAddr ch (g * 512 + 64 * i)))
    if lines.all (·.isSome) then
      let got := lines.filterMap id
      { s with
        seq.groupWant := none
        seq.group := some { ch := ch, group := g, data := got.map (·.data), dirty := false, flushing := false, from_ := s.now + 1,
                            bad := (List.range 8).filter (fun i => ((got[i]?).map (·.bad)).getD false),
                            fenced := (List.range 8).filter (fun i => ((got[i]?).map (·.fenced)).getD false) }
        memory.flight := s.memory.flight.filter (fun f => !(f.tag == .group)) }
    else s

/-- The Boulevard line that the outstanding load, or else the head store, needs and that is not resident. -/
def groupNeed (s : State) : Option Addr :=
  let fromLoad := match s.seq.load with
    | some l => (l.lines.find? (fun x => x.2.isNone && decide (blvBase ≤ x.1))).map (·.1)
    | none => none
  match fromLoad with
  | some a => if groupHolds a s then none else some a
  | none =>
    match s.seq.buffer with
    | e :: _ => if blvBase ≤ e.addr ∧ inBlv e.addr s = true ∧ e.head ≤ s.now then (linesOf e.addr e.size).find? (fun l => !(groupHolds l s)) else none
    | [] => none

/-- A missing group is fetched: a dirty resident one is written back first. -/
def groupAsk (s : State) : State :=
  match groupNeed s with
  | none => s
  | some a =>
    if s.seq.groupWant.isSome || (match s.seq.group with | some b => decide (s.now < b.from_) | none => false) then s
    else if !(groupClean s) then askClean s
    else
      (List.range 8).foldl (fun s i =>
        addAcc ⟨seqOwner, blvAddr (blvCh a) (blvGroup a * 512 + 64 * i), .read, [], [], .group, s.now + 1⟩ s)
        { s with seq.group := none, seq.groupWant := some (blvCh a, blvGroup a) }

/-! ## Outstanding loads (R357) -/

/-- A line of the outstanding load has come. -/
def loadLine (line : Addr) (data : List Nat) (bad fenced : Bool) (s : State) : State :=
  match s.seq.load with
  | none => s
  | some l =>
    if l.lines.any (fun x => x.1 == line && x.2.isNone) then
      { s with seq.load := some { l with lines := l.lines.map (fun x => if x.1 == line then (x.1, some data) else x),
                                         bad := l.bad || bad, fenced := l.fenced || fenced } }
    else s

/-- The load takes the lines that the resident group holds. -/
def loadFromGroup (s : State) : State :=
  match s.seq.load, s.seq.group with
  | some l, some b =>
    ((l.lines.filter (fun x => x.2.isNone && decide (blvBase ≤ x.1) && groupHolds x.1 s)).map (·.1)).foldl (fun s a =>
      let i := blvOfs a / 64 % 8
      loadLine a (nth b.data i []) (b.bad.contains i) (b.fenced.contains i) s) s
  | _, _ => s

/-- What the core's memory side does in every slot. -/
def seqAdvance (s : State) : State := groupAsk (loadFromGroup (groupFill s))

end Sys2Proof.Machine
end

