-- ==== Sys2Proof/Machine/Claims.lean ====
section
/-! DEFINITION. The Square claims of a slot (R20, R28, R43, R259, R276, R283): each client's access, the Alley's turns, and MARGIN_STOP (R42
to R44). -/

namespace Sys2Proof.Machine

/-! ## MARGIN_STOP (R42 to R44) -/

/-- MARGIN_STOP is entered with a cause bit, or the cause is added; records in flight carry MSTOP (R43, R201). -/
def enterMargin (cause : Nat) (s : State) : State :=
  let was := on SQ_PLAN_STAT.MARGIN_STOP s
  let s := set SQ_PLAN_STAT.MSTOP_CAUSE (get SQ_PLAN_STAT.MSTOP_CAUSE s ||| 2 ^ cause) (set SQ_PLAN_STAT.MARGIN_STOP 1 s)
  if was then s
  else raise 0x26 (flagRecs 10 (fun r => r.phase != .armed) s)

/-- A cause of MARGIN_STOP clears. -/
def clearCause (cause : Nat) (s : State) : State :=
  let c := get SQ_PLAN_STAT.MSTOP_CAUSE s
  if bit c cause then set SQ_PLAN_STAT.MSTOP_CAUSE (c - 2 ^ cause) s else s

/-- MARGIN_STOP_LEAVE: with no cause left, the device leaves MARGIN_STOP (R44). -/
def marginLeave (s : State) : State :=
  if on SQ_PLAN_STAT.MARGIN_STOP s && get SQ_PLAN_STAT.MSTOP_CAUSE s == 0 then fault 0x0113 0 0 0 (set SQ_PLAN_STAT.MARGIN_STOP 0 s) else s

/-- Meaning of MARGIN_STOP_LEAVE. -/
def execMarginStopLeave (s : State) : Host.Outcome State Fault Refusal := .next (marginLeave s)

/-! ## Reads and writes of clients -/

/-- Whether the fences of R209 hold for a client: a DMA channel, the sequencer or an Erost port. -/
def fencedReader (o : Owner) : Bool := o == 0x20 || o == 0x24 || o == 0x2C || o == 0x2D

/-- A client's read of a Square line: error correction, then the fences (R209, R262, R279). Data, the numbers of uncorrectable words, the
places of fenced bytes. -/
def clientRead (owner : Owner) (line : Addr) (s : State) : List Nat × List Nat × List Nat × State :=
  let r := eccRead owner line s
  let f := if fencedReader owner then fencePlaces line s else []
  (maskPlaces r.1 f, r.2.1, f, r.2.2)

/-- A pending write is served. A unit's line takes what the unit adds as it is written back (R231, R239); a unit whose record is gone writes
nothing. -/
def serveWrite (a : Acc) (s : State) : State :=
  match a.tag with
  | .au n =>
    match auPoints n a.addr a.data s with
    | none => s
    | some (data, k) =>
      let r := lineWrite a.owner a.addr data a.enables s
      auWritten n a.addr (r.1 == .ok) (auSaturated n k r.2)
  | .per => perWritten (lineWrite a.owner a.addr (perLine a.addr a.data s) a.enables s).2
  | .store => (let r := lineWrite a.owner a.addr a.data a.enables s
    storeServed (r.1 == .ok) r.2)
  | _ => (lineWrite a.owner a.addr a.data a.enables s).2

/-- A pending access is served by a Square claim: a write takes effect, a read sends its data on its way (R32, unit 0x07). -/
def serveAcc (a : Acc) (s : State) : State :=
  if a.kind == .read then
    let r := clientRead a.owner a.addr s
    addFlight ⟨s.now + 3, a.owner, a.addr, a.tag, r.1, !r.2.1.isEmpty, !r.2.2.1.isEmpty⟩ r.2.2.2
  else serveWrite a s

/-- Whether an access is an accumulation or persistence line that its unit writes back: its write claim is the one 8 slots after the read claim
(R32, units 0x09 and 0x0A; R33). -/
def paired (a : Acc) : Bool :=
  a.kind != .read && (match a.tag with
    | .au _ => true
    | .per => true
    | _ => false)

/-- Whether the unit of a line is late in this slot, so that the line is not there (R54, kind 3). -/
def lateLine (a : Acc) (s : State) : Bool :=
  match a.tag with
  | .au n => isLate 0x09 n s
  | .per => isLate 0x0A 0 s
  | .remote p => isLate 0x11 p s
  | _ => false

/-- A Square claim of a client whose accesses wait in the list of R259: a paired line of this slot goes before the others. -/
def claimList (c : Claim) (s : State) : State :=
  let sees := claimSees c.owner c.bank c.op s.now
  let found := match takeFirst (fun a => sees a && paired a && !(lateLine a s)) s.memory.acc with
    | some r => some r
    | none => takeFirst (fun a => sees a && !(paired a) && !(lateLine a s)) s.memory.acc
  match found with
  | none => s
  | some (a, rest) => if claimTakes c.op a then serveAcc a { s with memory.acc := rest } else s

/-- A paired line whose write claim has passed without taking it is lost to memory; its unit goes on. -/
def lineLost (a : Acc) (s : State) : State :=
  match a.tag with
  | .au n => auWritten n a.addr false s
  | .per => perWritten s
  | _ => s

/-- Paired lines whose write claim has passed without taking them are lost to memory. -/
def dropPaired (s : State) : State :=
  let gone := s.memory.acc.filter (fun a => paired a && decide (a.ready < s.now))
  if gone.isEmpty then s
  else gone.foldl (fun s a => lineLost a s) { s with memory.acc := s.memory.acc.filter (fun a => !(paired a && decide (a.ready < s.now))) }

/-! ## The boot engine (R69, R576) -/

/-- A claim of the boot engine reads the next line of the download area, in address order, when it lies in the claim's bank. The header record's
four lines come first; a header that passes says how many lines the image has. DEDUCED: log entry 119. -/
def claimBoot (c : Claim) (s : State) : State :=
  let n := s.boot.lines.length
  let a := sqBase + 64 * n
  if n < s.boot.want ∧ bankOf a = c.bank then
    let r := eccRead ownerBoot a s
    let s := { r.2.2 with boot.lines := r.1 :: s.boot.lines }
    if n = 3 then
      let p := s.boot.lines.reverse.flatten.toArray
      if headerReason p = 0 then { s with boot.want := Nat.max 4 (ceilDiv (imgNum p 0x18 4) 64) } else s
    else s
  else s

/-! ## Ingest streams (R37, R54, R259) -/

/-- The lines that an entry of a stream may move: all of them while the stream issues, else those left of captures that have ended (R37).
DEDUCED: log entry 106. -/
def issuable (t : Stream) : List StreamLine :=
  if t.issuing then t.lines else t.lines.filter (fun l => match t.drain with | some b => l.beat ≤ b | none => false)

/-- Takes a line out of a stream's buffer. -/
def takeStreamLine (i : Nat) (l : StreamLine) (s : State) : State := setStream i (fun t => { t with lines := t.lines.erase l }) s

/-- An ingest write claim (R37, R54, R259): the oldest line of the bank, which a write claim takes only whole. It is a breach when it passes
while lines wait, or while the stream issues. -/
def claimIngest (i : Nat) (c : Claim) (s : State) : State :=
  let t := nth s.record.streams i {}
  let l := issuable t
  match l.find? (fun l => inSquare l.addr && bankOf l.addr == c.bank) with
  | some x =>
    if c.op == 2 || (c.op == 1 && x.enables.all id) then (lineWrite (i + 1) x.addr x.data x.enables (takeStreamLine i x s)).2
    else breach 1 (i + 1) s
  | none => if t.issuing || !l.isEmpty then breach 1 (i + 1) s else s

/-! ## The record-header writer (R195) -/

/-- The header block that a claim on a bank may write: the record of lowest place in the list, and bit 0 header or 1 measurement block. -/
def headerBlock (bank : Nat) (s : State) : Option (Rec × Nat) :=
  (s.record.recs.filterMap (fun r =>
    if r.phase != .numbered then none
    else if bit r.hdr 0 && bankOf r.hdrAddr == bank then some (r, 0)
    else if bit r.hdr 1 && bankOf (r.hdrAddr + 64) == bank then some (r, 1)
    else none)).head?

/-- A claim of the record-header writer moves one of the two blocks; with the second the record leaves the header FIFO. -/
def claimHeader (c : Claim) (s : State) : State :=
  if c.op = 0 then s
  else match headerBlock c.bank s with
    | none => s
    | some (r, k) =>
      let data := if k = 0 then headerBytes { r with flags := r.flags ||| windowFlags r s } s else measureBytes r
      let s := (lineWrite 0x1C (r.hdrAddr + 64 * k) data allOn s).2
      { s with record.recs := s.record.recs.map (fun x => if x.id == r.id then
          let h := x.hdr - 2 ^ k
          { x with hdr := h, queued := x.queued && h != 0 } else x) }

/-! ## The Roundabout (R283, R284) -/

/-- A Roundabout claim serves the channel chosen for it (R283). A write whose staged line is missing writes nothing and is breach kind 1
(R54, R284). -/
def claimDma (c : Claim) (n : Nat) (missing : Bool) (s : State) : State :=
  match nextAccess (c.op != 0) n s with
  | none => s
  | some a =>
    if c.op != 0 then (if missing then breach 1 0x20 s else if isLate 0x0F n s then s else issueWrite n a s)
    else
      let r := clientRead 0x20 a s
      issueRead n a (s.now + 3) r.1 r.2.1 r.2.2.1 r.2.2.2

/-! ## The Alley (R45, R202, R276, R277) -/

/-- The address of the error log's next entry (R531). -/
def logAddr (s : State) : Addr := sqBase + 0x1880000 + 32 * get LOG_IDX.WR s

/-- The scrub of a bank's next line (R277): correctable words are counted, and corrected unless the line holds an uncorrectable one, which is
never rewritten (R279). -/
def scrubBank (bank : Nat) (s : State) : State :=
  let row := look s.memory.scrubRow bank 0
  let line := sqBase + row * 4096 + bank * 64
  let s := { s with memory.scrubRow := put s.memory.scrubRow bank ((row + 1) % 8192) }
  let ws := lineUpsets line s
  let s := eccCount 0x30 line (ws.map (fun w => (w.1, w.2.1))) s
  if ws.any (fun w => w.2.1) then s else ws.foldl (fun s w => clearUpset (line + 8 * w.1) s) s

/-- The rewrite of FLAGS and CRC of a header that a later error or mark calls for (R201, R202), when its line lies in the bank, the entry still
holds the record, and no word of the line is uncorrectable (R279). -/
def fixHeader (bank : Nat) (s : State) : Option State :=
  match takeFirst (fun q => bankOf q.2.1 == bank) s.memory.hdrFix with
  | none => none
  | some ((q, a, fl), rest) =>
    let b := readBytes a 60 s
    let s := { s with memory.hdrFix := rest }
    if ofLe (slice b 0 4) = q ∧ ¬ (lineUpsets a s).any (fun w => w.2.1) then
      let b' := slice b 0 8 ++ leBytes 4 (ofLe (slice b 8 4) ||| fl) ++ slice b 12 48
      some (engineWrite a (b' ++ leBytes 4 (crc32c b')) s)
    else some s

/-- Turn 6: the error log before the calibration log; none when neither has work in the bank (R276, R530). -/
def logWork (bank : Nat) (s : State) : Option State :=
  if !s.log.hold.isEmpty && bankOf (logAddr s) == bank then some { s with memory.logTurn := some s.now }
  else match takeFirst (fun (c : Nat × List Nat) => bankOf (sqBase + 0x1882000 + 64 * c.1) == bank) s.memory.calLog with
    | some (c, rest) => some (engineWrite (sqBase + 0x1882000 + 64 * c.1) c.2 { s with memory.calLog := rest })
    | none => none

/-- Turn 7: one line of a ledger write (R92, R276). -/
def ledgerWork (s : State) : Option State :=
  match s.boot.write with
  | some w => if w.lines.isEmpty then none else some (ledgerCarry w s)
  | none => none

/-- An Alley claim serves its turn, or scrubs (R276). -/
def claimAlley (c : Claim) (s : State) : State :=
  let n := look s.memory.turn c.bank 0
  let s := { s with memory.turn := put s.memory.turn c.bank (n + 1) }
  let work := match n % 8 with
    | 6 => logWork c.bank s
    | 7 => ledgerWork s
    | _ => fixHeader c.bank s
  work.getD (scrubBank c.bank s)

/-! ## Claims (R20, R52) -/

/-- One claim of the slot; `choice` is the channel that a Roundabout claim serves, `missing` whether its staged line is missing. -/
def runClaim (c : Claim) (choice : Option Nat) (missing : Bool) (s : State) : State :=
  if 1 ≤ c.owner ∧ c.owner ≤ 8 then claimIngest (c.owner - 1) c s
  else if c.owner = 0x1C then claimHeader c s
  else if c.owner = 0x20 then (match choice with | some n => claimDma c n missing s | none => s)
  else if c.owner = 0x30 then claimAlley c s
  else if c.owner = ownerBoot then claimBoot c s
  else claimList c s

/-- The order in which the model takes the claims of a slot, which has no effect (R28): by owner, bank and OP. -/
def claimBefore (a b : Nat × Claim) : Bool :=
  a.2.owner < b.2.owner || (a.2.owner == b.2.owner && (a.2.bank < b.2.bank || (a.2.bank == b.2.bank && a.2.op ≤ b.2.op)))

/-- Puts a claim in that order among others. -/
def insertClaim (c : Nat × Claim) : List (Nat × Claim) → List (Nat × Claim)
  | [] => [c]
  | x :: xs => if claimBefore c x then c :: x :: xs else x :: insertClaim c xs

/-- The claims of a slot with their places (R20, R28). The channels of the Roundabout's claims are chosen on the state before any of them
(R283). -/
def runClaims (claims : List (Nat × Claim)) (missing : List Nat) (s : State) : State :=
  let l := (claims.filter (fun c => c.2.owner != 0)).foldr insertClaim []
  let picks := l.map (fun c => (c, if c.2.owner = 0x20 then claimChoice c.2 s else none))
  picks.foldl (fun s p => runClaim p.1.2 p.2 (missing.contains p.1.1) s) s

end Sys2Proof.Machine
end

