-- ==== Sys2Proof/Machine/Boulevard.lean ====
section
/-! DEFINITION. The Boulevard's command entry of a slot (R41, R42, R52, R269 to R275, R278, R578): runs, check bytes, lines on their way,
scrub, refresh and temperature. -/

namespace Sys2Proof.Machine

/-! ## The Boulevard's runs (R269, R270, R578) -/

/-- A pending line that an entry of a run may move: its address, and how to move it. -/
inductive BlvLine where
  | ingest (i : Nat) (l : StreamLine)
  | dma (n : Nat) (a : Addr)
  | listed (a : Acc)
  | scrub (a : Addr)
  deriving DecidableEq, Repr

/-- The address of a line. -/
def BlvLine.addr : BlvLine → Addr
  | .ingest _ l => l.addr
  | .dma _ a => a
  | .listed a => a.addr
  | .scrub a => a

/-- The 1 KiB index of a group that Boulevard scrub stands at, within its range (R278, R280). -/
def scrubAt (s : State) : Option Nat :=
  let base := app BLV_SCRUB_BASE.BASE s
  let len := app BLV_SCRUB_LEN.LEN s
  let pos := get BLV_SCRUB_POS.POS s
  if app BLV_SCRUB_CTRL.EN s = 0 ∨ len = 0 then none
  else some (if base ≤ pos ∧ pos < base + len then pos else base)

/-- The address of line `i` of a channel's group in a 1 KiB block. -/
def scrubLine (g ch i : Nat) : Addr := g * 1024 + ch * 64 + 128 * i

/-- The group that the Alley has to write back on a channel (R278). -/
def scrubFixOf (ch : Nat) (s : State) : Option ScrubGroup := (s.memory.scrubFix.find? (fun f => f.1 == ch)).map (·.2)

/-- The pending read lines of the Roundabout on a channel, oldest first (R282, R284). -/
def dmaReads (ch : Nat) (s : State) : List (Nat × Addr) :=
  let l := (List.range 32).filterMap (fun n => match nextRead n s with
    | some a => if inBlv a s && blvCh a == ch then some ((chOf n s).readSince.getD s.now, n, a) else none
    | none => none)
  (l.foldr (fun x acc => (acc.takeWhile (fun y => y.1 < x.1)) ++ [x] ++ (acc.dropWhile (fun y => y.1 < x.1))) []).map (·.2)

/-- Whether the check bytes of a line's group are held for an owner, or on their way. -/
def checkAsked (owner : Owner) (a : Addr) (s : State) : Bool :=
  s.memory.loaded.any (fun x => x.owner == owner && x.ch == blvCh a && x.group == blvGroup a)

/-- The pending lines of an owner on a channel in a direction, oldest first; for the Roundabout those of the channel that a run binds. A read
run of the core is bound to the group whose check bytes its check-read run loaded (R368). -/
def blvPending (owner : Owner) (ch : Nat) (write : Bool) (bound : Option Nat) (s : State) : List BlvLine :=
  let here := fun (a : Addr) => inBlv a s && blvCh a == ch
  if 1 ≤ owner ∧ owner ≤ 8 then
    if write then ((issuable (nth s.record.streams (owner - 1) {})).filter (fun l => here l.addr)).map (fun l => .ingest (owner - 1) l) else []
  else if owner = 0x20 then
    match bound with
    | none => []
    | some n => match nextAccess write n s with
      | some a => if here a then [.dma n a] else []
      | none => []
  else if owner = 0x30 then
    if write then
      match scrubFixOf ch s with
      | some f => (List.range (8 - f.next)).map (fun i => .scrub (scrubLine f.group ch (f.next + i)))
      | none => []
    else
      match scrubAt s with
      | none => []
      | some g =>
        let d := look s.memory.scrubDone ch 0
        (List.range (8 - d)).map (fun i => .scrub (scrubLine g ch (d + i)))
  else (s.memory.acc.filter (fun a => a.owner == owner && here a.addr && a.ready ≤ s.now && !(lateLine a s) && (a.kind != .read) == write &&
      (a.tag != .group || write || checkAsked owner a.addr s))).map (fun a => .listed a)

/-- The addresses of an owner's pending lines on a channel in either direction, oldest first where one list holds them (R270). -/
def blvAll (owner : Owner) (ch : Nat) (s : State) : List Addr :=
  if owner ≤ 8 ∨ owner = 0x20 ∨ owner = 0x30 then
    (blvPending owner ch true none s ++ blvPending owner ch false none s).map (·.addr)
  else (s.memory.acc.filter (fun a => a.owner == owner && inBlv a.addr s && blvCh a.addr == ch && a.ready ≤ s.now && !(lateLine a s))).map (·.addr)

/-- Whether an open data run holds or will next enter a data bank (R270). -/
def runHolds (r : Run) (bank : Nat) (s : State) : Bool :=
  match r.page with
  | none => false
  | some p =>
    r.kind == .data && !r.dead && (blvBank p == bank ||
      (r.owner != 0x20 && blvBank (match (blvAll r.owner r.ch s).find? (fun a => blvPage a != p) with
        | some a => blvPage a
        | none => p + 1) == bank))

/-- Replaces an open run. -/
def setRun (r : Run) (s : State) : State :=
  { s with plan.runs := s.plan.runs.map (fun x => if x.owner == r.owner && x.ch == r.ch && x.kind == r.kind then r else x) }

/-- The open run of an owner, channel and kind. -/
def runOf (owner : Owner) (ch : Nat) (k : RunKind) (s : State) : Option Run :=
  s.plan.runs.find? (fun r => r.owner == owner && r.ch == ch && r.kind == k)

/-- The bank that an open run holds: a data bank, or the check bank of a check page (R267, R268). -/
def runBank (r : Run) : Option Nat := r.page.map (fun p => if r.kind == .data then blvBank p else 14 + p % 2)

/-- Notes that a bank of a channel is closed (R41). -/
def closeBank (ch bank : Nat) (s : State) : State := { s with plan.closedAt := put s.plan.closedAt (16 * ch + bank) s.now }

/-- A data run of an owner other than the Roundabout that needs the bank of another such run: the later-opened of the two waits for the
earlier to close (R270). `earlier` are the runs opened before it. -/
def markWaits (ch : Nat) : List Run → List Run → List Run
  | _, [] => []
  | earlier, r :: rest =>
    let clash := earlier.find? (fun x => x.ch == ch && r.ch == ch && x.kind == .data && r.kind == .data && x.owner != 0x20 && r.owner != 0x20 &&
      (runBank x).isSome && runBank x == runBank r)
    let r' := match clash with
      | some x => if r.waits.isNone then { r with waits := some x.owner } else r
      | none => r
    r' :: markWaits ch (earlier ++ [r]) rest

/-- A run enters a page: the bank it leaves is closed, an open Roundabout run in the bank it enters loses its row, and runs that need one bank
are put in order (R270). -/
def enterPage (r : Run) (p : Nat) (s : State) : State :=
  let s := match runBank r with
    | some b => if r.page != some p then closeBank r.ch b s else s
    | none => s
  let s := if r.owner != 0x20 && r.kind == .data then
    { s with plan.runs := s.plan.runs.map (fun x =>
        if x.owner == 0x20 && x.ch == r.ch && x.kind == .data && runBank x == some (blvBank p) then { x with dead := true } else x) } else s
  let s := setRun { r with page := some p } s
  { s with plan.runs := markWaits r.ch [] s.plan.runs }

/-- The entry with CLOSE ends its run: its bank is closed, and a run that waited for it goes on (R270, R578). -/
def closeRun (e : Entry) (kind : RunKind) (s : State) : State :=
  let s := match runOf e.owner e.ch kind s with
    | some r => (match runBank r with | some b => closeBank e.ch b s | none => s)
    | none => s
  let rest := s.plan.runs.filter (fun x => !(x.owner == e.owner && x.ch == e.ch && x.kind == kind))
  { s with plan.runs := rest.map (fun x =>
      if kind == .data && x.ch == e.ch && x.waits == some e.owner then { x with waits := none } else x) }

/-! ## The check bytes (R268, R272, R274) -/

/-- The address of line `i` of a channel's group. -/
def groupLine (ch g i : Nat) : Addr := blvAddr ch (g * 512 + 64 * i)

/-- The check page of a group (R268): all its check bytes lie in the page of check offset 64 G. -/
def checkPage (g : Nat) : Nat := 64 * g / 4096

/-- The bytes that the check bytes of a line stand for, where they are defined (R274). -/
def checkOf (line : Addr) (s : State) : Option (List Nat) := sparseFind line s.memory.checks

/-- The check bytes of a line are written. -/
def putCheck (line : Addr) (data : List Nat) (s : State) : State :=
  { s with memory.checks := sparseInsert line data s.memory.checks }

/-- A line of a group is written: a complete group joins those that an ECW may write; the check bytes of a 17th are lost. -/
def gatherWrite (owner : Owner) (a : Addr) (data : List Nat) (s : State) : State :=
  let g := blvGroup a
  let ch := blvCh a
  let b := blvOfs a / 64 % 8
  let is := fun (x : Group) => x.owner == owner && x.ch == ch && x.group == g
  let old := (s.memory.written.find? is).getD ⟨owner, ch, g, 0, List.replicate 8 []⟩
  let new : Group := { old with mask := old.mask ||| 2 ^ b, lines := old.lines.set b data }
  let rest := s.memory.written.filter (fun x => !(is x))
  if new.mask = 255 then
    let s := { s with memory.written := rest }
    if 16 ≤ (s.memory.ecwDone.filter (fun x => x.owner == owner && x.ch == ch)).length then breach 2 owner s
    else { s with memory.ecwDone := s.memory.ecwDone ++ [new] }
  else { s with memory.written := rest ++ [new] }

/-- The group that the next ECW entry of an owner and channel writes: the oldest complete one, for the Alley the one written back. -/
def ecwGroup (owner : Owner) (ch : Nat) (s : State) : Option Nat :=
  if owner = 0x30 then
    match scrubFixOf ch s with
    | some f => if f.next = 8 then some (blvGroup (scrubLine f.group ch 0)) else none
    | none => none
  else (s.memory.ecwDone.find? (fun x => x.owner == owner && x.ch == ch)).map (·.group)

/-- An ECW entry writes the check bytes of that group. -/
def gatherEcw (owner : Owner) (ch : Nat) (s : State) : State :=
  if owner = 0x30 then
    match scrubFixOf ch s with
    | some f =>
      if f.next = 8 then
        f.lines.foldl (fun s l => match l.2 with
          | some b => putCheck (scrubLine f.group ch l.1) b s
          | none => s) { s with memory.scrubFix := s.memory.scrubFix.filter (fun x => x.1 != ch) }
      else s
    | none => s
  else
    match takeFirst (fun (x : Group) => x.owner == owner && x.ch == ch) s.memory.ecwDone with
    | some (x, rest) =>
      (List.range 8).foldl (fun s i => putCheck (groupLine ch x.group i) (nth x.lines i []) s) { s with memory.ecwDone := rest }
    | none => s

/-- An owner's lines on a channel that have been read but not delivered, and its pending read lines, oldest first. -/
def readLines (owner : Owner) (ch : Nat) (s : State) : List Addr :=
  (s.memory.reading.filter (fun r => r.owner == owner && blvCh r.addr == ch)).map (·.addr) ++
  (if owner = 0x20 then (dmaReads ch s).map (·.2)
   else if owner = seqOwner then
    (s.memory.acc.filter (fun a => a.owner == owner && inBlv a.addr s && blvCh a.addr == ch && a.ready ≤ s.now && a.kind == .read)).map (·.addr)
   else (blvPending owner ch false none s).map (·.addr))

/-- The group that the next ECR entry of an owner and channel loads: that of the oldest pending read line without check bytes. -/
def ecrGroup (owner : Owner) (ch : Nat) (s : State) : Option Nat :=
  ((readLines owner ch s).find? (fun a => !(checkAsked owner a s))).map blvGroup

/-- An ECR entry reads the check bytes of that group; they are there 44 slots later (R32, unit 0x0E). -/
def gatherEcr (owner : Owner) (ch : Nat) (s : State) : State :=
  match ecrGroup owner ch s with
  | none => s
  | some g => { s with memory.loaded := s.memory.loaded ++
      [⟨owner, ch, g, s.now + 44, (List.range 8).map (fun i => checkOf (groupLine ch g i) s)⟩] }

/-- Check bytes arrive: with a 17th group the oldest one held is released. -/
def checksArrive (s : State) : State :=
  (s.memory.loaded.filter (fun x => x.due == s.now)).foldl (fun s x =>
    let mine := fun (y : Loaded) => y.owner == x.owner && y.ch == x.ch && y.due ≤ s.now
    if 16 < (s.memory.loaded.filter mine).length then
      (match takeFirst mine s.memory.loaded with | some r => { s with memory.loaded := r.2 } | none => s)
    else s) s

/-- The next lines of the Roundabout's channels that a group may still hold: 16 lines span a group on both channels. -/
def dmaAhead (s : State) : List Addr :=
  (List.range 32).flatMap (fun n =>
    let c := chOf n s
    if c.active && c.aborting.isNone && chBusy c && srcKind c == 0 then
      (List.range (Nat.min 16 (c.total - c.reads))).map (fun i => srcAddr c (c.reads + i))
    else match c.fetch with | some a => [a] | none => [])

/-- A group's check bytes are released when its last pending line has been delivered (R272). -/
def gatherRelease (owner : Owner) (a : Addr) (s : State) : State :=
  let left := readLines owner (blvCh a) s ++ (if owner = 0x20 then dmaAhead s else [])
  if left.any (fun x => blvCh x == blvCh a && blvGroup x == blvGroup a) then s
  else { s with memory.loaded := s.memory.loaded.filter (fun x => !(x.owner == owner && x.ch == blvCh a && x.group == blvGroup a)) }

/-- In how many bits two lists of bytes differ. -/
def bitsDiffer : List Nat → List Nat → Nat
  | a :: as, b :: bs => ((List.range 8).filter (fun i => bit a i != bit b i)).length + bitsDiffer as bs
  | _, _ => 0

/-- What the check bytes make of a word that they do not decide: data and, where they find an error, whether it is uncorrectable. Undefined
check bytes (R274) and more than two wrong bits leave it open. UNVERIFIED: log entry 133. -/
def openWord (d : List Nat) (f : Nat) : List Nat × Option Bool :=
  match f % 3 with
  | 0 => (d, none)
  | 1 =>
    let k := f / 3 % 72
    (if k < 64 then d.mapIdx (fun i b => if i = k / 8 then Nat.xor b (2 ^ (k % 8)) else b) else d, some false)
  | _ => (d, some true)

/-- A 64-bit word as (72,64) SECDED check bytes deliver it (R262, R268): `d` the bytes of the array, `c` the bytes that the check bytes stand
for, `mark` an upset of the word. Where they do not decide, a free value does. -/
def checkWord (d : List Nat) (c : Option (List Nat)) (mark : Option Bool) (s : State) : List Nat × Option Bool × State :=
  let free := (let f := draw s
    let w := openWord d f.1
    (w.1, w.2, f.2))
  match c, mark with
  | some c, none => if d = c then (d, none, s) else (match bitsDiffer d c with | 1 => (c, some false, s) | 2 => (d, some true, s) | _ => free)
  | some c, some false => if bitsDiffer d c ≤ 1 then (c, some false, s) else free
  | some _, some true => (d, some true, s)
  | none, _ => free

/-- A line with its check bytes: data, the words in error, and the free values drawn. -/
def checkLine (r : Reading) (c : Option (List Nat)) (s : State) : List Nat × List (Nat × Bool) × State :=
  (List.range 8).foldl (fun (x : List Nat × List (Nat × Bool) × State) i =>
    let w := checkWord (slice r.data (8 * i) 8) (c.map (fun b => slice b (8 * i) 8)) ((r.marks.find? (fun m => m.1 == i)).map (·.2)) x.2.2
    (x.1 ++ w.1, x.2.1 ++ (match w.2.1 with | some b => [(i, b)] | none => []), w.2.2)) ([], [], s)

/-! ## Boulevard scrub (R278) -/

/-- The group of a line that scrub has asked for, by channel. -/
def isScrub (a : Addr) (f : Nat × ScrubGroup) : Bool := f.1 == blvCh a && f.2.group == a / 1024

/-- A read line of scrub comes: with the eighth of its group, a group with a corrected error is to be written back, unless a client has
written to it since. -/
def scrubLand (line : Addr) (data : List Nat) (marks : List (Nat × Bool)) (s : State) : State :=
  match s.memory.scrubRead.find? (isScrub line) with
  | none => s
  | some (ch, old) =>
    let new : ScrubGroup := { old with lines := old.lines ++ [(blvOfs line / 64 % 8, if marks.any (·.2) then none else some data)],
                                       found := old.found || marks.any (fun m => !m.2) }
    let rest := s.memory.scrubRead.filter (fun f => !(isScrub line f))
    if new.lines.length = 8 then
      let s := { s with memory.scrubRead := rest }
      if new.found && !new.cancelled then { s with memory.scrubFix := (ch, new) :: s.memory.scrubFix.filter (fun f => f.1 != ch) } else s
    else { s with memory.scrubRead := (ch, new) :: rest }

/-- A client's write of a line cancels a write-back of its group. -/
def scrubCancel (a : Addr) (s : State) : State :=
  { s with memory.scrubFix := s.memory.scrubFix.filter (fun f => !(isScrub a f))
           memory.scrubRead := s.memory.scrubRead.map (fun f => if isScrub a f then (f.1, { f.2 with cancelled := true }) else f) }

/-- Scrub has asked for a line of its group; after the eighth on both channels it goes on to the next group. -/
def scrubAsked (ch : Nat) (a : Addr) (s : State) : State :=
  let g := a / 1024
  let s := if s.memory.scrubRead.any (isScrub a) then s
    else { s with memory.scrubRead := (ch, ⟨g, [], false, false, 0⟩) :: s.memory.scrubRead }
  let s := { s with memory.scrubDone := put s.memory.scrubDone ch (look s.memory.scrubDone ch 0 + 1) }
  if look s.memory.scrubDone 0 0 = 8 ∧ look s.memory.scrubDone 1 0 = 8 then
    let s := { s with memory.scrubDone := [] }
    if g + 1 < app BLV_SCRUB_BASE.BASE s + app BLV_SCRUB_LEN.LEN s then set BLV_SCRUB_POS.POS (g + 1) s
    else set BLV_SCRUB_POS.POS (app BLV_SCRUB_BASE.BASE s) (count BLV_SCRUB_CTRL.PASSES s)
  else s

/-- An Alley write entry writes back the next line of the group; a line with an uncorrectable word is not rewritten (R278, R279). -/
def scrubWrite (ch : Nat) (s : State) : State :=
  match scrubFixOf ch s with
  | none => s
  | some f =>
    let s := { s with memory.scrubFix := s.memory.scrubFix.map (fun x => if x.1 == ch then (x.1, { f with next := f.next + 1 }) else x) }
    match (f.lines.find? (fun l => l.1 == f.next)).map (·.2) with
    | some (some b) => (lineWrite 0x30 (scrubLine f.group ch f.next) b allOn s).2
    | _ => s

/-! ## Lines on their way (R32, unit 0x0E; R209, R272, R279) -/

/-- An RD entry reads a line as it stands (R578): its data comes 44 slots later. -/
def readLine (owner : Owner) (a : Addr) (tag : AccTag) (line : Nat) (s : State) : State :=
  { s with memory.reading := s.memory.reading ++ [⟨s.now + 44, owner, a, tag, readBytes a 64 s,
      (lineUpsets a s).map (fun w => (w.1, w.2.1)), if fencedReader owner then fencePlaces a s else [], line⟩] }

/-- A line is delivered: corrected by its check bytes or, where they are not loaded, uncorrected with breach kind 3. -/
def deliverLine (r : Reading) (s : State) : State :=
  let i := blvOfs r.addr / 64 % 8
  let is := fun (x : Loaded) => x.owner == r.owner && x.ch == blvCh r.addr && x.group == blvGroup r.addr && decide (x.due ≤ s.now)
  let d := match s.memory.loaded.find? is with
    | some x => checkLine r (nth x.checks i none) s
    | none => (r.data, [], breach 3 r.owner s)
  let s := eccCount r.owner r.addr d.2.1 d.2.2
  let bad := (d.2.1.filter (fun m => m.2)).map (·.1)
  let data := maskPlaces d.1 r.fence
  let s := match r.tag with
    | .scrub => scrubLand r.addr d.1 d.2.1 s
    | .dma n => addFlight ⟨s.now, r.owner, r.addr, r.tag, data, !bad.isEmpty, !r.fence.isEmpty⟩ (noteFailure n r.line bad r.fence s)
    | t => addFlight ⟨s.now, r.owner, r.addr, t, data, !bad.isEmpty, !r.fence.isEmpty⟩ s
  gatherRelease r.owner r.addr s

/-- What the Boulevard delivers in this slot. -/
def deliverAll (s : State) : State :=
  let s := checksArrive s
  (s.memory.reading.filter (fun r => r.due ≤ s.now)).foldl (fun s r => deliverLine r s)
    { s with memory.reading := s.memory.reading.filter (fun r => s.now < r.due) }

/-! ## Entries (R269, R274, R578) -/

/-- A line of a run is moved. A client's write cancels a scrub write-back of its group. -/
def moveLine (owner : Owner) (ch : Nat) (write : Bool) (l : BlvLine) (s : State) : State :=
  match l, write with
  | .ingest i x, true =>
    gatherWrite owner x.addr x.data (scrubCancel x.addr (lineWrite owner x.addr x.data x.enables (takeStreamLine i x s)).2)
  | .dma n a, true =>
    let data := ((chOf n s).staged.head?.map (·.data)).getD []
    gatherWrite owner a data (scrubCancel a (issueWrite n a s))
  | .listed a, true =>
    gatherWrite owner a.addr a.data (scrubCancel a.addr (serveWrite a { s with memory.acc := s.memory.acc.erase a }))
  | .scrub _, true => scrubWrite ch s
  | .dma n a, false => readLine 0x20 a (.dma n) (chOf n s).reads (readIssued n s)
  | .listed a, false => readLine owner a.addr a.tag 0 { s with memory.acc := s.memory.acc.erase a }
  | .scrub a, false => scrubAsked ch a (readLine 0x30 a .scrub 0 s)
  | .ingest _ _, false => s

/-- Whether an entry's owner has nothing to issue on its channel (R43): no line to move; for an ECW entry no complete group, for an ECR
entry no read line whose group's check bytes are to be loaded (R272). -/
def entryIdle (e : Entry) (s : State) : Bool :=
  let lines := fun (w : Bool) => if e.owner = 0x20 then
      (List.range 32).filterMap (fun n => match nextAccess w n s with
        | some a => if inBlv a s && blvCh a == e.ch then some a else none
        | none => none)
    else (blvPending e.owner e.ch w none s).map (·.addr)
  match e.op with
  | 1 => (lines true).isEmpty
  | 2 => (lines false).isEmpty
  | 3 => (ecwGroup e.owner e.ch s).isNone
  | _ => (ecrGroup e.owner e.ch s).isNone

/-- A run opens (R269, R284): a check run in the page of its group's check bytes, a Roundabout run bound to a channel whose oldest pending access
has the run's direction, any other data run in the page of its owner's oldest line. -/
def openRun (e : Entry) (write : Bool) (s : State) : State :=
  let kind : RunKind := if e.op = 1 ∨ e.op = 2 then .data else .check
  let base : Run := ⟨e.owner, e.ch, kind, none, none, false, none⟩
  let s := { s with plan.runs := s.plan.runs.filter (fun x => !(x.owner == e.owner && x.ch == e.ch && x.kind == kind)) ++ [base] }
  if kind = .check then
    match (if write then ecwGroup e.owner e.ch s else ecrGroup e.owner e.ch s) with
    | some g => enterPage base (checkPage g) s
    | none => s
  else if e.owner = 0x20 then
    let free := fun (b : Nat) => !(s.plan.runs.any (fun x => x.ch == e.ch && runHolds x b s))
    let ok := fun (n : Nat) => match oldestAccess n s with
      | some (w, a) => w == write && inBlv a s && blvCh a == e.ch && free (blvBank (blvPage a))
      | none => false
    match chooseCh ok s with
    | none => s
    | some n => setRun { base with bound := some n, page := (nextAccess write n s).map blvPage } s
  else match (blvPending e.owner e.ch write none s).head? with
    | none => s
    | some l => enterPage base (blvPage l.addr) s

/-- A breach of an entry that should have moved a line: kind 1 for a write, kind 3 for a read (R269). -/
def entryBreach (e : Entry) (write : Bool) (s : State) : State := breach (if write then 1 else 3) e.owner s

/-- An entry that finds no line. For a stream it is a breach while the stream issues; the Alley's cancelled write-back and a run without a page
move nothing. -/
def entryEmpty (e : Entry) (write : Bool) (r : Run) (s : State) : State :=
  if 1 ≤ e.owner ∧ e.owner ≤ 8 then (if (nth s.record.streams (e.owner - 1) {}).issuing then entryBreach e write s else s)
  else if r.page.isNone ∨ e.owner = 0x30 then s
  else entryBreach e write s

/-- A WR or RD entry moves a line of its run, or nothing (R269, R270). `missing` says that a staged line of the Roundabout is missing (R284). -/
def dataEntry (e : Entry) (write missing : Bool) (s : State) : State :=
  match runOf e.owner e.ch .data s with
  | none => s
  | some r =>
    let l := blvPending e.owner e.ch write r.bound s
    let here := l.find? (fun x => some (blvPage x.addr) == r.page)
    if e.owner = 0x20 then
      if r.dead then s
      else match here with
        | some x =>
          if write && missing then breach 1 0x20 s
          else if write && isLate 0x0F (r.bound.getD 0) s then s
          else moveLine 0x20 e.ch write x s
        | none => s
    else if r.waits.isSome then entryBreach e write s
    else if r.page.isNone then entryEmpty e write r s
    else match here, l.head? with
      | some x, _ => moveLine e.owner e.ch write x s
      | none, some x =>
        let s := enterPage r (blvPage x.addr) s
        if ((runOf e.owner e.ch .data s).bind (·.waits)).isSome then entryBreach e write s else moveLine e.owner e.ch write x s
      | none, none => entryEmpty e write r s

/-- An ECW or ECR entry of an open check run; the run follows the page of its group's check bytes (R268, R272). -/
def checkEntry (e : Entry) (write : Bool) (s : State) : State :=
  match runOf e.owner e.ch .check s with
  | none => s
  | some r =>
    let g := if write then ecwGroup e.owner e.ch s else ecrGroup e.owner e.ch s
    let s := match g with
      | some g => if r.page = some (checkPage g) then s else enterPage r (checkPage g) s
      | none => s
    if write then
      (let s := gatherEcw e.owner e.ch s
       if e.owner = seqOwner then groupEcw e.ch s else s)
    else gatherEcr e.owner e.ch s

/-! ## Refresh and temperature (R41, R42, R44, R275) -/

/-- A refresh of the first bank in order that has not been refreshed in the cycle, has no open run and was closed at least 16 slots before
(R41). DESIGN CHOICE: log entry 4. -/
def refreshBank (ch : Nat) (s : State) : State :=
  let ok := fun (b : Nat) =>
    !(s.plan.refreshed.contains (ch, b)) && !(s.plan.runs.any (fun r => r.ch == ch && runBank r == some b)) &&
    (match s.plan.closedAt.find? (fun c => c.1 == 16 * ch + b) with | some c => c.2 + 16 ≤ s.now | none => true)
  match (List.range 16).find? ok with
  | none => s
  | some b =>
    let done := (ch, b) :: s.plan.refreshed
    let full := (done.filter (fun x => x.1 == ch)).length = 16
    { s with plan.refreshed := if full then done.filter (fun x => x.1 != ch) else done }

/-- An MRR entry reads the refresh-rate field of its channel (R42, R44, R275). A reading above twice the base rate starts the count of 16 anew
on both channels. DESIGN CHOICE: log entry 129. -/
def mrrEntry (ch code : Nat) (s : State) : State :=
  let cls := (Config.mr4Class (code % 32)).val
  let rate := if ch = 0 then BLV_TEMP.RATE0 else BLV_TEMP.RATE1
  let hotF := if ch = 0 then BLV_TEMP.HOT0 else BLV_TEMP.HOT1
  let was := on hotF s
  let hot := cls != 0
  let s := setB hotF hot (set rate code s)
  let s := setB BLV_TEMP.HOT (on BLV_TEMP.HOT0 s || on BLV_TEMP.HOT1 s) s
  let s := if hot && !was then raise 0x2B (fault 0x0609 ch 0 0 s) else s
  if cls = 2 then
    let s := { s with plan.mrrOk := [] }
    if bit (get SQ_PLAN_STAT.MSTOP_CAUSE s) 0 then s else enterMargin 0 (fault 0x0112 ch 0 0 s)
  else
    let s := { s with plan.mrrOk := put s.plan.mrrOk ch (look s.plan.mrrOk ch 0 + 1) }
    if 16 ≤ look s.plan.mrrOk 0 0 ∧ 16 ≤ look s.plan.mrrOk 1 0 then clearCause 0 s else s

/-- The capture domains of a Boulevard channel (R492): its two x16 halves. DEDUCED: log entry 103. -/
def captureOf (ch d : Nat) : Bool := d == 209 + 5 * ch || d == 210 + 5 * ch

/-- The breach kind of a read entry whose channel's capture slips in the slot: 2 where the crosswalk was full, 3 where it was empty
(R54, R495). -/
def slipKind (ch : Nat) (env : SlotEnv) : Option Nat :=
  (env.slips.find? (fun x => captureOf ch x.1)).map (fun x => if x.2 then 2 else 3)

/-- The slot's Boulevard command entry. A read of an open run whose capture slips moves nothing and is a breach (R495). In slots 0 to 15 of the
first period only REF is issued, and an entry of a run that was not opened moves nothing (R52); before UP, and but for REF after INIT_FAIL,
entries are empty (R274). In MARGIN_STOP a WR, RD, ECW or ECR entry whose owner has nothing to issue is an additional refresh; a NOP entry
(owner 0x00) has no owner and never is (R43; DESIGN CHOICE, log entry 107). -/
def runEntry (e : Entry) (env : SlotEnv) (s : State) : State :=
  if !(on BLV_STAT.UP s) && !(on BLV_STAT.INIT_FAIL s) then s
  else if e.op = 5 then refreshBank e.ch s
  else if on BLV_STAT.INIT_FAIL s || (s.plan.firstPeriod && decide (s.now < s.plan.period0 + 16)) then s
  else if e.op = 6 then mrrEntry e.ch (nth env.mr4 e.ch 0) s
  else if e.op = 0 ∨ 6 < e.op then s
  else
    let write := e.op == 1 || e.op == 3
    let kind : RunKind := if e.op = 1 ∨ e.op = 2 then .data else .check
    let s := if on SQ_PLAN_STAT.MARGIN_STOP s && entryIdle e s then refreshBank e.ch s else s
    let s := if e.open' then openRun e write s else s
    let slips := if (runOf e.owner e.ch kind s).isSome && !write then slipKind e.ch env else none
    let s := match slips with
      | some k => breach k e.owner s
      | none => if kind = .data then dataEntry e write (env.missing.contains 8) s else checkEntry e write s
    if e.close then closeRun e kind s else s

end Sys2Proof.Machine
end

