-- ==== Sys2Proof/Machine/DisplaySet.lean ====
section
/-! DEFINITION. The settings of display scan-out: timing, the checks of R426 and R430, and APPLY (R425 to R428, R430). -/

namespace Sys2Proof.Machine

/-! ## Settings in effect and timing (R425, R426) -/

/-- A staged field as it is in effect. -/
def dget (F : Fld) (s : State) : Nat := regGet F s.dsp.applied

/-- Pixels per line by the settings `m`. -/
def hTotal (m : List (Nat × Nat)) : Nat :=
  regGet DSP_HTIM0.HSYNC m + regGet DSP_HTIM1.HBP m + regGet DSP_HTIM0.HACT m + regGet DSP_HTIM1.HFP m

/-- Lines per frame. -/
def vTotal (m : List (Nat × Nat)) : Nat :=
  regGet DSP_VTIM0.VSYNC m + regGet DSP_VTIM1.VBP m + regGet DSP_VTIM0.VACT m + regGet DSP_VTIM1.VFP m

/-- The slot of pixel `x` of frame line `l`, both counted from the frame's start, rounded down (R425). -/
def pixelSlot (l x : Nat) (s : State) : Nat :=
  (s.dsp.frameStart + (l * hTotal s.dsp.applied + x) * 65536) / Nat.max 1 (dget DSP_CLK.N s)

/-- The first line after sync and back porch. -/
def firstActive (s : State) : Nat := dget DSP_VTIM0.VSYNC s + dget DSP_VTIM1.VBP s

/-- P_v: the slot of the first active pixel of active line `v`. -/
def lineSlot (v : Nat) (s : State) : Nat := pixelSlot (firstActive s + v) (dget DSP_HTIM0.HSYNC s + dget DSP_HTIM1.HBP s) s

/-- The slot in which the last active pixel of active line `v` has been sent. -/
def lineEnd (v : Nat) (s : State) : Nat :=
  pixelSlot (firstActive s + v) (dget DSP_HTIM0.HSYNC s + dget DSP_HTIM1.HBP s + dget DSP_HTIM0.HACT s) s + 1

/-- Whether a plane is enabled: 0 BASE, 1 WAVE, 2 CURSOR. -/
def planeOn (m : List (Nat × Nat)) (i : Nat) : Bool := bit (regGet DSP_PLANE.EN m) i

/-- The line time in whole slots and the lines one displayed line needs, where the settings enable scan-out with a memory plane (R40, R430). -/
def dispNeed (m : List (Nat × Nat)) : Option (Nat × Nat) :=
  let k := b2n (planeOn m 0) + b2n (planeOn m 1)
  if regGet DSP_CTRL.EN m = 0 ∨ k = 0 then none
  else some (hTotal m * 65536 / Nat.max 1 (regGet DSP_CLK.N m), 64 * k)

/-- Whether the active plan fails invariant 0x08 under the settings `m`; the boot plan declares no display owner. -/
def planShort (m : List (Nat × Nat)) (s : State) : Bool :=
  match dispNeed m with
  | none => false
  | some d =>
    match activeSlot s with
    | none => true
    | some n => ((storeImage n s).shortDisplay (some d)).isSome

/-- Whether a plan's display claims keep the order of R430. -/
def displayOrder (p : PlanImage) : Bool :=
  let claims := (List.range 4096).flatMap (fun k => (p.claimsOf k).filter (fun c => c.owner == 0x28))
  (claims.mapIdx (fun n c => c.op == 0 && c.bank == n % 64)).all id &&
    (match p.declOf 0x28 with | some d => d.need % 64 == 0 | none => true)

/-- Quarter bytes per pixel on DSI (R426). -/
def quarterBytes (fmt : Nat) : Nat := match fmt with | 0 => 8 | 1 => 9 | _ => 12

/-- Whether the settings break R426. -/
def limitsBroken (m : List (Nat × Nat)) : Bool :=
  let hact := regGet DSP_HTIM0.HACT m
  let vact := regGet DSP_VTIM0.VACT m
  let n := regGet DSP_CLK.N m
  let fmt := regGet DSP_CTRL.FMT m
  let iface := regGet DSP_CTRL.IF m
  let lanes := 2 ^ regGet DSP_CTRL.LANES m
  let lr := regGet DSP_CLK.LR m
  let porch := [regGet DSP_HTIM0.HSYNC m, regGet DSP_HTIM1.HBP m, regGet DSP_HTIM1.HFP m,
    regGet DSP_VTIM0.VSYNC m, regGet DSP_VTIM1.VBP m, regGet DSP_VTIM1.VFP m]
  let fb := 64 * regGet DSP_FB.FB_OFS m
  let stride := 64 * regGet DSP_FB.STRIDE m
  hact < 32 || 1280 < hact || vact < 1 || 800 < vact || porch.any (fun p => p < 1 || 1023 < p) ||
  n < 1 || 6400 < n || iface == 3 || fmt == 3 || lanes == 8 ||
  (hTotal m - hact) * 65536 < 16 * n ||
  (planeOn m 0 && (stride < 2 * hact || 0x200000 < fb + (vact - 1) * stride + 2 * hact)) ||
  (iface != 0 && fmt == 1 && hact % 4 != 0) ||
  (iface == 0 && fmt == 0) ||
  (iface != 0 && (lr < 16 || 93 < lr ||
    hTotal m * 64 * 4 * lanes * 16 * lr * 25 < 8 * (hact * quarterBytes fmt + 80) * 25 * n + 16 * lanes * 16 * lr * n))

/-! ## APPLY (R427, R428) -/

/-- The staged fields of a list of field values. -/
def stagedPart (m : List (Nat × Nat)) : List (Nat × Nat) :=
  m.filter (fun e => let a := e.1 / 32
    (a == DSP_CTRL.addr && e.1 % 32 < 8) || (DSP_CLK.addr ≤ a && a ≤ DSP_WAVE_POS.addr))

/-- The nominal 1,024 slots of R428, one slot more or less left open. -/
def oneMicro (s : State) : Nat × State :=
  let f := draw s
  (1023 + f.1 % 3, f.2)

/-- Whether the init list still has to be sent before a first frame (R428, R436). -/
def initPending (s : State) : Bool := !s.dsp.initList.isEmpty && s.dsp.initEnd.isNone

/-- Settings come into effect while scan-out is stopped: with EN it starts (R428). -/
def takeSettings (m : List (Nat × Nat)) (s : State) : State :=
  let s := set DSP_CTRL.APPLY_PEND 0 { s with dsp.applied := m, dsp.pending := none }
  if regGet DSP_CTRL.EN m = 0 then s
  else
    let d := oneMicro s
    let s := set DSP_STAT.RUN 1 { d.2 with dsp.inFrame := false, dsp.line := 0 }
    if regGet DSP_CTRL.IF m ≠ 0 && initPending s then { s with dsp.firstDue := none }
    else { s with dsp.firstDue := some (s.now + d.1) }

/-- The interface settings that may not change while scan-out runs. -/
def sameInterface (m k : List (Nat × Nat)) : Bool :=
  [DSP_CTRL.IF, DSP_CTRL.LANES, DSP_CLK.N, DSP_CLK.LR].all (fun F => regGet F m == regGet F k)

/-- An APPLY is judged (R427). DEDUCED: log entry 72. -/
def judgeApply (s : State) : State :=
  let m := stagedPart s.regs
  let cause := if limitsBroken m then 1
    else if planShort m s then 2
    else if on DSP_STAT.RUN s && !(sameInterface m s.dsp.applied) then 3 else 0
  if cause ≠ 0 then fault 0x0C01 0 0 cause (set DSP_CTRL.REFUSED 1 (set DSP_CTRL.CAUSE cause s))
  else if on DSP_STAT.RUN s then set DSP_CTRL.APPLY_PEND 1 { s with dsp.pending := some (m, s.now) }
  else takeSettings m s

/-- An APPLY written in the slot before is judged (R427). -/
def applyDue (s : State) : State := if s.dsp.asked then judgeApply { s with dsp.asked := false } else s

end Sys2Proof.Machine
end

