-- ==== Sys2Proof/Machine/PlanSlot.lean ====
section
/-! DEFINITION. One slot of the active plan (R19 to R22, R52, R54): what lands, the claims and the entry, and what the slot boundary
brings. -/

namespace Sys2Proof.Machine

/-! ## Data that lands (R32) -/

/-- Read data that is due goes to the unit that asked for it; loads, channels and display lines have rows of their own. -/
def landFlight (f : Flight) (s : State) : State :=
  match f.tag with
  | .au n => auLand n f.addr f.data s
  | .per => perLand f.addr f.data s
  | .display l => { s with dsp.fetched := s.dsp.fetched ++ [(l, f.addr, s.now, f.data)] }
  | .remote p =>
    let port := erlPort p s
    match takeFirst (fun (k : Packet) => k.vc == 3 && k.addr == f.addr) port.held with
    | some (k, rest) =>
      let k' := { k with data := f.data, status := b2n f.bad + 2 * b2n f.fenced }
      let s := if f.fenced then fault 0x0405 f.owner 0 0 s else s
      setPort p (fun x => { x with held := rest, tx := x.tx ++ [k'] }) s
    | none => s
  | _ => s

/-- Whether a flight lands with the slot. -/
def landsHere (t : AccTag) : Bool :=
  match t with
  | .au _ => true
  | .per => true
  | .display _ => true
  | .remote _ => true
  | _ => false

/-- Whether data in flight is due in this slot and absent, because the unit that brings it is late (R54, kind 3): a Square read, a Boulevard
read, or a line of the display. -/
def flightAbsent (f : Flight) (s : State) : Bool :=
  decide (f.due = s.now) && (isLate (if inSquare f.addr then 0x07 else 0x0E) f.owner s ||
    (match f.tag with | .display _ => isLate 0x10 0 s | _ => false))

/-- Everything due in this slot lands: what the Boulevard delivers, the lines that units asked for, and the lines of the ingest packers, but for
what is late (R32, R54). -/
def landAll (s : State) : State :=
  let s := deliverAll s
  let s := { s with memory.flight := s.memory.flight.filter (fun f => !(flightAbsent f s)) }
  let due := s.memory.flight.filter (fun f => f.due ≤ s.now && landsHere f.tag)
  let s := { s with memory.flight := s.memory.flight.filter (fun f => !(f.due ≤ s.now && landsHere f.tag)) }
  let s := due.foldl (fun s f => landFlight f s) s
  (List.range 8).foldl (fun s i =>
    let s := if isLate 0x06 i s then setStream i (fun t => { t with coming := t.coming.filter (fun l => l.due != s.now) }) s else s
    landStream i s) s

/-! ## The slot -/

/-- A bit error in a word of the Square or the Boulevard (R262, R279), or of ITCM or DTCM (R331). The Boulevard keeps its check bytes apart from
the array, which takes the bytes given; elsewhere the array is read back as it was unless the error is uncorrectable. -/
def addUpset (u : Nat × Bool × List Nat) (s : State) : State :=
  let put := fun (w n : Nat) =>
    let worse := u.2.1 || (match upsetOf w s with | some x => x.1 | none => false)
    putUpset w worse (u.2.2.take n) s
  if inSquare u.1 then put (u.1 / 8 * 8) 8
  else if inBlv u.1 s then writeBytes (u.1 / 8 * 8) (u.2.2.take 8) (put (u.1 / 8 * 8) 8)
  else if inTcm u.1 then put (u.1 / 4 * 4) 4
  else s

/-- The bit errors of the slot. -/
def addUpsets (l : List (Nat × Bool × List Nat)) (s : State) : State := l.foldl (fun s u => addUpset u s) s

/-- The client whose result a late unit gives: a code of R23, 0 where the unit serves none (R55). DEDUCED: log entry 120. -/
def lateOwner (u : Nat × Nat) : Owner :=
  if u.1 = 0x06 then u.2 + 1
  else if u.1 = 0x07 ∨ u.1 = 0x08 ∨ u.1 = 0x0D ∨ u.1 = 0x0E then u.2
  else if u.1 = 0x09 then 0x10 + u.2
  else if u.1 = 0x0A then 0x18
  else if u.1 = 0x0B ∨ u.1 = 0x0C then 0x1C
  else if u.1 = 0x0F then 0x20
  else if u.1 = 0x10 then 0x28
  else if u.1 = 0x11 then 0x2C + u.2
  else 0

/-- The units that are late in the slot, each a breach of kind 3 (R54). -/
def addLate (l : List (Nat × Nat)) (s : State) : State :=
  l.foldl (fun s u => breach 3 (lateOwner u) s) { s with plan.late := l }

/-- Shows the slot in SQ_SLOT (R61). -/
def showSlot (s : State) : State := set SQ_SLOT.SLOT (s.now % 4096) (set SQ_SLOT.PERIODS (s.now / 4096) s)

/-- The slot boundary: the queues are judged for the slot that ends, then the next slot begins (R321, R19). At a period's start the Alley's
turns are numbered anew (R276) and the first period of a plan is over. -/
def nextSlot (s : State) : State :=
  if !s.plan.begun then { s with plan.begun := true }
  else
    let s := evtSlotEnd (markComplete s)
    let s := { s with now := s.now + 1 }
    let s := if s.now % 4096 = 0 then
      { s with memory.turn := [], plan.firstPeriod := s.plan.firstPeriod && s.now == s.plan.period0 } else s
    let l := s.evt.later
    applyDue (l.foldl (fun s w => laterApply w.1 w.2 s) { s with evt.later := [] })

/-- The owner that the active plan names at a place of slot `k`: claim 0 to 7, or 8 for the Boulevard entry. DEDUCED: log entry 33. -/
def ownerAt (k place : Nat) (s : State) : Owner :=
  if place < 8 then ((claimsAt k s)[place]?.map (·.owner)).getD 0 else (activeEntry k s).owner

/-- A plan store error at a place of the slot (R54, kinds 4 and 5), logged with the owner that the plan names there (R55). -/
def storeError (bad : Bool) (k place : Nat) (s : State) : State :=
  if bad then
    let s := breach 4 (ownerAt k place s) s
    let s := match activeSlot s with
      | some n => set SQ_PLAN_STAT.VALID (get SQ_PLAN_STAT.VALID s - (if bit (get SQ_PLAN_STAT.VALID s) n then 2 ^ n else 0)) s
      | none => s
    enterMargin 2 s
  else breach 5 (ownerAt k place s) s

/-- A crosswalk slips: it is counted with its domain and logged (R495). -/
def slip (d : Nat) (s : State) : State := fault 0x0F06 d 0 0 (bump CLK_XW_STAT.SLIPS (set CLK_XW_STAT.DOMAIN d s))

/-- The claims and the entry of the slot. A place with an uncorrectable plan store error is executed as empty (R54, kind 4); the boot plan
is not in the store. -/
def runSlot (env : SlotEnv) (s : State) : State :=
  let k := s.now % 4096
  let bad := if (activeSlot s).isNone then [] else env.storeBad
  let fixed := if (activeSlot s).isNone then [] else env.storeFixed
  let claims := (List.range 8).filterMap (fun i => if bad.contains i then none else ((claimsAt k s)[i]?).map (fun c => (i, c)))
  let s := env.slips.foldl (fun s x => slip x.1 s) s
  let s := bad.foldl (fun s i => storeError true k i s) s
  let s := fixed.foldl (fun s i => storeError false k i s) s
  let s := runClaims claims env.missing s
  runEntry (if bad.contains 8 then entryOf 0 else activeEntry k s) env s

/-- The exit from POISED or IDLE is complete (R510, R515): what waited for RUN has its effect. -/
def endExit (s : State) : State := startRelease (set PWR_STAT.MOVING 0 { s with pwr.exit := none })

/-- The latest end of an exit from POISED or IDLE (R510): 102 or 1,024 slots after the demand. DEDUCED: log entry 87. -/
def exitDue (s : State) : Bool :=
  match s.pwr.exit with
  | some x => x.from_ ≤ 2 && x.since + (if x.from_ = 1 then 102 else 1024) ≤ s.now
  | none => false

/-- Steps 1 and 2 of R517: once no ledger write is in progress and scan-out has stopped, the sequencer stops at an instruction boundary with its
store buffer drained. -/
def seqRest (s : State) : State :=
  if s.pwr.entry.isSome && !s.pwr.seqStopped && s.boot.write.isNone && !(on DSP_STAT.RUN s) && s.seq.buffer.isEmpty && s.seq.load.isNone &&
      s.seq.div.isNone && decide (s.seq.busyUntil ≤ s.now) && decide (s.seq.boundary ≤ s.now) then
    let c := if s.seq.released then s.seq.sys.cycle + (s.now - s.seq.sys.cycleFrom) / 2 else s.seq.sys.cycle
    { s with pwr.seqStopped := true, seq.sys.cycle := c }
  else s

/-- What the ladder does at a slot's start. -/
def ladderSlot (s : State) : State := seqRest (if exitDue s then endExit s else s)

/-- PLAN_SLOT: the next slot begins and is executed. Nothing runs before the boot plan starts or while the fabric is stopped.
DESIGN CHOICE: log entry 25. -/
def planSlot (env : SlotEnv) (s : State) : State :=
  if !s.plan.running || s.pwr.fabricStopped then s
  else
    let s := addUpsets env.upsets (addLate env.late (showSlot (ladderSlot (nextSlot s))))
    runSlot env (auFlush (seqAdvance (linkSlot (dmaSlot (dropPaired (landAll (evtSlotStart s)))))))

/-- Meaning of PLAN_SLOT. -/
def execPlanSlot (env : SlotEnv) (s : State) : Host.Outcome State Fault Refusal := .next (planSlot env s)

end Sys2Proof.Machine
end

