-- ==== Sys2Proof/Machine/Display.lean ====
section
/-! DEFINITION. Display scan-out (R422 to R439): planes and composition, line fetch, interfaces, panel commands, TE. -/

namespace Sys2Proof.Machine

/-! ## APPLY (R427) -/

/-- A write of DSP_CTRL: the staged fields, REFUSED, and APPLY, which is judged in the slot after the write; while no slot runs, at once. -/
def dspCtrlWrite (v : Nat) (s : State) : State :=
  let s := set DSP_CTRL.EN v (set DSP_CTRL.IF (v / 2) (set DSP_CTRL.LANES (v / 8) (set DSP_CTRL.FMT (v / 32) s)))
  let s := if bit v 10 then set DSP_CTRL.REFUSED 0 s else s
  if !(bit v 8) then s else if s.plan.running && !s.pwr.fabricStopped then { s with dsp.asked := true } else judgeApply s

/-- Meaning of APPLY: a write of DSP_CTRL. -/
def execApply (value : Nat) (s : State) : Host.Outcome State Fault Refusal := .next (dspCtrlWrite value s)

/-- What a swap does to scan-out (R430, R431): the check of R430 for the new plan, and ORDER_OK. -/
def displaySwap (s : State) : State :=
  let s := setB DSP_STAT.ORDER_OK (match activeSlot s with | some n => displayOrder (storeImage n s) | none => false) s
  if planShort s.dsp.applied s then fault 0x0C03 0 0 0 (set DSP_STAT.PLAN_SHORT 1 s) else set DSP_STAT.PLAN_SHORT 0 s

/-! ## Line fetch (R429, R430) -/

/-- The addresses of the BASE lines of display line `v`. -/
def baseLines (v : Nat) (s : State) : List Addr :=
  if planeOn s.dsp.applied 0 && v < dget DSP_VTIM0.VACT s then
    (List.range (ceilDiv (2 * dget DSP_HTIM0.HACT s) 64)).map (fun i =>
      sqBase + 0x1E00000 + 64 * (dget DSP_FB.FB_OFS s + v * dget DSP_FB.STRIDE s + i))
  else []

/-- The histogram row that display line `v` shows, where WAVE covers it (R422). -/
def waveRow (v : Nat) (s : State) : Option Nat :=
  let y := dget DSP_WAVE_POS.WAVE_Y s
  if planeOn s.dsp.applied 1 && y ≤ v && v < y + 512 && v < dget DSP_VTIM0.VACT s then some (511 - (v - y)) else none

/-- The addresses of the histogram lines of display line `v`. -/
def waveLines (v : Nat) (s : State) : List Addr :=
  match waveRow v s with
  | some r => (List.range 32).map (fun i => perBase s + 2048 * r + 64 * i)
  | none => []

/-- Display line `v`'s lines become pending from a slot on. -/
def askLine (v ready : Nat) (s : State) : State :=
  (baseLines v s ++ waveLines v s).foldl (fun s a => addAcc ⟨0x28, a, .read, [], [], .display v, ready⟩ s) s

/-- Whether a tag belongs to a display line that a test accepts. -/
def displayTag (p : Nat → Bool) (t : AccTag) : Bool := match t with | .display v => p v | _ => false

/-- Forgets the pending, travelling and arrived lines of the display lines that a test accepts. -/
def forgetLines (p : Nat → Bool) (s : State) : State :=
  { s with memory.acc := s.memory.acc.filter (fun a => !(displayTag p a.tag)),
           memory.flight := s.memory.flight.filter (fun f => !(displayTag p f.tag)),
           dsp.fetched := s.dsp.fetched.filter (fun f => !(p f.1)) }

/-! ## Composition (R422 to R424) -/

/-- RGB565 expanded by bit replication, as an RGB888 word. -/
def expand565 (w : Nat) : Nat :=
  let r := bits w 11 5
  let g := bits w 5 6
  let b := bits w 0 5
  (8 * r + r / 4) * 65536 + (4 * g + g / 16) * 256 + (8 * b + b / 4)

/-- One channel of the WAVE blend (R423, item 2). -/
def blend (a w b : Nat) : Nat := (a * w + (255 - a) * b + 127) / 255

/-- A pixel with the WAVE plane over it. -/
def waveOver (b n : Nat) (s : State) : Nat :=
  if n = 0 ∧ dget DSP_PLANE.WZERO s = 1 then b
  else
    let e := get (DSP_CTAB.ENTRY (Nat.min 255 (n / 2 ^ dget DSP_PLANE.WSH s))) s
    let a := bits e 24 8
    blend a (bits e 16 8) (bits b 16 8) * 65536 + blend a (bits e 8 8) (bits b 8 8) * 256 + blend a (bits e 0 8) (bits b 0 8)

/-- The cursor code that covers pixel (x, y), 0 where none does (R422). -/
def cursorCode (x y : Nat) (s : State) : Nat :=
  let cx := s.dsp.curPos.1
  let cy := s.dsp.curPos.2
  if planeOn s.dsp.applied 2 && cx ≤ x && x < cx + 64 && cy ≤ y && y < cy + 64 then
    bits (get (DSP_CUR_BMP.PIXELS (4 * (y - cy) + (x - cx) / 16)) s) (2 * ((x - cx) % 16)) 2
  else 0

/-- The output format keeps the high bits of each channel (R423). -/
def formatPixel (fmt p : Nat) : Nat :=
  match fmt with
  | 0 => bits p 19 5 * 2048 + bits p 10 6 * 32 + bits p 3 5
  | 1 => bits p 18 6 * 4096 + bits p 10 6 * 64 + bits p 2 6
  | _ => p

/-- The line at an address for display line `v`, where it arrived by a slot. -/
def arrived (v : Nat) (a : Addr) (by' : Nat) (s : State) : Option (List Nat) :=
  (s.dsp.fetched.find? (fun f => f.1 == v && f.2.1 == a && f.2.2.1 ≤ by')).map (·.2.2.2)

/-- The pixels of active line `v`, from the lines that arrived by slot P_v − 16, and whether all had (R423, R431). DEDUCED: log entry 73. -/
def composeLine (v : Nat) (s : State) : List Nat × Bool :=
  let by' := lineSlot v s - 16
  let base := (baseLines v s).map (fun a => arrived v a by' s)
  let wave := (waveLines v s).map (fun a => arrived v a by' s)
  let x0 := dget DSP_WAVE_POS.WAVE_X s
  let px := (List.range (dget DSP_HTIM0.HACT s)).map (fun x =>
    let b := match base[2 * x / 64]? with
      | some (some l) => expand565 (ofLe (slice l (2 * x % 64) 2))
      | _ => get DSP_BG.RGB s
    let w := if wave.isEmpty = false ∧ x0 ≤ x ∧ x < x0 + 1024 then
      (let c := x - x0
       waveOver b (match wave[c / 32]? with | some (some l) => ofLe (slice l (2 * (c % 32)) 2) | _ => 0) s) else b
    let k := cursorCode x v s
    formatPixel (dget DSP_CTRL.FMT s) (if k = 0 then w else get (DSP_CUR_COL.RGB (k - 1)) s))
  (px, (base ++ wave).all (·.isSome))

/-! ## Frames and lines (R428, R431, R434, R438) -/

/-- Whether a frame's pixels are still being sent: a command-mode transfer runs (R434). -/
def transferRuns (s : State) : Bool :=
  s.dsp.inFrame && (s.dsp.line < dget DSP_VTIM0.VACT s || s.now < lineEnd (dget DSP_VTIM0.VACT s - 1) s)

/-- The sync event with which frame line `l` begins in video mode: VSync Start on the first line, HSync Start on the others (R433). -/
def syncEvent (l : Nat) : Nat := if l = 0 then 0x01 else 0x21

/-- A frame starts at a time in N-ths of a slot, none for the present slot; an accepted APPLY of an earlier slot takes effect, and one with
EN clear stops scan-out, as an entry to DOZE or lower does at the end of its frame (R427, R428, R438, R517). -/
def startFrame (at' : Option Nat) (s : State) : State :=
  let s := match s.dsp.pending with
    | some (m, w) => if w < s.now then set DSP_CTRL.APPLY_PEND 0 { s with dsp.applied := m, dsp.pending := none } else s
    | none => s
  let s := forgetLines (fun _ => true) { s with dsp.firstDue := none, dsp.teWait := false }
  if dget DSP_CTRL.EN s = 0 ∨ s.pwr.entry.isSome = true then set DSP_STAT.RUN 0 { s with dsp.inFrame := false }
  else
    let f := at'.getD (s.now * dget DSP_CLK.N s)
    let s := { s with dsp.frameStart := f, dsp.nextStart := f + vTotal s.dsp.applied * hTotal s.dsp.applied * 65536, dsp.line := 0,
                      dsp.inFrame := true, dsp.sync := if dget DSP_CTRL.IF s = 1 then some (syncEvent 0) else none, dsp.lateLogged := false, dsp.curPos := (get DSP_CUR_POS.CUR_X s, get DSP_CUR_POS.CUR_Y s) }
    perFrame (raise 0x30 (askLine 1 s.now (askLine 0 s.now s)))

/-- Whether the display runs in this rung (R511). -/
def dspAwake (s : State) : Bool := get PWR_STAT.RUNG s ≤ 2 && !s.pwr.fabricStopped && on DSP_STAT.RUN s

/-- Whether scan-out has stopped for an entry to DOZE or lower that is over: EN is in force and RUN is clear. -/
def scanHeld (s : State) : Bool :=
  dget DSP_CTRL.EN s != 0 && !(on DSP_STAT.RUN s) && s.pwr.entry.isNone && !s.pwr.fabricStopped

/-- Scan-out resumes with a new frame after an exit from a rung in which it was stopped, or an entry that was abandoned (R511, R517). -/
def displayResume (s : State) : State :=
  if scanHeld s then
    let s := set DSP_STAT.RUN 1 { s with dsp.inFrame := false }
    if dget DSP_CTRL.IF s != 0 && initPending s then s
    else
      let d := oneMicro s
      { d.2 with dsp.firstDue := some (s.now + d.1) }
  else s

/-- DSP_FRAME: the frame that the timing registers call for starts when it is due; for an entry to DOZE or lower scan-out stops instead (R517). -/
def dspFrame (s : State) : State :=
  let s := displayResume s
  if !(dspAwake s) then s
  else
    let te := dget DSP_CTRL.IF s == 2 && on DSP_TE.EN s
    let cmd := dget DSP_CTRL.IF s == 2 && s.dsp.cmd.isSome
    let stop := s.pwr.entry.isSome || (match s.dsp.pending with | some (m, w) => regGet DSP_CTRL.EN m == 0 && w < s.now | none => false)
    match s.dsp.firstDue with
    | some d => if d ≤ s.now && !cmd && (!te || stop) then startFrame none s else s
    | none =>
      if !s.dsp.inFrame then s
      else if te then (if stop && !(transferRuns s) then startFrame none s else s)
      else
        let due := s.dsp.nextStart / Nat.max 1 (dget DSP_CLK.N s)
        if due ≤ s.now && !cmd then startFrame (if due = s.now then some s.dsp.nextStart else none) s else s

/-- Meaning of DSP_FRAME. -/
def execDspFrame (s : State) : Host.Outcome State Fault Refusal := .next (dspFrame s)

/-- The levels of DSP_HSYNC, DSP_VSYNC and DSP_DE at pixel `x` of frame line `l` in parallel RGB mode by their polarities; while scan-out is stopped
they are driven low (R428, R435). -/
def rgbSyncs (l x : Nat) (s : State) : Bool × Bool × Bool :=
  if dget DSP_CTRL.EN s = 0 ∨ ¬ s.dsp.inFrame = true then (false, false, false)
  else
    let pol := fun (i : Nat) => bit (dget DSP_POL.POLS s) i
    let x0 := dget DSP_HTIM0.HSYNC s + dget DSP_HTIM1.HBP s
    (decide (x < dget DSP_HTIM0.HSYNC s) != pol 0, decide (l < dget DSP_VTIM0.VSYNC s) != pol 1,
      decide (firstActive s ≤ l ∧ l < firstActive s + dget DSP_VTIM0.VACT s ∧ x0 ≤ x ∧ x < x0 + dget DSP_HTIM0.HACT s) != pol 2)

/-- A write of DSP_LINECMP applies from the next line (R438): the value that stood before it is kept with its slot. -/
def lineCmpWrite (v : Nat) (s : State) : State :=
  set DSP_LINECMP.LINE v { s with dsp.cmps := s.dsp.cmps ++ [(s.now, get DSP_LINECMP.LINE s)] }

/-- LINE as it stood when active line `v` started. -/
def lineCmpOf (v : Nat) (s : State) : Nat :=
  match s.dsp.cmps.find? (fun c => pixelSlot (firstActive s + v) 0 s ≤ c.1) with
  | some c => c.2
  | none => get DSP_LINECMP.LINE s

/-- The packet head of a line: the packed pixel stream of video mode, or the DCS long write of command mode (R433, R434). -/
def lineHead (v : Nat) (s : State) : List Nat :=
  match dget DSP_CTRL.IF s with
  | 1 => [match dget DSP_CTRL.FMT s with | 0 => 0x0E | 1 => 0x1E | _ => 0x3E]
  | 2 => [0x39, if v = 0 then 0x2C else 0x3C]
  | _ => []

/-- DISPLAY_LINE: the next active line is sent once its slot is reached (R423, R429, R431, R438). -/
def displayLine (s : State) : State :=
  let v := s.dsp.line
  if !(dspAwake s) || !s.dsp.inFrame || dget DSP_VTIM0.VACT s ≤ v || s.now < lineSlot v s then s
  else
    let c := composeLine v s
    let cmp := lineCmpOf v s
    let s := set DSP_STAT.LINE v { s with
      dsp.lastLine := c.1, dsp.lastHead := lineHead v s, dsp.line := v + 1, dsp.cmps := [],
      dsp.sync := if dget DSP_CTRL.IF s = 1 then some (syncEvent (firstActive s + v)) else none,
      dsp.eotp := dget DSP_CTRL.IF s != 0 && on DSP_DSI.EOTP s }
    let s := if c.2 then s
      else
        let s := bump DSP_CNT.UNDERRUN s
        if s.dsp.lateLogged then s else fault 0x0C02 0 (get DSP_CNT.UNDERRUN s) 0 { s with dsp.lateLogged := true }
    let s := if cmp = v then raise 0x31 s else s
    askLine (v + 2) (lineEnd v s) (forgetLines (fun l => l == v) s)

/-- Meaning of DISPLAY_LINE. -/
def execDisplayLine (s : State) : Host.Outcome State Fault Refusal := .next (displayLine s)

/-- A frame start paced by TE: a pending command goes first (R434). -/
def teStart (s : State) : State := if s.dsp.cmd.isSome then { s with dsp.teWait := true } else startFrame none s

/-- Whether a first frame may start yet. -/
def firstReady (s : State) : Bool := match s.dsp.firstDue with | some d => d ≤ s.now | none => s.dsp.inFrame

/-- TE_EDGE: an active edge starts a command-mode frame, or is skipped during a transfer (R434). -/
def teEdge (s : State) : State :=
  if !(dspAwake s) || dget DSP_CTRL.IF s != 2 || !(on DSP_TE.EN s) then s
  else if transferRuns s then bump DSP_CNT.TE_SKIP s
  else if firstReady s then teStart s else s

/-- Meaning of TE_EDGE. -/
def execTeEdge (s : State) : Host.Outcome State Fault Refusal := .next (teEdge s)

/-- The slot from which the TE timeout counts: the last frame start, or for the first frame the slot from which it may start. -/
def teFrom (s : State) : Nat := match s.dsp.firstDue with | some d => d | none => s.dsp.frameStart / Nat.max 1 (dget DSP_CLK.N s)

/-- TE_TIMEOUT: without an edge within TIMEOUT ms the next frame starts at once (R434). -/
def teTimeout (s : State) : State :=
  if dspAwake s && dget DSP_CTRL.IF s == 2 && on DSP_TE.EN s && !(transferRuns s) && firstReady s && !s.dsp.teWait &&
      decide (teFrom s + 1024000 * Nat.max 1 (get DSP_TE.TIMEOUT s) ≤ s.now) then
    let s := bump DSP_CNT.TE_MISS s
    let s := if s.dsp.teLogged then s else fault 0x0C05 0 0 0 { s with dsp.teLogged := true }
    teStart s
  else s

/-- Meaning of TE_TIMEOUT. -/
def execTeTimeout (s : State) : Host.Outcome State Fault Refusal := .next (teTimeout s)

/-! ## Panel commands (R436, R437) -/

/-- Slots in 1 ms. -/
abbrev slots1ms : Nat := 1024000

/-- The earliest end of the wait for an acknowledge: 1 ms less 0.1 ms (R436). -/
abbrev ackSlots : Nat := 921600

/-- A command goes to the panel, with its packet code (R436); with ACK an acknowledge is awaited. -/
def sendCommand (b : List Nat) (s : State) : State :=
  let code := match b.length with | 1 => 0x05 | 2 => 0x15 | _ => 0x39
  { s with dsp.sent := code :: b, dsp.ackDue := if on DSP_DSI.ACK s then some (s.now + ackSlots) else none }

/-- Whether the vertical blanking lasts at least 20 µs. -/
def blankingLong (s : State) : Bool :=
  let m := s.dsp.applied
  decide (20480 * regGet DSP_CLK.N m ≤ (vTotal m - regGet DSP_VTIM0.VACT m) * hTotal m * 65536)

/-- A write of DSP_CMD (R437). -/
def dspCmdWrite (v : Nat) (s : State) : State :=
  let s := set DSP_CMD.LEN v s
  if !(bit v 8) then s
  else
    let len := v % 8
    let data := (leBytes 4 (get DSP_CMD_DATA.DATA s)).take len
    let iface := dget DSP_CTRL.IF s
    let bad := len == 0 || 4 < len || !([0x11, 0x29, 0x34, 0x35].contains (data.headD 0)) || iface == 0 || !(on DSP_STAT.RUN s) ||
      (iface == 1 && !(blankingLong s)) || s.dsp.cmd.isSome
    if bad then fault 0x0C06 0 0 0 (set DSP_STAT.CMD_REFUSED 1 s)
    else set DSP_STAT.CMD_PEND 1 { s with dsp.cmd := some (data, s.now) }

/-- Meaning of DSP_CMD_GO. -/
def execDspCmdGo (value : Nat) (s : State) : Host.Outcome State Fault Refusal := .next (dspCmdWrite value s)

/-- Whether a pending command may go: from the first line of the next vertical blanking in video mode, between frames in command mode. -/
def cmdWindow (w : Nat) (s : State) : Bool :=
  if dget DSP_CTRL.IF s = 1 then
    let blank := pixelSlot (firstActive s + dget DSP_VTIM0.VACT s) 0 s
    s.dsp.inFrame && decide (w ≤ blank) && decide (blank ≤ s.now)
  else !(transferRuns s)

/-- DSP_CMD_SEND: the pending command is sent; a frame that waited for it starts. -/
def dspCmdSend (s : State) : State :=
  match s.dsp.cmd with
  | none => s
  | some (b, w) =>
    if dspAwake s && cmdWindow w s then
      let s := sendCommand b (set DSP_STAT.CMD_PEND 0 { s with dsp.cmd := none })
      if s.dsp.teWait then startFrame none s else s
    else s

/-- Meaning of DSP_CMD_SEND. -/
def execDspCmdSend (s : State) : Host.Outcome State Fault Refusal := .next (dspCmdSend s)

/-- The init list begins after BOOT_DONE; on RGB it is not sent (R436). -/
def startInit (s : State) : State :=
  if s.dsp.initList.isEmpty then s
  else if dget DSP_CTRL.IF s = 0 then fault 0x0C06 0 0 0 { s with dsp.initEnd := some s.now }
  else { s with dsp.initNext := some (0, s.now) }

/-- PANEL_INIT_ENTRY: the next init entry is sent once the DELAY of the one before it has passed and no acknowledge is awaited; after the
last DELAY the list has ended, and a waiting first frame falls due 1 µs later (R428, R436). -/
def panelInitEntry (s : State) : State :=
  match s.dsp.initNext with
  | none => s
  | some (k, due) =>
    if s.now < due ∨ s.dsp.ackDue.isSome = true then s
    else match s.dsp.initList[k]? with
      | some e => sendCommand e.bytes { s with dsp.initNext := some (k + 1, s.now + slots1ms * e.delay) }
      | none =>
        let s := { s with dsp.initNext := none, dsp.initEnd := some s.now }
        if on DSP_STAT.RUN s && !s.dsp.inFrame && s.dsp.firstDue.isNone then
          let d := oneMicro s
          { d.2 with dsp.firstDue := some (s.now + d.1) }
        else s

/-- Meaning of PANEL_INIT_ENTRY. -/
def execPanelInitEntry (s : State) : Host.Outcome State Fault Refusal := .next (panelInitEntry s)

/-- A missing or bad acknowledge (R436). -/
def ackError (s : State) : State := fault 0x0C04 0 0 0 (set DSP_STAT.ACK_ERR 1 s)

/-- Meaning of PANEL_ACK. -/
def execPanelAck (error : Bool) (s : State) : Host.Outcome State Fault Refusal :=
  .next (if s.dsp.ackDue.isNone then s
    else if error then ackError { s with dsp.ackDue := none } else { s with dsp.ackDue := none })

/-- Meaning of ACK_TIMEOUT: no answer within 1 ms. -/
def execAckTimeout (s : State) : Host.Outcome State Fault Refusal :=
  .next (match s.dsp.ackDue with
    | some d => if d ≤ s.now then ackError { s with dsp.ackDue := none } else s
    | none => s)

end Sys2Proof.Machine
end

