-- ==== Sys2Proof/Machine/SeqCore.lean ====
section
/-! DEFINITION. The Borilaond core (R324 to R374): registers, issue, exceptions, interrupts, system registers, abort, coverage. -/

namespace Sys2Proof.Machine

/-! ## General registers and issue (R325, R354 to R358) -/

/-- A general register; g0 reads as zero (R325). -/
def gr (a : Fin 16) (s : State) : Word := if a = 0 then 0 else s.seq.g[a]

/-- Writes a general register, which a dependent instruction may use `wait` cycles after the present one (R358); a write to g0 is
discarded (R325). -/
def setG (d : Fin 16) (v : Word) (wait : Nat) (s : State) : State :=
  if d = 0 then s
  else { s with seq.g := s.seq.g.set d v, seq.ready := put s.seq.ready d.val (2 * (s.now / 2 + wait)) }

/-- Whether a register's value may be used in the present cycle (R358). -/
def isReady (a : Fin 16) (s : State) : Bool := a == 0 || decide (look s.seq.ready a.val 0 ≤ s.now)

/-- The cycle counter (R338): it counts from release while the core is not stopped. -/
def cycleNow (s : State) : Nat :=
  if s.seq.released && !s.pwr.seqStopped then s.seq.sys.cycle + (s.now - s.seq.sys.cycleFrom) / 2 else s.seq.sys.cycle

/-- Whether an interrupt source is pending (R340). -/
def irqPending (i : Nat) (s : State) : Bool :=
  if i < 16 then 0 < get (EVT_STOP_CNT.COUNT (32 + i)) s
  else if i < 48 then bit (get DMA_GEND.END s) (i - 16)
  else if i = 48 then on HFR_REQ_STAT.PENDING s
  else if i = 49 then s.seq.sys.tcPend
  else if i = 50 then 0 < get LOG_STAT.DEPTH s
  else if 56 ≤ i ∧ i < 64 then s.seq.sys.swi.getLsbD (i - 56)
  else false

/-- The level of a source (R337). -/
def irqLevelOf (i : Nat) (s : State) : Nat := bits s.seq.sys.irqLvl.toNat (2 * i) 2

/-- Whether a source is pending and enabled. -/
def irqOn (i : Nat) (s : State) : Bool := s.seq.sys.irqEn.getLsbD i && irqPending i s

/-- The interrupt level that qualifies (R341), the highest. -/
def irqNow (s : State) : Option Nat :=
  if s.seq.sys.ie then
    ([3, 2, 1, 0].find? (fun n => decide (s.seq.sys.lvl < n + 1) && (List.range 64).any (fun i => irqOn i s && irqLevelOf i s == n)))
  else none

/-- Whether a refused store is to be reported at the next boundary (R347). -/
def storeErrDue (s : State) : Bool := s.seq.storeErr.isSome && decide (s.seq.sys.lvl < 5)

/-- Whether the core runs: released, not in LOCKUP, not aborting, not stopped by the ladder. -/
def coreRuns (s : State) : Bool :=
  s.seq.released && (get SYS_SEQ_STAT.STATE s == 1 || get SYS_SEQ_STAT.STATE s == 2) && s.seq.abortAt.isNone && !s.pwr.seqStopped

/-- Whether an instruction may issue now: the core runs, its time has come (R358), and neither a STORE_ERR nor an interrupt is taken
instead (R341, R347). DESIGN CHOICE: log entry 52. -/
def mayIssue (s : State) : Bool :=
  coreRuns s && decide (s.seq.busyUntil ≤ s.now) && !(storeErrDue s) && (irqNow s).isNone

/-- Whether an instruction of the integer or multiply kind may issue: an outstanding load stops only those that use its register
(R357). -/
def aluOk (reads : List (Fin 16)) (d : Fin 16) (s : State) : Bool :=
  mayIssue s && reads.all (fun a => isReady a s) &&
    (match s.seq.load with
     | none => true
     | some l => l.d == 0 || (!(reads.contains l.d) && d != l.d))

/-- Whether any other instruction may issue. -/
def otherOk (reads : List (Fin 16)) (s : State) : Bool :=
  mayIssue s && reads.all (fun a => isReady a s) && s.seq.load.isNone

/-- The instruction at pc completes: the next may issue after `cost` cycles, interrupts may be taken after `bnd` (R358, R372). -/
def retireTo (next : Word) (cost bnd : Nat) (s : State) : State :=
  set SYS_SEQ_STAT.STATE 1 (set SYS_SEQ_PC.PC s.seq.pc.toNat
    { s with seq.pc := next, seq.busyUntil := 2 * (s.now / 2 + cost), seq.boundary := 2 * (s.now / 2 + bnd), seq.div := none })

/-- The same with the next instruction in sequence. -/
def retire (cost bnd : Nat) (s : State) : State := retireTo (s.seq.pc + 4) cost bnd s

/-- A wait for coverage is over (R370): the instruction issues, or an interrupt, an exception or an abort is taken instead. DEDUCED: log entry 61. -/
def endWait (s : State) : State :=
  if s.seq.waitLogged || on SYS_SEQ_COV.WAIT s then set SYS_SEQ_COV.WAIT 0 { s with seq.waitLogged := false } else s

/-! ## Exceptions (R346 to R348) -/

/-- STATUS as it is saved. -/
def statusBits (s : State) : Nat := b2n s.seq.sys.ie + 2 * s.seq.sys.lvl

/-- Entry to level X: CAUSE, BADADDR, EPCX and ESTATX are written, the vector is `VBASE + ofs`. -/
def enterX (code info bad : Nat) (epc : Word) (ofs : Word) (s : State) : State :=
  { s with
    seq.pc := s.seq.sys.vbase + ofs
    seq.busyUntil := 2 * (s.now / 2 + 5)
    seq.boundary := 2 * (s.now / 2 + 1)
    seq.div := none
    seq.sys := { s.seq.sys with causeCode := code, causeInfo := info, badaddr := BitVec.ofNat 32 bad, epc := s.seq.sys.epc.set 4 epc,
                                estat := s.seq.sys.estat.set 4 (statusBits s), lvl := 5 } }

/-- An exception: it enters level X, or at level X brings LOCKUP, where pc keeps the address of the instruction that raised it (R348, R349). A
STORE_ERR is never raised there (R347). -/
def exception (code info bad : Nat) (instr epc : Word) (s : State) : State :=
  if 5 ≤ s.seq.sys.lvl then
    fault 0x0902 0 0 s.seq.sys.causeCode (set SYS_SEQ_STAT.STATE 3 { s with seq.pc := instr })
  else
    let s := if code ≤ 6 then fault 0x0901 0 bad code s else s
    set SYS_SEQ_STAT.STATE 1 (enterX code info bad epc 0x10 s)

/-- A precise exception of the instruction at pc. -/
def precise (code info bad : Nat) (s : State) : State := exception code info bad s.seq.pc s.seq.pc s

/-- A running division is abandoned: its d and pc are as before it (R366). -/
def abandonDiv (s : State) : State :=
  match s.seq.div with
  | some (pc, d, old) =>
    if s.now < s.seq.busyUntil then
      { s with seq.pc := pc, seq.div := none, seq.busyUntil := s.now, seq.g := if d = 0 then s.seq.g else s.seq.g.set d old }
    else { s with seq.div := none }
  | none => s

/-- Whether a division is in its last cycle, in which it completes (R366). -/
def divEnds (s : State) : Bool := s.seq.div.isSome && decide (s.seq.busyUntil ≤ s.now + 2 ∧ s.now < s.seq.busyUntil)

/-- Whether an instruction boundary is there (R341, R372): a division in its last cycle stands. -/
def boundaryHere (s : State) : Bool := coreRuns s && s.seq.load.isNone && decide (s.seq.boundary ≤ s.now) && !(divEnds s)

/-- STORE_ERR at a boundary below level X (R347); a division under way is abandoned (R366; DEDUCED, log entry 127). -/
def storeErrTaken (s : State) : State :=
  match s.seq.storeErr with
  | some (a, prot) =>
    if boundaryHere s && decide (s.seq.sys.lvl < 5) then
      let s := endWait (abandonDiv { s with seq.storeErr := none })
      exception 6 (b2n prot) a s.seq.pc s.seq.pc s
    else s
  | none => s

/-- Meaning of STORE_ERR. -/
def execStoreErr (s : State) : Host.Outcome State Fault Refusal := .next (storeErrTaken s)

/-! ## Interrupts (R340 to R345) -/

/-- Entry to interrupt level `n` (R342). -/
def enterLevel (n : Fin 4) (s : State) : State :=
  set SYS_SEQ_STAT.STATE 1
    { s with
      seq.pc := s.seq.sys.vbase + BitVec.ofNat 32 (0x20 + 0x10 * n.val)
      seq.busyUntil := 2 * (s.now / 2 + 4)
      seq.boundary := 2 * (s.now / 2 + 1)
      seq.sys := { s.seq.sys with epc := s.seq.sys.epc.set n.val s.seq.pc, estat := s.seq.sys.estat.set n.val (statusBits s), lvl := n.val + 1 } }

/-- Whether an interrupt may be taken now: a boundary at which no STORE_ERR is due. -/
def atBoundary (s : State) : Bool := boundaryHere s && !(storeErrDue s)

/-- INTERRUPT_ENTRY: at a boundary the core takes the highest qualifying level. -/
def interruptEntry (s : State) : State :=
  if atBoundary s then
    match irqNow s with
    | some n => enterLevel (Fin.ofNat 4 n) (endWait (abandonDiv s))
    | none => s
  else s

/-- Meaning of INTERRUPT_ENTRY. -/
def execInterruptEntry (s : State) : Host.Outcome State Fault Refusal := .next (interruptEntry s)

/-- TCMP_REACHED: with EN set and CYCLE at or above TCMP, PEND is set (R339). -/
def tcmpReached (s : State) : State :=
  if s.seq.sys.tcEn && decide (s.seq.sys.tcmp.toNat ≤ cycleNow s % 2 ^ 64) && s.seq.released && !s.pwr.seqStopped then { s with seq.sys.tcPend := true } else s

/-- Meaning of TCMP_REACHED. -/
def execTcmpReached (s : State) : Host.Outcome State Fault Refusal := .next (tcmpReached s)

/-! ## Integer instructions (R328, R329) -/

/-- Completion of a one-cycle integer instruction that writes d. -/
def aluWrite (d : Fin 16) (v : Word) (s : State) : State := retire 1 1 (setG d v 1 s)

/-- An R-form integer instruction. -/
def aluR (f : Word → Word → Word) (d a b : Fin 16) (s : State) : State :=
  if aluOk [a, b] d s then aluWrite d (f (gr a s) (gr b s)) s else s

/-- An I-form integer instruction. -/
def aluI (f : Word → Word) (d a : Fin 16) (s : State) : State :=
  if aluOk [a] d s then aluWrite d (f (gr a s)) s else s

/-- A multiplication: its result takes two cycles. -/
def mulR (f : Word → Word → Word) (d a b : Fin 16) (s : State) : State :=
  if aluOk [a, b] d s then retire 1 1 (setG d (f (gr a s) (gr b s)) 2 s) else s

/-- A division: it holds IS for 34 cycles and may be abandoned meanwhile (R366). DEDUCED: log entry 57. -/
def divR (f : Word → Word → Word) (d a b : Fin 16) (s : State) : State :=
  if otherOk [a, b] s then
    let t := retire 34 1 (setG d (f (gr a s) (gr b s)) 34 s)
    { t with seq.div := some (s.seq.pc, d, gr d s) }
  else s

/-- Quotient and remainder of R329. -/
def divS (a b : Word) : Word := if b = 0 then -1 else if a = 0x80000000 ∧ b = -1 then 0x80000000 else BitVec.ofInt 32 (a.toInt.tdiv b.toInt)
def divU (a b : Word) : Word := if b = 0 then -1 else a / b
def remS (a b : Word) : Word := if b = 0 then a else if a = 0x80000000 ∧ b = -1 then 0 else BitVec.ofInt 32 (a.toInt.tmod b.toInt)
def remU (a b : Word) : Word := if b = 0 then a else a % b

/-- High halves of the products. -/
def mulHS (a b : Word) : Word := BitVec.ofInt 32 (a.toInt * b.toInt / 2 ^ 32)
def mulHU (a b : Word) : Word := BitVec.ofNat 32 (a.toNat * b.toNat / 2 ^ 32)

/-- The number of leading zeros of the low `n` bits of a number. -/
def leadingZeros : Nat → Nat → Nat
  | 0, _ => 0
  | n + 1, v => if bit v n then 0 else leadingZeros n v + 1

/-- The number of set bits among the low `n`. -/
def setBits : Nat → Nat → Nat
  | 0, _ => 0
  | n + 1, v => setBits n v + b2n (bit v n)

/-- A Bool as a word. -/
def flagWord (b : Bool) : Word := if b then 1 else 0

/-- The sign-extended immediate (R327). -/
def imm14s (i : BitVec 14) : Word := i.signExtend 32
/-- The zero-extended immediate (R327). -/
def imm14u (i : BitVec 14) : Word := i.zeroExtend 32
/-- The shift amount of a register. -/
def amount (v : Word) : Nat := v.toNat % 32

def execAdd (d a b : Fin 16) (s : State) : Host.Outcome State Fault Refusal := .next (aluR (· + ·) d a b s)
def execSub (d a b : Fin 16) (s : State) : Host.Outcome State Fault Refusal := .next (aluR (· - ·) d a b s)
def execAnd (d a b : Fin 16) (s : State) : Host.Outcome State Fault Refusal := .next (aluR (· &&& ·) d a b s)
def execOr (d a b : Fin 16) (s : State) : Host.Outcome State Fault Refusal := .next (aluR (· ||| ·) d a b s)
def execXor (d a b : Fin 16) (s : State) : Host.Outcome State Fault Refusal := .next (aluR (· ^^^ ·) d a b s)
def execNor (d a b : Fin 16) (s : State) : Host.Outcome State Fault Refusal := .next (aluR (fun x y => ~~~(x ||| y)) d a b s)
def execSll (d a b : Fin 16) (s : State) : Host.Outcome State Fault Refusal := .next (aluR (fun x y => x <<< amount y) d a b s)
def execSrl (d a b : Fin 16) (s : State) : Host.Outcome State Fault Refusal := .next (aluR (fun x y => x >>> amount y) d a b s)
def execSra (d a b : Fin 16) (s : State) : Host.Outcome State Fault Refusal := .next (aluR (fun x y => x.sshiftRight (amount y)) d a b s)
def execSlt (d a b : Fin 16) (s : State) : Host.Outcome State Fault Refusal := .next (aluR (fun x y => flagWord (x.slt y)) d a b s)
def execSltu (d a b : Fin 16) (s : State) : Host.Outcome State Fault Refusal := .next (aluR (fun x y => flagWord (x.ult y)) d a b s)
def execMin (d a b : Fin 16) (s : State) : Host.Outcome State Fault Refusal := .next (aluR (fun x y => if x.slt y then x else y) d a b s)
def execMax (d a b : Fin 16) (s : State) : Host.Outcome State Fault Refusal := .next (aluR (fun x y => if x.slt y then y else x) d a b s)
def execMul (d a b : Fin 16) (s : State) : Host.Outcome State Fault Refusal := .next (mulR (· * ·) d a b s)
def execMulh (d a b : Fin 16) (s : State) : Host.Outcome State Fault Refusal := .next (mulR mulHS d a b s)
def execMulhu (d a b : Fin 16) (s : State) : Host.Outcome State Fault Refusal := .next (mulR mulHU d a b s)
def execDiv (d a b : Fin 16) (s : State) : Host.Outcome State Fault Refusal := .next (divR divS d a b s)
def execDivu (d a b : Fin 16) (s : State) : Host.Outcome State Fault Refusal := .next (divR divU d a b s)
def execRem (d a b : Fin 16) (s : State) : Host.Outcome State Fault Refusal := .next (divR remS d a b s)
def execRemu (d a b : Fin 16) (s : State) : Host.Outcome State Fault Refusal := .next (divR remU d a b s)
def execClz (d a : Fin 16) (s : State) : Host.Outcome State Fault Refusal :=
  .next (aluI (fun x => BitVec.ofNat 32 (leadingZeros 32 x.toNat)) d a s)
def execPopc (d a : Fin 16) (s : State) : Host.Outcome State Fault Refusal :=
  .next (aluI (fun x => BitVec.ofNat 32 (setBits 32 x.toNat)) d a s)
def execAddi (d a : Fin 16) (imm : BitVec 14) (s : State) : Host.Outcome State Fault Refusal := .next (aluI (· + imm14s imm) d a s)
def execAndi (d a : Fin 16) (imm : BitVec 14) (s : State) : Host.Outcome State Fault Refusal := .next (aluI (· &&& imm14u imm) d a s)
def execOri (d a : Fin 16) (imm : BitVec 14) (s : State) : Host.Outcome State Fault Refusal := .next (aluI (· ||| imm14u imm) d a s)
def execXori (d a : Fin 16) (imm : BitVec 14) (s : State) : Host.Outcome State Fault Refusal := .next (aluI (· ^^^ imm14u imm) d a s)
def execSlti (d a : Fin 16) (imm : BitVec 14) (s : State) : Host.Outcome State Fault Refusal :=
  .next (aluI (fun x => flagWord (x.slt (imm14s imm))) d a s)
def execSltiu (d a : Fin 16) (imm : BitVec 14) (s : State) : Host.Outcome State Fault Refusal :=
  .next (aluI (fun x => flagWord (x.ult (imm14s imm))) d a s)
def execSlli (d a : Fin 16) (n : BitVec 5) (s : State) : Host.Outcome State Fault Refusal := .next (aluI (fun x => x <<< n.toNat) d a s)
def execSrli (d a : Fin 16) (n : BitVec 5) (s : State) : Host.Outcome State Fault Refusal := .next (aluI (fun x => x >>> n.toNat) d a s)
def execSrai (d a : Fin 16) (n : BitVec 5) (s : State) : Host.Outcome State Fault Refusal := .next (aluI (fun x => x.sshiftRight n.toNat) d a s)

/-- The mask of a field of `n1 + 1` bits. -/
def fieldMask (n1 : BitVec 5) : Word := BitVec.ofNat 32 (2 ^ (n1.toNat + 1) - 1)

/-- ILLEGAL of the instruction at pc (R326, R328, R336, R345). -/
def illegalNow (info : Nat) (s : State) : State := if otherOk [] s then precise 1 info 0 s else s

/-- bext: with p + n above 32 it raises ILLEGAL (R328). -/
def execBext (d a : Fin 16) (p n1 : BitVec 5) (s : State) : Host.Outcome State Fault Refusal :=
  .next (if 32 < p.toNat + n1.toNat + 1 then illegalNow 0 s else aluI (fun x => (x >>> p.toNat) &&& fieldMask n1) d a s)

/-- bins reads its d as well. -/
def execBins (d a : Fin 16) (p n1 : BitVec 5) (s : State) : Host.Outcome State Fault Refusal :=
  .next (if 32 < p.toNat + n1.toNat + 1 then illegalNow 0 s
    else if aluOk [a, d] d s then
      aluWrite d ((gr d s &&& ~~~(fieldMask n1 <<< p.toNat)) ||| ((gr a s &&& fieldMask n1) <<< p.toNat)) s
    else s)

def execLui (d : Fin 16) (imm : BitVec 18) (s : State) : Host.Outcome State Fault Refusal :=
  .next (if aluOk [] d s then aluWrite d (imm.zeroExtend 32 <<< 14) s else s)
def execAuipc (d : Fin 16) (imm : BitVec 18) (s : State) : Host.Outcome State Fault Refusal :=
  .next (if aluOk [] d s then aluWrite d (s.seq.pc + (imm.zeroExtend 32 <<< 14)) s else s)

/-! ## Branches and jumps (R327, R328, R360) -/

/-- A branch: 4 cycles taken, 1 not taken. -/
def branch (test : Word → Word → Bool) (a b : Fin 16) (off : BitVec 14) (s : State) : State :=
  if otherOk [a, b] s then
    if test (gr a s) (gr b s) then retireTo (s.seq.pc + (imm14s off <<< 2)) 4 1 s else retire 1 1 s
  else s

def execBeq (a b : Fin 16) (off : BitVec 14) (s : State) : Host.Outcome State Fault Refusal := .next (branch (fun x y => x == y) a b off s)
def execBne (a b : Fin 16) (off : BitVec 14) (s : State) : Host.Outcome State Fault Refusal := .next (branch (fun x y => x != y) a b off s)
def execBlt (a b : Fin 16) (off : BitVec 14) (s : State) : Host.Outcome State Fault Refusal := .next (branch (fun x y => x.slt y) a b off s)
def execBge (a b : Fin 16) (off : BitVec 14) (s : State) : Host.Outcome State Fault Refusal := .next (branch (fun x y => !(x.slt y)) a b off s)
def execBltu (a b : Fin 16) (off : BitVec 14) (s : State) : Host.Outcome State Fault Refusal := .next (branch (fun x y => x.ult y) a b off s)
def execBgeu (a b : Fin 16) (off : BitVec 14) (s : State) : Host.Outcome State Fault Refusal := .next (branch (fun x y => !(x.ult y)) a b off s)

def execJal (d : Fin 16) (imm : BitVec 18) (s : State) : Host.Outcome State Fault Refusal :=
  .next (if otherOk [] s then retireTo (s.seq.pc + (imm.signExtend 32 <<< 2)) 4 1 (setG d (s.seq.pc + 4) 4 s) else s)

/-- jalr reads a before it writes d. -/
def execJalr (d a : Fin 16) (imm : BitVec 14) (s : State) : Host.Outcome State Fault Refusal :=
  .next (if otherOk [a] s then retireTo ((gr a s + imm14s imm) &&& 0xFFFFFFFC) 4 1 (setG d (s.seq.pc + 4) 4 s) else s)

/-! ## System registers (R336 to R339, R344) -/

/-- IRQ_ID: the lowest pending and enabled source of the current interrupt level; bit 31 says that none qualifies (R344). -/
def irqId (s : State) : Word :=
  let lvl := s.seq.sys.lvl
  if 1 ≤ lvl ∧ lvl ≤ 4 then
    match (List.range 64).find? (fun i => irqOn i s && irqLevelOf i s + 1 == lvl) with
    | some i => BitVec.ofNat 32 i
    | none => 0x80000000
  else 0x80000000

/-- The pending sources as a number. -/
def irqPendBits (s : State) : Nat := ((List.range 64).map (fun i => 2 ^ i * b2n (irqPending i s))).foldl (· + ·) 0

/-- A read of a system register: its value and the state after the captures of R338; none where no register has the number. -/
def sysRead (num : Nat) (s : State) : Option (Word × State) :=
  let r := s.seq.sys
  let w := fun (n : Nat) => some (BitVec.ofNat 32 n, s)
  if num = 0x000 then w (statusBits s)
  else if num = 0x001 then some (r.vbase, s)
  else if num = 0x002 then w (r.causeCode + 65536 * r.causeInfo)
  else if num = 0x003 then some (r.badaddr, s)
  else if 0x004 ≤ num ∧ num ≤ 0x008 then some (r.epc.toList.getD (num - 4) 0, s)
  else if 0x00C ≤ num ∧ num ≤ 0x010 then w (r.estat.toList.getD (num - 0xC) 0)
  else if num = 0x020 then w (r.irqEn.toNat % 2 ^ 32)
  else if num = 0x021 then w (r.irqEn.toNat / 2 ^ 32)
  else if num = 0x022 then w (irqPendBits s % 2 ^ 32)
  else if num = 0x023 then w (irqPendBits s / 2 ^ 32)
  else if 0x024 ≤ num ∧ num ≤ 0x027 then w (bits r.irqLvl.toNat (32 * (num - 0x24)) 32)
  else if num = 0x028 then some (irqId s, s)
  else if num = 0x029 then w 0
  else if num = 0x02A then w r.swi.toNat
  else if num = 0x030 then
    some (BitVec.ofNat 32 (cycleNow s), { s with seq.sys.cycleCap := BitVec.ofNat 64 (cycleNow s) })
  else if num = 0x031 then w (r.cycleCap.toNat / 2 ^ 32)
  else if num = 0x032 then w (r.tcmp.toNat % 2 ^ 32)
  else if num = 0x033 then w (r.tcmp.toNat / 2 ^ 32)
  else if num = 0x034 then w (b2n r.tcEn + 2 * b2n r.tcPend)
  else if num = 0x038 then w (b2n r.fenced + 2 * b2n r.multi)
  else if num = 0x040 then some (BitVec.ofNat 32 (tick s), { s with seq.sys.tickCap := BitVec.ofNat 64 (tick s) })
  else if num = 0x041 then w (r.tickCap.toNat / 2 ^ 32)
  else none

/-- A 64-bit register with one of its words replaced. -/
def setHalf (v : BitVec 64) (hi : Bool) (x : Nat) : BitVec 64 :=
  if hi then BitVec.ofNat 64 (v.toNat % 2 ^ 32 + 2 ^ 32 * x) else BitVec.ofNat 64 (v.toNat / 2 ^ 32 * 2 ^ 32 + x)

/-- IRQ_LVL with one of its words replaced. -/
def setLvlWord (v : BitVec 128) (k x : Nat) : BitVec 128 :=
  BitVec.ofNat 128 (v.toNat - bits v.toNat (32 * k) 32 * 2 ^ (32 * k) + x * 2 ^ (32 * k))

/-- A write of a system register; none where it is read-only or absent (R336). DEDUCED: log entry 56. -/
def sysWrite (num : Nat) (v : Word) (s : State) : Option SysRegs :=
  let r := s.seq.sys
  let x := v.toNat
  if num = 0x000 then some { r with ie := bit x 0 }
  else if num = 0x001 then some { r with vbase := v &&& 0x3FF00 }
  else if 0x004 ≤ num ∧ num ≤ 0x007 then some { r with epc := r.epc.setIfInBounds (num - 4) (v &&& 0xFFFFFFFC) }
  else if num = 0x008 then some { r with epc := r.epc.set 4 v }
  else if 0x00C ≤ num ∧ num ≤ 0x010 then some { r with estat := r.estat.setIfInBounds (num - 0xC) (x % 16) }
  else if num = 0x020 then some { r with irqEn := setHalf r.irqEn false x }
  else if num = 0x021 then some { r with irqEn := setHalf r.irqEn true x }
  else if 0x024 ≤ num ∧ num ≤ 0x027 then some { r with irqLvl := setLvlWord r.irqLvl (num - 0x24) x }
  else if num = 0x029 then some { r with swi := r.swi ||| BitVec.ofNat 8 x }
  else if num = 0x02A then some { r with swi := r.swi &&& ~~~(BitVec.ofNat 8 x) }
  else if num = 0x032 then some { r with tcmp := setHalf r.tcmp false x }
  else if num = 0x033 then some { r with tcmp := setHalf r.tcmp true x }
  else if num = 0x034 then some { r with tcEn := bit x 0, tcPend := r.tcPend && !(bit x 1) }
  else if num = 0x038 then some { r with fenced := r.fenced && !(bit x 0), multi := r.multi && !(bit x 1) }
  else none

/-- sysrd: ILLEGAL with the number where no register has it (R336). -/
def execSysrd (d : Fin 16) (num : BitVec 14) (s : State) : Host.Outcome State Fault Refusal :=
  .next (if otherOk [] s then
    (match sysRead num.toNat s with
     | some (v, t) => retire 1 1 (setG d v 2 t)
     | none => precise 1 num.toNat 0 s)
  else s)

/-- syswr: it takes effect before the next boundary; ILLEGAL for a read-only or absent register (R336). -/
def execSyswr (a : Fin 16) (num : BitVec 14) (s : State) : Host.Outcome State Fault Refusal :=
  .next (if otherOk [a] s then
    (match sysWrite num.toNat (gr a s) s with
     | some r => retire 2 2 { s with seq.sys := r }
     | none => precise 1 num.toNat 0 s)
  else s)

/-- eret at level 1 to 5 returns; else ILLEGAL (R345). -/
def eret (s : State) : State :=
  let lvl := s.seq.sys.lvl
  if 1 ≤ lvl ∧ lvl ≤ 5 then
    let st := s.seq.sys.estat.toList.getD (lvl - 1) 0
    retireTo (s.seq.sys.epc.toList.getD (lvl - 1) 0 &&& 0xFFFFFFFC) 4 1
      { s with seq.sys := { s.seq.sys with ie := bit st 0, lvl := bits st 1 3 } }
  else precise 1 0 0 s

def execEret (s : State) : Host.Outcome State Fault Refusal := .next (if otherOk [] s then eret s else s)

/-! ## Events, fences, traps (R333 to R335) -/

/-- waitev: consumes a count of the stop, or waits (R335). -/
def execWaitev (n : BitVec 4) (s : State) : Host.Outcome State Fault Refusal :=
  .next (if otherOk [] s then
    (if canRun (32 + n.toNat) s then retire 1 1 (consume (32 + n.toNat) s) else set SYS_SEQ_STAT.STATE 2 s)
  else s)

/-- pollev: evaluates once (R335). -/
def execPollev (d : Fin 16) (n : BitVec 4) (s : State) : Host.Outcome State Fault Refusal :=
  .next (if otherOk [] s then
    (if canRun (32 + n.toNat) s then retire 1 1 (setG d 1 2 (consume (32 + n.toNat) s)) else retire 1 1 (setG d 0 2 s))
  else s)

/-- Whether every earlier store has taken effect and the group buffer is clean (R365). -/
def drained (s : State) : Bool := s.seq.buffer.isEmpty && groupClean s

/-- An instruction that waits for the stores: meanwhile the write-back of a dirty group is asked for. -/
def waitStores (s : State) : State := if s.seq.buffer.isEmpty then askClean s else s

/-- setev raises SWn as an EVT_SW write does, so that both in one slot are one event (R312), once every earlier store has taken effect
(R332, R335, R365). -/
def execSetev (n : BitVec 4) (s : State) : Host.Outcome State Fault Refusal :=
  .next (if otherOk [] s then (if drained s then retire 1 1 (evtWrite EVT_SW.addr (2 ^ n.toNat) s) else waitStores s) else s)

/-- fence (R333, R365). -/
def execFence (s : State) : Host.Outcome State Fault Refusal :=
  .next (if otherOk [] s then (if drained s then retire 1 1 s else waitStores s) else s)

/-- iflush drops the XIP line buffers and fetches anew (R362). -/
def execIflush (s : State) : Host.Outcome State Fault Refusal :=
  .next (if otherOk [] s then retire 4 1 { s with seq.xip := [] } else s)

def execTrap (imm : BitVec 14) (s : State) : Host.Outcome State Fault Refusal :=
  .next (if otherOk [] s then precise 8 imm.toNat 0 s else s)
def execBrk (s : State) : Host.Outcome State Fault Refusal := .next (if otherOk [] s then precise 9 0 0 s else s)

/-! ## Abort and release (R324, R349) -/

/-- The core is released at ENTRY (R95, R324). -/
def releaseCore (s : State) : State :=
  set SYS_SEQ_STAT.STATE 1
    { s with seq := { s.seq with g := Vector.replicate 16 0, pc := BitVec.ofNat 32 s.boot.entry, sys := { cycleFrom := s.now },
                                 released := true, busyUntil := s.now, boundary := s.now, ready := [] } }

/-- A sequencer abort is requested: no more instructions issue; an XIP load in progress ends with its data discarded (R349, R393). -/
def seqAbortRequest (s : State) : State :=
  if s.seq.released && s.seq.abortAt.isNone then
    let s := endWait (abandonDiv s)
    let xipLoad : Bool := match s.seq.load with | some l => seqRegion l.addr == .xip | none => false
    set SYS_SEQ_STAT.STATE 4 { s with seq.abortAt := some s.now, seq.xipMiss := none, seq.load := if xipLoad then none else s.seq.load }
  else s

/-- Meaning of SEQUENCER_ABORT_REQUEST. -/
def execSequencerAbortRequest (s : State) : Host.Outcome State Fault Refusal := .next (seqAbortRequest s)

/-- SEQUENCER_ABORT: once issued loads and stores are done, the core enters the abort vector at level X (R349). -/
def seqAbortEnter (s : State) : State :=
  if s.seq.abortAt.isSome && s.seq.load.isNone && s.seq.buffer.isEmpty then
    fault 0x0903 0 0 0 (bump SYS_SEQ_STAT.ABORTS (set SYS_SEQ_STAT.STATE 1
      { enterX 15 0 0 s.seq.pc 0 s with seq.abortAt := none }))
  else s

/-- Meaning of SEQUENCER_ABORT. -/
def execSequencerAbort (s : State) : Host.Outcome State Fault Refusal := .next (seqAbortEnter s)

/-! ## Coverage (R368, R370, R371) -/

/-- Read or masked-write coverage of a bank by a plan. -/
def PlanImage.bankCovered (p : PlanImage) (op bank : Nat) : Bool :=
  everyWindow (fun s => ((p.claimsOf s).filter (fun c => c.owner == seqOwner && c.op == op && c.bank == bank)).length) 256 1

/-- A run of the core on a channel: the OP of its entries, how many, the slots of its OPEN and CLOSE (which may wrap). -/
structure SeqRun where
  op : Nat
  entries : Nat
  opened : Nat
  closed : Nat
  deriving DecidableEq, Repr

/-- The core's runs on a channel, in slot order of their OPENs (R38, R578). -/
def PlanImage.seqRuns (p : PlanImage) (ch : Nat) : List SeqRun :=
  let mine := fun (e : Entry) => e.owner == seqOwner && e.ch == ch
  (slots.filter (fun s => mine (p.entry s) && (p.entry s).open')).map (fun s =>
    let op := (p.entry s).op
    let span := (List.range 512).map (fun i => (s + i) % 4096)
    let same := fun (k : Nat) => mine (p.entry k) && (p.entry k).op == op
    let upTo := (span.takeWhile (fun k => !(same k && (p.entry k).close)))
    ⟨op, (upTo.filter same).length + 1, s, s + upTo.length⟩)

/-- The pairs of R368 of one kind on a channel: the slots of their two OPENs. -/
def PlanImage.seqPairs (p : PlanImage) (ch op1 n1 op2 n2 : Nat) : List (Nat × Nat) :=
  let l := p.seqRuns ch
  let next := l.drop 1 ++ (l.take 1).map (fun r => { r with opened := r.opened + 4096, closed := r.closed + 4096 })
  ((l.zip next).filter (fun x => x.1.op == op1 && x.1.entries == n1 && x.2.op == op2 && x.2.entries == n2 &&
    decide (x.2.closed ≤ x.1.opened + 31))).map (fun x => (x.1.opened, x.2.opened))

/-- Whether every cyclic window of 512 slots holds both OPENs of some pair. -/
def pairCovers (l : List (Nat × Nat)) : Bool :=
  slots.all (fun w => l.any (fun p => (let o := (p.1 + 4096 - w) % 4096; decide (o + (p.2 - p.1) < 512))))

/-- Boulevard coverage of a channel: a read pair and a write pair in every window. -/
def PlanImage.blvCovered (p : PlanImage) (ch : Nat) : Bool :=
  pairCovers (p.seqPairs ch 4 1 2 8) && pairCovers (p.seqPairs ch 1 8 3 1)

/-- Coverage bits of banks from `lo` up. DEDUCED: log entry 58. -/
def coverBits (p : PlanImage) (op lo : Nat) : Nat := ((List.range 32).map (fun i => 2 ^ i * b2n (p.bankCovered op (lo + i)))).foldl (· + ·) 0

/-- Whether the core has coverage for a line in a direction, and after a DORMANT exit the Boulevard is up (R370, R519). -/
def lineCovered (line : Addr) (write : Bool) (s : State) : Bool :=
  if inSquare line then
    let b := bankOf line
    if write then bit (get (if b < 32 then SYS_SEQ_COV_MW_LO.BANKS else SYS_SEQ_COV_MW_HI.BANKS) s) (b % 32)
    else bit (get (if b < 32 then SYS_SEQ_COV_RD_LO.BANKS else SYS_SEQ_COV_RD_HI.BANKS) s) (b % 32)
  else if blvBase ≤ line then bit (get SYS_SEQ_COV.BLV s) (blvCh line) && on BLV_STAT.UP s
  else true

/-- Coverage of the plan that a swap brings, and the end of issued accesses that it does not cover (R368, R371). -/
def seqSwap (s : State) : State :=
  let s := match activeSlot s with
    | none => s
    | some n =>
      let p := storeImage n s
      set SYS_SEQ_COV_RD_LO.BANKS (coverBits p 0 0) (set SYS_SEQ_COV_RD_HI.BANKS (coverBits p 0 32)
        (set SYS_SEQ_COV_MW_LO.BANKS (coverBits p 2 0) (set SYS_SEQ_COV_MW_HI.BANKS (coverBits p 2 32)
          (set SYS_SEQ_COV.BLV (b2n (p.blvCovered 0) + 2 * b2n (p.blvCovered 1)) s))))
  let cov := fun (l : Addr) (w : Bool) =>
    if blvBase ≤ l then bit (get SYS_SEQ_COV.BLV s) (blvCh l) else lineCovered l w s
  let lostLoads : List Addr := match s.seq.load with
    | some l => (l.lines.filter (fun x => x.2.isNone && !(cov x.1 false) &&
        !(s.memory.flight.any (fun f => f.tag == AccTag.load && f.addr == x.1)))).map (·.1)
    | none => []
  let dropped := fun (e : StoreEntry) => (linesOf e.addr e.size).any (fun l => !(cov l true))
  let lostStores := s.seq.buffer.any dropped
  let lostGroup : Bool := match s.seq.group with | some b => b.dirty && !(bit (get SYS_SEQ_COV.BLV s) b.ch) | none => false
  let lostWant : Bool := match s.seq.groupWant with | some w => !(bit (get SYS_SEQ_COV.BLV s) w.1) | none => false
  let s := lostLoads.foldl (fun s l =>
    loadLine l (List.replicate 64 0) false false { s with memory.acc := s.memory.acc.filter (fun a => !(a.tag == .load && a.addr == l)) }) s
  let s := if lostStores then
    submitHead { s with memory.acc := s.memory.acc.filter (fun a => !(a.tag == .store)),
                        seq.buffer := match s.seq.buffer.filter (fun e => !(dropped e)) with
                          | e :: l => { e with head := Nat.max e.head s.now } :: l
                          | [] => [] } else s
  let s := if lostGroup then
    { s with seq.group := none, memory.acc := s.memory.acc.filter (fun a => !(a.tag == .group && a.kind == .write)) } else s
  let s := if lostWant then
    { s with seq.groupWant := none, memory.acc := s.memory.acc.filter (fun a => !(a.tag == .group && a.kind == .read)),
             memory.flight := s.memory.flight.filter (fun f => !(f.tag == .group)),
             memory.reading := s.memory.reading.filter (fun r => !(r.tag == .group)) } else s
  if !lostLoads.isEmpty || lostStores || lostGroup then fault 0x0905 0 0 0 (set SYS_SEQ_COV.LOST 1 s) else s

/-- What SYS_SEQ_STAT and SYS_SEQ_COV show beside what is kept in them (R353, R374). -/
def refreshSeq (s : State) : State :=
  set SYS_SEQ_STAT.LVL s.seq.sys.lvl (set SYS_SEQ_STAT.CODE s.seq.sys.causeCode (setB SYS_SEQ_COV.DIRTY (!(groupClean s)) s))

end Sys2Proof.Machine
end

