-- ==== Sys2Proof/Machine/Plan.lean ====
section
/-! DEFINITION. Plans: mode changes (R8 to R11), the plan store (R47, R60), verification (R34, R35, R48), swaps (R49 to R53), and what the
swap boundary does. -/

namespace Sys2Proof.Machine

/-! ## The plan store (R47, R60) -/

/-- Whether a store slot is active, pending or under verification: writes to it are dropped (R47). -/
def slotLocked (n : Nat) (s : State) : Bool :=
  activeSlot s == some n || (match s.plan.swap with | some w => w.1 == n | none => false) || s.plan.queue.contains n

/-- Whether a store slot's VALID bit is set. -/
def slotValid (n : Nat) (s : State) : Bool := bit (get SQ_PLAN_STAT.VALID s) n

/-- Clears or sets a VALID bit. -/
def setValid (n : Nat) (b : Bool) (s : State) : State :=
  let v := get SQ_PLAN_STAT.VALID s
  set SQ_PLAN_STAT.VALID (v - (if bit v n then 2 ^ n else 0) + (if b then 2 ^ n else 0)) s

/-- One word of the store is written, or the write is dropped (R47). -/
def storeWrite (word v : Nat) (s : State) : State :=
  let n := word / 32768
  if slotLocked n s then set SQ_PLAN_STAT.PS_REFUSED 1 s else setStoreWord word v (setValid n false s)

/-- WADDR goes on to the next word, wrapping at the end (R60). -/
def nextWaddr (s : State) : State := set SQ_PS_ADDR.WADDR (get SQ_PS_ADDR.WADDR s + 1) s

/-- A write of SQ_PS_DATA. -/
def psDataWrite (v : Nat) (s : State) : State := nextWaddr (storeWrite (get SQ_PS_ADDR.WADDR s) v (set SQ_PS_DATA.DATA v s))

/-- Meaning of PS_DATA_WRITE. -/
def execPsDataWrite (value : Nat) (s : State) : Host.Outcome State Fault Refusal := .next (psDataWrite value s)

/-- A read of SQ_PS_DATA: the word at WADDR, which stands in the register's place. -/
def psDataRead (s : State) : State := nextWaddr (set SQ_PS_DATA.DATA (storeWord (get SQ_PS_ADDR.WADDR s) s) s)

/-- Meaning of PS_DATA_READ. -/
def execPsDataRead (s : State) : Host.Outcome State Fault Refusal := .next (psDataRead s)

/-! ## Verification (R34, R35, R48) -/

/-- Writes a code into SQ_PLAN_REJ (R59). The refusals 0x30 to 0x34 write SLOT 0 and AUX 0; the spec says so of AUX for swap refusals only
(DESIGN CHOICE, log entry 121). -/
def reject (code slot aux store : Nat) (s : State) : State :=
  set SQ_PLAN_REJ.CODE code (set SQ_PLAN_REJ.SLOT slot (set SQ_PLAN_REJ.AUX aux (set SQ_PLAN_REJ.STORE store (set SQ_PLAN_REJ.NEW 1 s))))

/-- The value of SQ_PLAN_REJ (R59). -/
def planRej (s : State) : Nat :=
  get SQ_PLAN_REJ.CODE s + 2 ^ 8 * get SQ_PLAN_REJ.SLOT s + 2 ^ 20 * get SQ_PLAN_REJ.AUX s + 2 ^ 26 * get SQ_PLAN_REJ.STORE s +
    2 ^ 31 * get SQ_PLAN_REJ.NEW s

/-- A VERIFY command (R48). -/
def verifyCmd (n : Nat) (s : State) : State :=
  if s.plan.queue.contains n then s
  else if (match s.plan.swap with | some w => w.1 == n | none => false) then reject 0x34 0 0 n s
  else set SQ_PLAN_STAT.VERIFY_BUSY 1 (setValid n false { s with plan.queue := s.plan.queue ++ [n] })

/-- Meaning of VERIFY. -/
def execVerify (slot : Nat) (s : State) : Host.Outcome State Fault Refusal := .next (verifyCmd (slot % 8) s)

/-- The oldest verification completes: VALID on acceptance; code, fault and event on rejection (R34, R48). -/
def verifyComplete (s : State) : State :=
  match s.plan.queue with
  | [] => s
  | n :: rest =>
    let s := setB SQ_PLAN_STAT.VERIFY_BUSY (!rest.isEmpty) { s with plan.queue := rest }
    match (storeImage n s).verdict (dispNeed s.dsp.applied) with
    | none => setValid n true s
    | some r =>
      let s := reject r.code r.slot r.aux n s
      raise 0x25 (fault 0x0110 n (planRej s) 0 s)

/-- Meaning of VERIFY_COMPLETE. -/
def execVerifyComplete (s : State) : Host.Outcome State Fault Refusal := .next (verifyComplete s)

/-- An INVALIDATE command (R57). -/
def invalidateCmd (n : Nat) (s : State) : State := if slotLocked n s then reject 0x33 0 0 n s else setValid n false s

/-- Meaning of INVALIDATE. -/
def execInvalidate (slot : Nat) (s : State) : Host.Outcome State Fault Refusal := .next (invalidateCmd (slot % 8) s)

/-! ## Swap commands and mode changes (R8 to R11, R49) -/

/-- The mode that a swap serves. -/
def swapMode (s : State) : Nat := s.plan.modeChange.getD (get SYS_MODE.ACTIVE s)

/-- A SWAP command, judged in the order of R49. -/
def swapCmd (n : Nat) (s : State) : State :=
  if s.plan.queue.contains n then reject 0x32 0 0 n s
  else if !(slotValid n s) then reject 0x30 0 0 n s
  else if storeMode n s ≠ swapMode s then reject 0x31 0 0 n s
  else pendSwap n s

/-- Meaning of SWAP. -/
def execSwap (slot : Nat) (s : State) : Host.Outcome State Fault Refusal := .next (swapCmd (slot % 8) s)

/-- A write of SQ_PLAN_CMD (R57). -/
def planCmdWrite (v : Nat) (s : State) : State :=
  match bits v 4 2 with
  | 1 => verifyCmd (bits v 0 3) s
  | 2 => swapCmd (bits v 0 3) s
  | 3 => invalidateCmd (bits v 0 3) s
  | _ => s

/-- A refused mode change (R11): MODE keeps what it was before the write. DEDUCED: log entry 50. -/
def refuseMode (cause : Nat) (s : State) : State := set SYS_MODE.MODE_REFUSED 1 (set SYS_MODE.REFUSE_CAUSE cause s)

/-- The plan that R9 chooses for a mode among eligible store slots. -/
def chooseForMode (m : Nat) (eligible : List Nat) (s : State) : Option Nat :=
  match choosePlan m (eligible.filter (fun n => storeConfig n s == activeConfig s)) s with
  | some n => some n
  | none =>
    match eligible.find? (fun n => isPrimary m n s) with
    | some n => some n
    | none => choosePlan m eligible s

/-- A mode-change request for a mode other than MODE (R8 to R11, R215). -/
def modeRequest (m : Nat) (s : State) : State :=
  let rung := get PWR_STAT.RUNG s
  let family := (List.range 8).filter (fun n => storeHolds n s && storeMode n s == m)
  let eligible := family.filter (fun n => slotValid n s)
  if s.abort.since = some s.now then refuseMode 4 s
  else if rung ≠ 1 ∧ rung ≠ 2 then refuseMode 1 s
  else if family.isEmpty then refuseMode 2 s
  else match chooseForMode m eligible s with
    | none => refuseMode 3 s
    | some n => implicitCommit (set SYS_MODE.SWAP_PENDING 1 (set SYS_MODE.MODE m { pendSwap n s with plan.modeChange := some m }))

/-- A write of SYS_MODE: MODE_REFUSED is cleared by a 1 and takes REFUSE_CAUSE with it (R17); then MODE is judged, so that a refusal by the same
write sets both anew. The spec gives no order of the two. DESIGN CHOICE: log entry 122. -/
def modeWrite (v : Nat) (s : State) : State :=
  let s := if bit v 16 then set SYS_MODE.MODE_REFUSED 0 (set SYS_MODE.REFUSE_CAUSE 0 s) else s
  let m := bits v 0 3
  if m = get SYS_MODE.MODE s then s else modeRequest m s

/-- Meaning of MODE_CHANGE_REQUEST. -/
def execModeChangeRequest (value : Nat) (s : State) : Host.Outcome State Fault Refusal := .next (modeWrite value s)

/-! ## The swap (R50 to R53, R55, R130) -/

/-- Whether a record is open in the sense of R50. A SLOT record that is armed without a fire does not count: a pending swap discards every fire
(R194), so it could never close. DEDUCED: log entry 22. -/
def recordOpen (s : State) : Bool :=
  s.record.recs.any (fun r => r.phase != .armed) || anySeqOpen s || (mode s == 4 && s.record.running)

/-- The quarter groups of a CONFIG as lists of quarters (R107). -/
def quarterGroups (cfg : Nat) : List (List Nat) :=
  match cfg with
  | 1 => [[0, 1, 2, 3]]
  | 2 => [[0, 1], [2, 3]]
  | _ => [[0], [1], [2], [3]]

/-- Whether a quarter holds a hole. -/
def quarterHole (q : Nat) (s : State) : Bool :=
  match s.ave.quarters[q]? with
  | some x => x.held.any (·.isNone)
  | none => false

/-- The QSEL that HALVE commits for a new CONFIG (R130), where some group is free of holes: `served` are the inputs served before.
DEDUCED: log entry 51. -/
def halveQsel (cfg input : Nat) (served : List Nat) (s : State) : Option Nat :=
  let gs := quarterGroups cfg
  match gs.find? (fun g => g.all (fun q => !(quarterHole q s))) with
  | none => none
  | some g0 =>
    let order := (List.range 4).filter (fun c => served.contains c && c != input) ++ (List.range 4).filter (fun c => !(served.contains c) && c != input)
    let rest := (gs.filter (fun g => g != g0)).zip order
    let sel := fun (q : Nat) => if g0.contains q then input else ((rest.find? (fun x => x.1.contains q)).map (·.2)).getD 0
    some (sel 0 + 4 * sel 1 + 16 * sel 2 + 64 * sel 3)

/-- The HALVE commit that comes with its swap, or fault 0x0205. -/
def halveCommit (input : Nat) (served : List Nat) (s : State) : State :=
  match halveQsel (activeConfig s) input served s with
  | none => fault 0x0205 input 0 0 s
  | some v =>
    let s := set AVE_CFG.QSEL v s
    let s := implicitCommit { s with committed := regSet AVE_CFG.QSEL v s.committed }
    fault 0x0204 input 0 0 s

/-- The Boulevard closes every open run (R52). -/
def closeRuns (s : State) : State :=
  s.plan.runs.foldl (fun s r => match runBank r with | some b => closeBank r.ch b s | none => s) { s with plan.runs := [] }

/-- Whether an access or a read on its way belongs to an accumulation or persistence unit. -/
def unitTag (t : AccTag) : Bool :=
  match t with
  | .au _ => true
  | .per => true
  | _ => false

/-- Reads of the accumulation and persistence units whose write claims would lie past the boundary were not issued: their lines wait again (R52). -/
def takeBack (s : State) : State :=
  let held := fun (a : Acc) => paired a && decide (s.now ≤ a.ready)
  let back := (s.memory.acc.filter held).map (fun a => ({ a with kind := .read, data := [], enables := [], ready := s.now } : Acc)) ++
    (s.memory.flight.filter (fun f => unitTag f.tag)).map (fun f => (⟨f.owner, f.addr, .read, [], [], f.tag, s.now⟩ : Acc))
  { s with memory.acc := back ++ s.memory.acc.filter (fun a => !(held a)),
           memory.flight := s.memory.flight.filter (fun f => !(unitTag f.tag)) }

/-- What the swap does to the plan's registers. PENDING keeps the store slot of the last pending swap; the spec is silent on it once
SWAP_PENDING is clear (DESIGN CHOICE, log entry 123). -/
def showPlan (n : Nat) (s : State) : State :=
  let s := set SQ_PLAN_STAT.ACTIVE n (set SQ_PLAN_STAT.SWAP_PENDING 0 (set SYS_MODE.SWAP_PENDING 0 (set SQ_PLAN_ID.ID (storeImage n s).planId s)))
  let s := if slotValid n s then clearCause 2 s else s
  set DMA_GSTAT.C0_SQ (b2n (storeImage n s).c0Sq) (set DMA_GSTAT.C0_BLV (b2n (storeImage n s).c0Blv) s)

/-- A plan becomes active at the boundary that follows the present slot. `now` stands at that boundary while events are raised. A CONFIG that
changes within a mode is an implicit commit (R53, R215), but for the boot's own swap, which the boot commit serves; the phase is taken modulo the
new range (R120). -/
def takePlan (n : Nat) (s : State) : State :=
  let old := activeConfig s
  let served := (groups old s).map (·.2.2)
  let boot := s.boot.phase == .swapping
  let s := takeBack (closeRuns { s with now := s.now + 1 })
  let s := showPlan n { s with plan.active := .slot n, plan.swap := none, plan.firstPeriod := true, plan.period0 := s.now }
  let wasMode := s.plan.modeChange.isSome
  let s := match s.plan.modeChange with
    | some m => endOverride (set SYS_MODE.ACTIVE m { s with plan.modeChange := none })
    | none => s
  let s := seqSwap (displaySwap (dropArmed s))
  let s := if phaseRange (activeConfig s) ≤ s.ave.phase then setPhase (s.ave.phase % phaseRange (activeConfig s)) s else s
  let s := if !boot && !wasMode && activeConfig s != old then implicitCommit s else s
  let s := match s.ave.halve with
    | some (input, k) => (let s := { s with ave.halve := none }
      if k = n then halveCommit input served s else s)
    | none => s
  let s := perCheck (auCheck s.committed (redSwapCheck (judgeTrigger false s)))
  let s := raise 0x24 s
  { s with now := s.now - 1 }

/-- PLAN_SWAPPED, in the last slot of a period: a pending swap written at least 2 slots before the boundary takes effect there when no
record is open (R50), once boot is complete: no swap occurs before an image has been authenticated (R83). The first swap of a boot is
BOOT_DONE's. DEDUCED: log entry 46. -/
def planSwapped (s : State) : State :=
  match s.plan.swap with
  | none => s
  | some (n, since) =>
    if s.plan.running && s.boot.phase == .done && s.now % 4096 == 4095 && decide (since + 2 ≤ s.now + 1) && !(recordOpen s) then takePlan n s else s

/-- Meaning of PLAN_SWAPPED. -/
def execPlanSwapped (s : State) : Host.Outcome State Fault Refusal := .next (planSwapped s)

end Sys2Proof.Machine
end

