-- ==== Sys2Proof/Machine/Faults.lean ====
section
/-! DEFINITION. The error log (R528 to R536) and requests for a global abort (R537, R541). -/

namespace Sys2Proof.Machine

/-! ## The log ring (R528, R531) -/

/-- The 32 bytes of an entry (R528). -/
def entryBytes (e : LogEntry) : List Nat :=
  let b := leBytes 2 e.code ++ [e.unit % 256, 1 + 2 * e.cls + 16 * b2n e.prior] ++ leBytes 4 e.eseq ++ leBytes 8 e.time ++ [0, 0] ++ [0, 0] ++
    leBytes 4 e.d0 ++ leBytes 4 e.d1
  b ++ leBytes 4 (crc32c b)

/-- An entry is pushed: WR moves on; at depth 256 the oldest entry is replaced and counted as lost (R531). -/
def pushLog (e : LogEntry) (s : State) : State :=
  let s := engineWrite (logAddr s) (entryBytes e) s
  let s := set LOG_IDX.WR (get LOG_IDX.WR s + 1) s
  let s := if get LOG_STAT.DEPTH s = 256 then bump LOG_STAT.LOST (set LOG_IDX.RD (get LOG_IDX.RD s + 1) s)
    else set LOG_STAT.DEPTH (get LOG_STAT.DEPTH s + 1) s
  raise 0x3D { s with log.retained := (s.log.retained ++ [e]).drop (s.log.retained.length - 7) }

/-- LOG_ENTRY_WRITE: a turn of the Alley serves the oldest waiting entry (R276, R530). -/
def logEntryWrite (s : State) : State :=
  if s.memory.logTurn = some s.now then
    let s := { s with memory.logTurn := none }
    match s.log.hold with
    | [] => s
    | e :: rest => pushLog e { s with log.hold := rest }
  else s

/-- Meaning of LOG_ENTRY_WRITE. -/
def execLogEntryWrite (s : State) : Host.Outcome State Fault Refusal := .next (logEntryWrite s)

/-- The pop of queue 15 (R531). -/
def logPop (s : State) : State :=
  if get LOG_STAT.DEPTH s = 0 then s
  else set LOG_STAT.DEPTH (get LOG_STAT.DEPTH s - 1) (set LOG_IDX.RD (get LOG_IDX.RD s + 1) s)

/-- Meaning of LOG_POP. -/
def execLogPop (s : State) : Host.Outcome State Fault Refusal := .next (logPop s)

/-- LOG_CTRL.CLEAR: RD takes WR (R531). -/
def logClear (s : State) : State := set LOG_STAT.DEPTH 0 (set LOG_IDX.RD (get LOG_IDX.WR s) s)

/-- Meaning of LOG_CLEAR. -/
def execLogClear (s : State) : Host.Outcome State Fault Refusal := .next (logClear s)

/-- A write of LOG_CTRL: the clear applies first. -/
def logCtrlWrite (v : Nat) (s : State) : State :=
  let s := if bit v 1 then logClear s else s
  if bit v 0 then logPop s else s

/-- The registers that show the log as it stands: entries waiting, and the entry at RD (R531). -/
def refreshLog (s : State) : State :=
  let e := readBytes (sqBase + 0x1880000 + 32 * get LOG_IDX.RD s) 32 s
  let s := set LOG_STAT.WAITING s.log.hold.length s
  (List.range 8).foldl (fun s i => set (LOG_ENT.WORD i) (if get LOG_STAT.DEPTH s = 0 then 0 else ofLe (slice e (4 * i) 4)) s) s

/-! ## The first slot of the tick count (R536, R580) -/

/-- The tick count has started: retained entries of the run before are put first, then 0x1102 takes this boot's first ESEQ, then the
held faults follow in their order. -/
def startLog (s : State) : State :=
  let early := s.log.early
  let s := { s with log.early := [] }
  let s := if get LOG_RST_CAUSE.CAUSE s = 1 then
      let prior := s.log.retained.map (fun e => { e with prior := true })
      let s := set LOG_RST_CAUSE.PRIOR prior.length { s with log.hold := prior, log.retained := [] }
      fault 0x1102 0 prior.length 1 s
    else s
  early.foldl (fun s e => holdEntry e s) s

/-! ## Requests for a global abort (R537, R541) -/

/-- Whether the boot has ended, on the test path at once. -/
def bootEnded (s : State) : Bool := s.boot.phase == .done || s.boot.phase == .test

/-- The bits of a source mask, as a count. -/
def srcCount (m : Nat) : Nat := ((List.range 4).filter (bit m)).length

/-- A request: it starts an abort, or joins the one in progress; during boot and while the fabric is stopped it is held (R541). -/
def abortRequest (src : Nat) (s : State) : State :=
  if !(bootEnded s) || s.pwr.fabricStopped then
    (if bit s.abort.held src then { s with abort.heldMore := s.abort.heldMore + 1 } else { s with abort.held := s.abort.held ||| 2 ^ src })
  else if s.abort.since.isSome then
    bump LOG_ABORT_STAT.MERGED (set LOG_ABORT_STAT.SRC (get LOG_ABORT_STAT.SRC s ||| 2 ^ src) s)
  else
    bump LOG_ABORT_STAT.COUNT (set LOG_ABORT_STAT.SRC (2 ^ src) (set LOG_ABORT_STAT.BUSY 1
      { s with abort.since := some s.now, abort.acted := false }))

/-- Held requests act: one abort serves them all, and each but the first counts in MERGED (R541). DEDUCED: log entry 77. -/
def releaseHeld (s : State) : State :=
  let m := s.abort.held
  let more := s.abort.heldMore
  let s := ((List.range 4).filter (bit m)).foldl (fun s i => abortRequest i s) { s with abort.held := 0, abort.heldMore := 0 }
  (List.range more).foldl (fun s _ => bump LOG_ABORT_STAT.MERGED s) s

/-- A write of LOG_ABORT_CTRL. -/
def abortCtrlWrite (v : Nat) (s : State) : State :=
  let s := setB LOG_ABORT_CTRL.SEQ (bit v 8) s
  if bit v 0 then abortRequest 2 s else s

/-- Meaning of REQ_GLOBAL_ABORT: a write of LOG_ABORT_CTRL.REQ. -/
def execReqGlobalAbort (s : State) : Host.Outcome State Fault Refusal := .next (abortRequest 2 s)

end Sys2Proof.Machine
end

