-- ==== Sys2Proof/Machine/Serial.lean ====
section
/-! DEFINITION. The serial ports SP0 and SP2 word by word (R377 to R384), the XIP windows and template (R385 to R393), malformed SP1
transactions (R400) and port aborts (R402, R403). -/

namespace Sys2Proof.Machine

/-! ## Ports and their registers -/

/-- Port 0 is SP0, any other SP2. -/
def spOf (p : Nat) (s : State) : SpPort := if p = 0 then s.sp.p0 else s.sp.p2

/-- Changes a port. -/
def setSp (p : Nat) (f : SpPort → SpPort) (s : State) : State :=
  if p = 0 then { s with sp.p0 := f s.sp.p0 } else { s with sp.p2 := f s.sp.p2 }

/-- A field of SP2 by its SP0 field: the blocks lie 0x20000 apart. -/
def spFld (p : Nat) (F : Fld) : Fld := if p = 0 then F else { F with addr := F.addr + 0x20000 }

/-- A field that both blocks hold under one name with one reset value. -/
def spGet (p : Nat) (F : Fld) (s : State) : Nat := get (spFld p F) s
def spSet (p : Nat) (F : Fld) (v : Nat) (s : State) : State := set (spFld p F) v s

/-- Whether a port is enabled. -/
def spEnabled (p : Nat) (s : State) : Bool := if p = 0 then on SP0_CTRL.ENABLE s else on SP2_CTRL.ENABLE s

/-- Whether SP2 is a slave (R375). -/
def isSlave (p : Nat) (s : State) : Bool := p != 0 && on SP2_CTRL.ROLE s

/-- The SPn_CFG word as it stands. -/
def cfgWord (p : Nat) (s : State) : Nat :=
  spGet p SP0_CFG.FREQ s + 16 * spGet p SP0_CFG.CPOL s + 32 * spGet p SP0_CFG.CPHA s + (if p = 0 then 0 else 64 * get SP2_CFG.SELMODE s) +
    256 * spGet p SP0_CFG.SETUP s + 4096 * spGet p SP0_CFG.HOLD s + 65536 * spGet p SP0_CFG.IDLE s

/-- The frequency of a FREQ code in units of 10 Hz (R378); codes outside the table are never in use. -/
def freqOf (c : Nat) : Nat :=
  match c with
  | 0 => 2500000 | 1 => 5000000 | 2 => 10000000 | 3 => 13300000 | 4 => 16600000 | 5 => 20000000
  | 8 => 1250000 | 9 => 625000 | 10 => 312500 | 11 => 156250 | 12 => 78125
  | _ => 2500000

/-- The slots that half clocks take at a FREQ code, rounded up: the nominal frequency, of which R378 allows 1 %. -/
def halfSlots (freq h : Nat) : Nat := ceilDiv (h * 51200000) (freqOf freq)

/-- Whether a FREQ code is allowed for a port (R378). -/
def freqAllowed (p c : Nat) : Bool := if p = 0 then c ≤ 5 else c ≤ 2 || (8 ≤ c && c ≤ 12)

/-! ## Entries (R379, R380) -/

def SpEntry.kind (e : SpEntry) : Nat := bits e.word 0 3
def SpEntry.lanes (e : SpEntry) : Nat := 2 ^ bits e.word 3 2
def SpEntry.dtr (e : SpEntry) : Bool := bit e.word 5
def SpEntry.bytes (e : SpEntry) : Nat := bits e.word 6 2 + 1
def SpEntry.clks (e : SpEntry) : Nat := bits e.word 8 5 + 1
def SpEntry.cont (e : SpEntry) : Bool := bit e.word 16
def SpEntry.sel (e : SpEntry) : Nat := bits e.word 20 4

/-- Whether an entry receives. -/
def SpEntry.receives (e : SpEntry) : Bool := e.kind == 1 || e.kind == 2

/-- The clocks of `n` bytes on `w` lanes, `t` transfers a clock (R377). -/
def phaseClocks (n w t : Nat) : Nat := n * 8 / (w * t)

/-- Whether bytes on lanes break R377. -/
def phaseBroken (n w t : Nat) : Bool := n * 8 % (w * t) != 0

/-- The clocks of an entry. -/
def SpEntry.clocks (e : SpEntry) : Nat := if e.kind = 3 then e.clks else phaseClocks e.bytes e.lanes (if e.dtr then 2 else 1)

/-- Whether ERR_CAUSE 1 holds for an entry (R375, R380). DEDUCED: log entry 80. -/
def entryMalformed (p : Nat) (e : SpEntry) (s : State) : Bool :=
  4 ≤ e.kind || bits e.word 13 3 != 0 || bits e.word 17 3 != 0 || bits e.word 24 8 != 0 ||
  (if e.kind = 3 then bits e.word 6 2 != 0 else bits e.word 8 5 != 0) ||
  (e.kind == 2 && e.lanes != 1) || (e.dtr && (e.lanes != 8 || p != 0)) || (p != 0 && e.lanes == 8) ||
  (e.kind != 3 && phaseBroken e.bytes e.lanes (if e.dtr then 2 else 1)) ||
  (p != 0 && get SP2_CFG.SELMODE s == 0 && 3 < e.sel) || (p == 0 && e.sel != 0) || (e.kind == 3 && isSlave p s)

/-- The cause for which a push is refused, 0 when it is accepted. A slave port has no frequency of its own. -/
def pushCause (p : Nat) (e : SpEntry) (s : State) : Nat :=
  if entryMalformed p e s then 1
  else if (spOf p s).queue.length = 16 then 2
  else if !(isSlave p s) && (!(freqAllowed p (spGet p SP0_CFG.FREQ s)) || (3 < spGet p SP0_CFG.FREQ s && p == 0 && !e.dtr)) then 3
  else 0

/-- A slave port whose select is asserted takes its next entry (R384). -/
def slaveNext (s : State) : State :=
  let x := s.sp.p2
  if isSlave 2 s && spEnabled 2 s && x.sel == some 0 && x.cur.isNone then
    match x.queue with
    | [] => s
    | e :: rest => { s with sp.p2 := { x with queue := rest, cur := some (e, 0) } }
  else s

/-- A write of SPn_CMD: the entry takes the value of SPn_TXD (R379); in the slot of a port abort it is discarded with the queue (R402). -/
def spnCmd (p v : Nat) (s : State) : State :=
  let e : SpEntry := ⟨v % 2 ^ 32, spGet p SP0_TXD.DATA s⟩
  let c := pushCause p e s
  if c = 0 ∧ (spOf p s).abortAt = some s.now then s
  else if c = 0 then
    let s := setSp p (fun x => { x with queue := x.queue ++ [e] }) s
    if p = 0 then s else slaveNext s
  else fault 0x0A01 p 0 c (spSet p SP0_STAT.ERR_CAUSE c (spSet p SP0_STAT.REFUSED 1 s))

/-- Meaning of SPN_CMD. -/
def execSpnCmd (port value : Nat) (s : State) : Host.Outcome State Fault Refusal := .next (spnCmd port value s)

/-- A read of SPn_RXD pops one word, which stands in the register's place; an empty pop reads zero (R319, R383). -/
def spnRxd (p : Nat) (s : State) : State :=
  match (spOf p s).rx with
  | [] => spSet p SP0_RXD.DATA 0 s
  | w :: rest => spSet p SP0_RXD.DATA w (setSp p (fun x => { x with rx := rest }) s)

/-- Meaning of SPN_RXD. -/
def execSpnRxd (port : Nat) (s : State) : Host.Outcome State Fault Refusal := .next (spnRxd port s)

/-- SPn_STAT's live fields (R404). -/
def refreshSp (s : State) : State :=
  [0, 2].foldl (fun s p =>
    let x := spOf p s
    spSet p SP0_STAT.BUSY (b2n (x.sel.isSome || x.cur.isSome)) (spSet p SP0_STAT.CMD_DEPTH x.queue.length (spSet p SP0_STAT.RX_DEPTH x.rx.length s))) s

/-! ## Execution (R381 to R384, R391) -/

/-- Whether SP0 stands back for an XIP line read, which runs ahead of queued entries once no sequence is held (R391, R392). -/
def xipFirst (s : State) : Bool :=
  match s.seq.xipMiss with
  | some m => m.ends.isSome || (s.sp.p0.sel.isNone && !(on SP0_XIP_CTRL.HOLD s))
  | none => false

/-- The depth of a receive queue as a receiving entry finds it: a word popped in this slot frees its place from the next one (R383). -/
def rxDepth (p : Nat) (s : State) : Nat := Nat.max (spOf p s).rx.length (nth s.evt.queues (if p = 0 then 11 else 12) {}).depth

/-- SERIAL_ENTRY_START on a master port: the select is asserted for the entry when it is not, after the end of another select's sequence, and
the entry runs for SETUP, its clocks and, with CONT clear, HOLD. A receiving entry needs a place that is free after a cycle (R383). DEDUCED: log
entry 78. -/
def serialEntryStart (p : Nat) (s : State) : State :=
  let x := spOf p s
  match x.queue with
  | [] => s
  | e :: rest =>
    if !(spEnabled p s) || isSlave p s || x.cur.isSome || (e.receives && 16 ≤ rxDepth p s) || (p == 0 && xipFirst s) ||
       (x.sel.isNone && s.now < x.idleUntil) then s
    else
      let holds := x.sel == some e.sel
      let cfg := if holds then x.cfg else cfgWord p s
      let leave := if x.sel.isSome && !holds then bits x.cfg 12 4 + 2 * bits x.cfg 16 4 else 0
      let h := (if holds then 0 else bits cfg 8 4) + 2 * e.clocks + (if e.cont then 0 else bits cfg 12 4)
      let ends := s.now + halfSlots (bits x.cfg 0 4) leave + halfSlots (bits cfg 0 4) h
      setSp p (fun y => { y with queue := rest, cur := some (e, ends), sel := some e.sel, cfg := cfg, code := e.sel }) s

/-- Meaning of SERIAL_ENTRY_START. -/
def execSerialEntryStart (port : Nat) (s : State) : Host.Outcome State Fault Refusal := .next (serialEntryStart port s)

/-- A received word enters the receive queue, or is lost in slave role (R384). -/
def pushRx (p w : Nat) (s : State) : State :=
  if (spOf p s).rx.length < 16 then setSp p (fun x => { x with rx := x.rx ++ [w % 2 ^ 32] }) s
  else fault 0x0A04 0 0 1 (spSet p SP0_STAT.RX_OVF 1 s)

/-- The remote master clocks SP2 while no entry is there: it drives 0xFF (R384). -/
def slaveUnderrun (s : State) : State := fault 0x0A04 0 0 2 (set SP2_STAT.TX_UND 1 s)

/-- SERIAL_ENTRY_END: the received bytes make one word; the select is held or released. In slave role with no entry, the transfers that end were
clocked without one. -/
def serialEntryEnd (p : Nat) (rx : List Nat) (s : State) : State :=
  match (spOf p s).cur with
  | none => if isSlave p s && (spOf p s).sel.isSome then slaveUnderrun s else s
  | some (e, t) =>
    if s.now < t then s
    else
      let s := if e.receives then pushRx p (ofLe (rx.take e.bytes)) s else s
      if isSlave p s then slaveNext (setSp p (fun x => { x with cur := none, sel := if e.cont then x.sel else some 1 }) s)
      else if e.cont then setSp p (fun x => { x with cur := none }) s
      else setSp p (fun x => { x with cur := none, sel := none, idleUntil := t + halfSlots (bits x.cfg 0 4) (2 * bits x.cfg 16 4) }) s

/-- Meaning of SERIAL_ENTRY_END. -/
def execSerialEntryEnd (port : Nat) (rx : List Nat) (s : State) : Host.Outcome State Fault Refusal := .next (serialEntryEnd port rx s)

/-- SP2_SEL0 falls in slave role: entries are consumed, or the port drives 0xFF with TX_UND (R384). DEDUCED: log entry 79. -/
def sp2Sel0Fall (s : State) : State :=
  if isSlave 2 s && spEnabled 2 s && s.sp.p2.sel.isNone then
    let s := { s with sp.p2.sel := some 0, sp.p2.cfg := cfgWord 2 s }
    if s.sp.p2.queue.isEmpty then slaveUnderrun s else slaveNext s
  else s

/-- Meaning of SP2_SEL0_FALL. -/
def execSp2Sel0Fall (s : State) : Host.Outcome State Fault Refusal := .next (sp2Sel0Fall s)

/-- SP2_SEL0 rises in slave role: an entry that runs ends with SHORT and the bytes received so far (R384). -/
def sp2SelectRise (rx : List Nat) (s : State) : State :=
  if isSlave 2 s && s.sp.p2.sel.isSome then
    let s := match s.sp.p2.cur with
      | some (e, _) =>
        let s := if e.receives && !rx.isEmpty then pushRx 2 (ofLe (rx.take e.bytes)) s else s
        set SP2_STAT.SHORT 1 s
      | none => s
    { s with sp.p2.cur := none, sp.p2.sel := none }
  else s

/-- Meaning of SP2_SELECT_RISE. -/
def execSp2SelectRise (rx : List Nat) (s : State) : Host.Outcome State Fault Refusal := .next (sp2SelectRise rx s)

/-- The levels of SP2's select outputs SP2_SEL3 to SP2_SEL0 as a number, and of SP2_STB (R382): decoded, the code stands and SP2_STB is the
select; direct, one output is low and SP2_STB stays high. None in slave role. -/
def sp2Selects (s : State) : Option (Nat × Bool) :=
  let x := s.sp.p2
  if isSlave 2 s then none
  else if bit (if x.sel.isSome then x.cfg else cfgWord 2 s) 6 then some (x.code, x.sel.isNone)
  else some (match x.sel with | some c => 15 - 2 ^ c | none => 15, true)

/-! ## Aborts (R393, R402, R403) -/

/-- The effect of an abort on SP0 or SP2: the select goes, entries and a partial word are discarded, an XIP line read ends and starts over
later (R393). -/
def dropPort (p : Nat) (s : State) : State :=
  let s := setSp p (fun x => { x with queue := [], cur := none, sel := none, idleUntil := s.now, abortAt := some s.now }) s
  let s := if p = 0 then { s with seq.xipMiss := s.seq.xipMiss.map (fun m => { m with ends := none }) } else s
  spSet p SP0_STAT.ABORTED 1 s

/-- SERIAL_ABORT. On SP1 the transaction in progress is ignored, and its frame dropped. -/
def serialAbort (p : Nat) (s : State) : State :=
  if p = 1 then fault 0x0A02 1 0 0 (set SP1_STAT.ABORTED 1 { s with sp.sp1Abort := some s.now }) else fault 0x0A02 p 0 0 (dropPort p s)

/-- Meaning of SERIAL_ABORT. -/
def execSerialAbort (port : Nat) (s : State) : Host.Outcome State Fault Refusal := .next (serialAbort port s)

/-- SP0 and SP2 at a global abort: an enabled port's code is logged (R403, R542). -/
def serialGlobalAbort (s : State) : State :=
  [0, 2].foldl (fun s p => if spEnabled p s then serialAbort p s else dropPort p s) s

/-! ## XIP windows and template (R385 to R390) -/

/-- The bounds of a window by its registers, in 4 KiB units: flash offset, window offset, length. -/
def winOf (n : Nat) (s : State) : Nat × Nat × Nat :=
  (get (SP0_WIN_FLASH.FLASH_OFS n) s, get (SP0_WIN_BASE.WIN_OFS n) s, get (SP0_WIN_LEN.LENGTH n) s)

/-- Whether a window may not be enabled (R387). The registers hold multiples of 4 KiB only. -/
def winInvalid (n : Nat) (s : State) : Bool :=
  let w := winOf n s
  let key := get (SP0_WIN_CFG.KEY n) s
  w.2.2 == 0 || 4096 < w.1 + w.2.2 || 65536 < w.2.1 + w.2.2 || (3 < key && key != 0xFF) ||
  (List.range 4).any (fun k => k != n && on (SP0_WIN_CFG.EN k) s &&
    (let v := winOf k s
     w.2.1 < v.2.1 + v.2.2 && v.2.1 < w.2.1 + w.2.2))

/-- A window or template setting is refused. -/
def refuseXip (unit : Nat) (s : State) : State := fault 0x0A05 unit 0 0 (set SP0_XIP_CTRL.WIN_REFUSED 1 s)

/-- A window goes: its lines leave the line buffers, and a miss of it that waits has no window any more. -/
def dropWindow (n : Nat) (s : State) : State :=
  { s with
    seq.xip := s.seq.xip.filter (fun l => l.window != n)
    seq.xipMiss := match s.seq.xipMiss with
      | some m => if m.window = n ∧ m.ends = none then none else some m
      | none => none }

/-- A write of SP0_WIN_CFG: of an enabled window only the clearing of EN acts. DEDUCED: log entry 81. -/
def winCfgWrite (n v : Nat) (s : State) : State :=
  if on (SP0_WIN_CFG.EN n) s then (if bit v 8 then s else dropWindow n (set (SP0_WIN_CFG.EN n) 0 s))
  else
    let s := set (SP0_WIN_CFG.KEY n) v s
    if !(bit v 8) then s else if winInvalid n s then refuseXip n s else set (SP0_WIN_CFG.EN n) 1 s

/-- Meaning of WINDOW_ENABLE: a write of SP0_WIN_CFG. -/
def execWindowEnable (n value : Nat) (s : State) : Host.Outcome State Fault Refusal := .next (winCfgWrite n value s)

/-- A write of another register of a window: dropped while the window is enabled. -/
def winFieldWrite (n : Nat) (F : Fld) (v : Nat) (s : State) : State :=
  if on (SP0_WIN_CFG.EN n) s then s else set F (v / 2 ^ F.lo) s

/-- Whether template fields break R390. -/
def tmplInvalid (v freq : Nat) : Bool :=
  let t := fun (l : Nat) => if bit v 23 && l != 0 then 2 else 1
  let broken := fun (n l : Nat) => phaseBroken n (2 ^ l) (t l)
  let cl := bits v 17 2
  broken (1 + bits v 16 1) cl || broken 4 (bits v 19 2) || broken 64 (bits v 21 2) || 5 < freq ||
  (bit v 16 && !(cl == 3 && bit v 23))

/-- A write of SP0_XIP_TMPL. -/
def templateWrite (v : Nat) (s : State) : State :=
  if tmplInvalid v (get SP0_XIP_FREQ.FREQ s) then refuseXip 4 s
  else
    set SP0_XIP_TMPL.CMD v (set SP0_XIP_TMPL.CMD2 (v / 2 ^ 16) (set SP0_XIP_TMPL.CMD_LANES (v / 2 ^ 17) (set SP0_XIP_TMPL.ADDR_LANES (v / 2 ^ 19)
      (set SP0_XIP_TMPL.DATA_LANES (v / 2 ^ 21) (set SP0_XIP_TMPL.DTR (v / 2 ^ 23) (set SP0_XIP_TMPL.DUMMY (v / 2 ^ 24)
        (set SP0_XIP_TMPL.DQS_EN (v / 2 ^ 29) s)))))))

/-- Meaning of TEMPLATE_WRITE. -/
def execTemplateWrite (value : Nat) (s : State) : Host.Outcome State Fault Refusal := .next (templateWrite value s)

/-- A write of SP0_XIP_FREQ, which belongs to the template (R390). -/
def xipFreqWrite (v : Nat) (s : State) : State := if 5 < v % 16 then refuseXip 4 s else set SP0_XIP_FREQ.FREQ v s

/-- The clocks of one template read (R388). -/
def templateClocks (s : State) : Nat :=
  let ph := fun (n l : Nat) => phaseClocks n (2 ^ l) (if on SP0_XIP_TMPL.DTR s && l != 0 then 2 else 1)
  ph (1 + get SP0_XIP_TMPL.CMD2 s) (get SP0_XIP_TMPL.CMD_LANES s) + ph 4 (get SP0_XIP_TMPL.ADDR_LANES s) + get SP0_XIP_TMPL.DUMMY s +
    ph 64 (get SP0_XIP_TMPL.DATA_LANES s) + 1

/-- The enabled window that covers an XIP address, with the offset into it (R385). -/
def windowAt (a : Addr) (s : State) : Option (Nat × Nat) :=
  ((List.range 4).filterMap (fun n =>
    let lo := 0x10000000 + get (SP0_WIN_BASE.WIN_OFS n) s * 4096
    if on (SP0_WIN_CFG.EN n) s && lo ≤ a && a < lo + get (SP0_WIN_LEN.LENGTH n) s * 4096 then some (n, a - lo) else none)).head?

/-! ## SP1 (R396 to R400) -/

/-- Whether a control byte is full duplex (R397). -/
def fullDuplex (c : Nat) : Bool := bit c 7

/-- Whether a control byte has a reserved value (R397). -/
def controlBad (c : Nat) : Bool :=
  bit c 6 || bit c 0 || (if fullDuplex c then bits c 1 5 != 0 else bits c 4 2 == 0 || bits c 2 2 == 0)

/-- The turnaround clocks (R404). -/
def turnaround (s : State) : Nat := Nat.max 2 (get SP1_CFG.TA s)

/-- How many reply bytes the host clocks out (R396, R398, R399): in half duplex after the turnaround, on the lanes of the read phase; in full
duplex from the first bit of the write phase. -/
def replyClocked (f : FrameIn) (s : State) : Nat :=
  if fullDuplex f.control then 8 + 4 * f.len + 4 + f.clocks / 8
  else (f.clocks - turnaround s) * 2 ^ bits f.control 2 2 * (if bit f.control 1 then 2 else 1) / 8

/-- A malformed transaction is noted and logged (R400). -/
def noteMalformed (s : State) : State := fault 0x0A03 0 0 0 (bump SP1_CNT.MALFORMED s)

/-- A malformed transaction is counted and drives nothing; the bad frame that it passes on is the host-frames engine's. -/
def sp1Malformed (s : State) : State := noteMalformed (bump SP1_CNT.TRANS { s with sp.sp1Clock := s.now, sp.sp1Out := [] })

/-- Whether a port abort of SP1 came in the transaction that began in a slot (R402). -/
def sp1Aborted (since : Nat) (s : State) : Bool := match s.sp.sp1Abort with | some t => since ≤ t | none => false

end Sys2Proof.Machine
end

