-- ==== Sys2Proof/Machine/Clocks.lean ====
section
/-! DEFINITION. Clocks and references: the tick count's steps (R491), the synthesizer's lock (R490), monitoring, classes and switches
(R496 to R506), and PPS (R507, R508). -/

namespace Sys2Proof.Machine

/-- Ticks in one second (R498). -/
abbrev ticks1s : Int := 4096000000

/-! ## The tick count (R491) -/

/-- Whether the unit is an Erost timing slave (R473). -/
def timingSlave (s : State) : Bool := get ERL_STAT.ROLE s == 2

/-- CLK_TIME_CMD.GO: refused while the record engine is not STOPPED or on a timing slave. -/
def timeGo (s : State) : State :=
  if s.record.running || timingSlave s then set CLK_STAT.TIME_REFUSED 1 s
  else { s with clk.step := s.clk.step ++ [(s.now, .load (get CLK_TIME_SET_LO.TICK s + 2 ^ 32 * get CLK_TIME_SET_HI.TICK s))] }

/-- A write of CLK_TIME_CMD. -/
def timeCmdWrite (v : Nat) (s : State) : State := if bit v 0 then timeGo s else s

/-- Meaning of CLK_TIME_GO. -/
def execClkTimeGo (value : Nat) (s : State) : Host.Outcome State Fault Refusal := .next (timeCmdWrite value s)

/-- A step of the tick count: monitoring windows restart (R498), and the boundary marks records as a switch does (R504). -/
def applyStep (t : TickStep) (s : State) : State :=
  let s := match t with
    | .load v => { s with tickAdj := (v : Int) - 4 * s.now }
    | .add d _ => { s with tickAdj := s.tickAdj + d }
  let s := { s with clk.switches := s.clk.switches ++ [nowLsb s], clk.windowFrom := tick s, clk.xtal := [],
                    clk.ppsEdges := s.clk.ppsEdges.take 1, clk.refs := s.clk.refs.map (fun r => { r with edges := [] }) }
  match t with
  | .add _ true => fault 0x0F07 0 0 2 s
  | _ => s

/-- TICK_STEP, in the first slot of a plan period: the steps asked for before it apply. -/
def tickStep (s : State) : State :=
  if s.tickOn && s.now % 4096 == 0 then
    let due := s.clk.step.filter (fun t => t.1 < s.now)
    due.foldl (fun s t => applyStep t.2 s) { s with clk.step := s.clk.step.filter (fun t => !(t.1 < s.now)) }
  else s

/-- Meaning of TICK_STEP. -/
def execTickStep (s : State) : Host.Outcome State Fault Refusal := .next (tickStep s)

/-! ## Lock (R490) -/

/-- SCS_UNLOCK: the first one clears LOCK and requests a global abort; a later one restarts the wait for lock. -/
def scsUnlock (s : State) : State :=
  let s' := { s with clk.relockFrom := s.now }
  if on CLK_STAT.LOCK s then abortRequest 3 (fault 0x0F05 0 0 0 (set CLK_STAT.LOCK 0 s')) else s'

/-- Meaning of SCS_UNLOCK. -/
def execScsUnlock (s : State) : Host.Outcome State Fault Refusal := .next (scsUnlock s)

/-- SCS_RELOCK: after 1 ms of lock. -/
def scsRelock (s : State) : State :=
  if s.tickOn && !(on CLK_STAT.LOCK s) && s.clk.relockFrom + 1024000 ≤ s.now then set CLK_STAT.LOCK 1 s else s

/-- Meaning of SCS_RELOCK. -/
def execScsRelock (s : State) : Host.Outcome State Fault Refusal := .next (scsRelock s)

/-! ## Readings (R498, R499) -/

/-- A fraction: numerator and denominator. -/
abbrev Frac := Int × Nat

def refOf (i : Nat) (s : State) : RefMon := nth s.clk.refs i {}
def setRef (i : Nat) (f : RefMon → RefMon) (s : State) : State := { s with clk.refs := modifyNth f i s.clk.refs }

/-- Class codes (R509): 0 UNCHECKED, 1 GOOD, 2 SUSPECT, 3 BAD, 4 LOST. -/
def refClass (i : Nat) (s : State) : Nat := bits (get CLK_REF_CLASS.CLASS s) (4 * i) 4

/-- Whether a reference is enabled. -/
def refEnabled (i : Nat) (s : State) : Bool := bit (get CLK_REF_CTRL.EN s) i

/-- The edges that a reference shows in one second at its nominal frequency (R496). -/
def nominal (i : Nat) (s : State) : Nat :=
  match i with
  | 0 => 100000000
  | 1 => if on CLK_REF_CTRL.EXT_FREQ s then 100000000 else 10000000
  | _ => 128000000

/-- The intervals between accepted PPS edges, newest first. -/
def intervals : List Int → List Nat
  | a :: b :: l => (a - b).toNat :: intervals (b :: l)
  | _ => []

/-- f_i over the last `k` windows, as a fraction of the nominal frequency; none without a reading. -/
def freqRatio (i k : Nat) (s : State) : Option (Nat × Nat) :=
  let r := if i = 4 then
      let l := (intervals s.clk.ppsEdges).take k
      (262144000000 * l.length, l.foldl (· + ·) 0)
    else
      let l := (refOf i s).edges.take k
      (l.foldl (· + ·) 0, nominal i s * l.length)
  if r.1 = 0 ∨ r.2 = 0 then none else some r

/-- f / g − 1. -/
def deviation (f g : Nat × Nat) : Frac := ((f.1 * g.2 : Int) - f.2 * g.1, f.2 * g.1)

/-- Whether a fraction's magnitude exceeds `n / d`. -/
def exceeds (e : Frac) (n d : Nat) : Bool := n * e.2 < e.1.natAbs * d

/-- Whether a fraction is smaller in magnitude than another. -/
def smaller (a b : Frac) : Bool := a.1.natAbs * b.2 < b.1.natAbs * a.2

/-- The upstream reference of a timing slave (R501). -/
def upstreamRef (s : State) : Option Nat := if timingSlave s then s.erl.lastUpstream.map (2 + ·) else none

/-- Whether a reference votes: present, with a reading, and no REF_EROST but the upstream one (R496). -/
def votes (i k : Nat) (s : State) : Bool :=
  (refOf i s).present && (freqRatio i k s).isSome && (i ≤ 1 || i == 4 || upstreamRef s == some i)

/-- x_i: the error against the crystal over the last 10 s. -/
def xtalError (i : Nat) (s : State) : Option Frac :=
  let c := s.clk.xtal.take 10
  let sum := c.foldl (· + ·) 0
  match freqRatio i 10 s with
  | some f => if sum = 0 then none else some (deviation f (sum, 32768 * c.length))
  | none => none

/-- d_ij over `k` windows. -/
def pairError (i j k : Nat) (s : State) : Option Frac :=
  match freqRatio i k s, freqRatio j k s with
  | some f, some g => some (deviation f g)
  | _, _ => none

/-- e_i over `k` windows (R499). -/
def refError (i k : Nat) (s : State) : Option Frac :=
  let v := (List.range 5).filter (fun j => votes j k s)
  let use := get CLK_STAT.IN_USE s
  if (freqRatio i k s).isNone then none
  else if 3 ≤ v.length then
    (v.filter (· != i)).foldl (fun m j => match m, pairError i j k s with
      | none, d => d
      | some a, some d => some (if smaller d a then d else a)
      | some a, none => some a) none
  else if v.length = 2 ∧ v.contains use = true then
    match xtalError use s with
    | some x =>
      if exceeds x 50 1000000 then xtalError i s
      else if i = use then some (0, 1) else pairError i use k s
    | none => if i = use then some (0, 1) else pairError i use k s
  else xtalError i s

/-! ## Switches (R501 to R505) -/

/-- A fraction scaled to a whole number of units, by a rounding that the spec leaves open. -/
def scaled (e : Frac) (per : Nat) (s : State) : Int × State := roundFree (e.1 * per) (Nat.max 1 e.2) s

/-- The frequency that the synthesizer puts out: that of the reference in use, or the one that holdover froze (R505). -/
def scsRatio (s : State) : Option (Nat × Nat) :=
  if on CLK_STAT.HOLDOVER s then s.clk.held else freqRatio (get CLK_STAT.IN_USE s) 1 s

/-- The signed slots from the reference in use to a new one at 0.1 ppm per ms (R503). -/
def glideTo (new : Nat) (s : State) : Int :=
  match scsRatio s, freqRatio new 1 s with
  | some f, some g => (deviation f g).1 * 10240000000000 / Nat.max 1 (deviation f g).2
  | _, _ => 0

/-- The signed slots of a glide that are still to come. -/
def glideLeft (s : State) : Int :=
  if on CLK_STAT.GLIDE s then s.clk.glide.sign * ((s.clk.glideUntil - s.now : Nat) : Int) else 0

/-- The synthesizer takes a new reference. A glide under way goes on from the frequency it has reached (R503). DEDUCED: log entry 84. -/
def refSwitch (new : Nat) (s : State) : State :=
  let old := get CLK_STAT.IN_USE s
  let g := glideLeft s + glideTo new s
  let s := { s with clk.switches := s.clk.switches ++ [nowLsb s], clk.glide := g, clk.glideUntil := s.now + g.natAbs, clk.held := none }
  let s := set CLK_STAT.IN_USE new (set CLK_STAT.HOLDOVER 0 (set CLK_STAT.INUSE_NOTGOOD 0 (set CLK_STAT.GLIDE 1 (bump CLK_STAT.SWITCHES s))))
  let s := fault 0x0F03 new old 0 (raise 0x38 s)
  if timingSlave s && !(onUpstream s) then loseAligned s else s

/-- Whether a reference may be selected (R496, R501). -/
def selectable (i : Nat) (s : State) : Bool := i ≤ 1 || upstreamRef s == some i

/-- The reference that PREFER names. -/
def preferred (s : State) : Nat := get CLK_REF_CTRL.PREFER s

/-- The GOOD reference that a switch away from the one in use takes: upstream, preferred, other. -/
def bestGood (s : State) : Option Nat :=
  let l := (match upstreamRef s with | some u => [u] | none => []) ++ [preferred s, 1 - preferred s]
  l.find? (fun i => refClass i s == 1 && i != get CLK_STAT.IN_USE s)

/-- The switch that rules 1 to 3 of R502 call for now. -/
def autoSwitch (windowEnd : Bool) (s : State) : Option Nat :=
  let use := get CLK_STAT.IN_USE s
  let up := match upstreamRef s with | some u => refClass u s == 1 && u != use | none => false
  if up then upstreamRef s
  else if refClass use s != 1 || !(selectable use s) then bestGood s
  else if windowEnd && on CLK_REF_CTRL.REVERT s && upstreamRef s != some use && preferred s != use &&
      refClass (preferred s) s == 1 && 10 ≤ (refOf (preferred s) s).good then some (preferred s)
  else none

/-- A switch where one is called for; else a reference in use that has become BAD is noted and logged (R505). -/
def judgeInUse (windowEnd : Bool) (s : State) : State :=
  match autoSwitch windowEnd s with
  | some r => refSwitch r s
  | none =>
    if refClass (get CLK_STAT.IN_USE s) s < 3 then set CLK_STAT.INUSE_NOTGOOD 0 s
    else if on CLK_STAT.INUSE_NOTGOOD s then s
    else fault 0x0F04 (get CLK_STAT.IN_USE s) 0 0 (set CLK_STAT.INUSE_NOTGOOD 1 s)

/-- GLIDE_END. -/
def glideEnd (s : State) : State := if on CLK_STAT.GLIDE s && s.clk.glideUntil ≤ s.now then set CLK_STAT.GLIDE 0 s else s

/-- Meaning of GLIDE_END. -/
def execGlideEnd (s : State) : Host.Outcome State Fault Refusal := .next (glideEnd s)

/-! ## Classes (R500) -/

/-- A reference takes a class; a change raises REF_CLASS and is logged (R500). -/
def takeClass (i c : Nat) (s : State) : State :=
  let old := refClass i s
  if c = old then s
  else
    let s := raise 0x39 (set CLK_REF_CLASS.CLASS (get CLK_REF_CLASS.CLASS s - old * 16 ^ i + c * 16 ^ i) s)
    if c = 2 ∨ c = 3 then fault 0x0F01 i 0 c s else if c = 4 then fault 0x0F02 i 0 0 s else s

/-- The class of a present reference by its errors; `clean` counts this window. -/
def classOf (i : Nat) (s : State) : Nat :=
  let r := refOf i s
  let bad := match refError i 1 s with | some e => exceeds e (get CLK_REF_THR.FAIL s) 1000000 | none => false
  let sus := match refError i 10 s with | some e => exceeds e (get CLK_REF_THR.WARN s) 10000000 | none => false
  if bad then 3 else if sus then 2 else if r.windows = 0 then 0 else if 10 ≤ r.clean + 1 then 1 else 2

/-- Whether the synthesizer is off: in NAP and DORMANT, until an exit's PWR_GOOD (R511, R518). -/
def scsOff (s : State) : Bool :=
  s.pwr.fabricStopped && (match s.pwr.exit with | some x => 4 ≤ x.from_ && !s.pwr.good | none => 4 ≤ get PWR_STAT.RUNG s)

/-- A reference is lost, or disabled: LOST at once. When it is in use the synthesizer goes into holdover at the frequency of the last complete
window, and a switch is judged, unless the synthesizer is off: the exit then chooses a reference (R496, R500, R505, R518). -/
def loseRef (i : Nat) (s : State) : State :=
  let s := if get CLK_STAT.IN_USE s = i ∧ on CLK_STAT.HOLDOVER s = false ∧ scsOff s = false
    then set CLK_STAT.HOLDOVER 1 { s with clk.held := freqRatio i 1 s } else s
  let s := setRef i (fun r => { r with present := false, windows := 0, clean := 0, good := 0, edges := [] }) s
  let s := if i = 4 then { s with clk.ppsEdges := s.clk.ppsEdges.take 1 } else s
  let s := takeClass i 4 s
  if scsOff s then s else judgeInUse false s

/-- Whether PPS_IN had an accepted edge in the last 1.5 s (R496, R507). -/
def ppsAlive (s : State) : Bool :=
  match s.clk.ppsEdges with
  | t :: _ => decide ((s.now : Int) * 256 < t + 96 * ticks1s)
  | [] => false

/-- REF_LOSS: an Erost reference when its port is not UP, PPS after 1.5 s without an accepted edge, the others as their detectors say. -/
def refLoss (i : Nat) (s : State) : State :=
  let really := if i = 2 ∨ i = 3 then !(portUp (i - 2) s)
    else if i = 4 then (match s.clk.ppsEdges with
      | t :: _ => decide (t + 96 * ticks1s ≤ (s.now : Int) * 256)
      | [] => decide (96 * ticks1s ≤ (s.now : Int) * 256))
    else true
  if really && s.tickOn && refClass i s != 4 then loseRef i s else s

/-- Meaning of REF_LOSS. -/
def execRefLoss (ref : Nat) (s : State) : Host.Outcome State Fault Refusal := .next (refLoss ref s)

/-- Whether a window end falls in the present slot (R498). -/
def windowEndNow (s : State) : Bool := s.tickOn && decide ((4 * (s.now : Int) + s.tickAdj + 3) % ticks1s < 4)

/-- A complete window adds its edges to a reference, or finds a reference present again. PRESUMED: log entry 82. -/
def takeWindow (i edges : Nat) (s : State) : State :=
  let here := if i = 4 then ppsAlive s else if i = 2 ∨ i = 3 then portUp (i - 2) s && decide (0 < edges) else decide (0 < edges)
  if !(refEnabled i s) || !here then setRef i (fun r => { r with present := r.present && i != 2 && i != 3 && refEnabled i s }) s
  else setRef i (fun r =>
    if r.present then { r with windows := r.windows + 1, edges := (edges :: r.edges).take 10 } else { r with present := true, windows := 0, edges := [] }) s

/-- The class of a reference at a window end, and what follows for its history. A reference that has never shown itself is LOST, PPS_IN only
after its 1.5 s. -/
def endClass (i : Nat) (s : State) : State :=
  let r := refOf i s
  if !r.present then
    if i = 4 ∧ s.clk.ppsEdges = [] ∧ (s.now : Int) * 256 < 96 * ticks1s then s else takeClass i 4 (setRef i (fun r => { r with clean := 0, good := 0 }) s)
  else
    let c := classOf i s
    takeClass i c (setRef i (fun r => { r with clean := if c = 3 then 0 else Nat.min 10 (r.clean + 1), good := if c = 1 then Nat.min 10 (r.good + 1) else 0 }) s)

/-- The error registers (R509). -/
def showErrors (s : State) : State :=
  let s := (List.range 5).foldl (fun s i =>
    let a := match refError i 1 s with | some e => scaled e 1000000000 s | none => (0, s)
    let s := set (CLK_REF_ERR1.E i) (toBits 32 a.1) a.2
    let b := match refError i 10 s with | some e => scaled e 1000000000 s | none => (0, s)
    set (CLK_REF_ERR10.E i) (toBits 32 b.1) b.2) s
  match xtalError (get CLK_STAT.IN_USE s) s with
  | some x => (let v := scaled x 10000000 s
    set CLK_XTAL_ERR.X (toBits 32 v.1) v.2)
  | none => s

/-- REF_WINDOW_END: `counts` are the edges of references 0 to 3 and of the crystal in the window. A window that a step of the tick count cut
short gives no reading. The classes of one end are judged on the same readings. DEDUCED: log entry 83. -/
def refWindowEnd (counts : List Nat) (s : State) : State :=
  if !(windowEndNow s) || 3 ≤ get PWR_STAT.RUNG s then s
  else if 4 * (s.now : Int) + s.tickAdj < s.clk.windowFrom + ticks1s - 3 then s
  else
    let s := (List.range 5).foldl (fun s i => takeWindow i (if i = 4 then 0 else nth counts i 0) s) s
    let s := { s with clk.xtal := (nth counts 4 0 :: s.clk.xtal).take 10 }
    let s := showErrors s
    let s := (List.range 5).foldl (fun s i => endClass i s) s
    judgeInUse true s

/-- Meaning of REF_WINDOW_END. -/
def execRefWindowEnd (counts : List Nat) (s : State) : Host.Outcome State Fault Refusal := .next (refWindowEnd counts s)

/-! ## Registers of the references (R506, R509) -/

/-- A write of CLK_REF_CTRL: a disabled reference is LOST at once; FORCE_GO is judged last. -/
def refCtrlWrite (v : Nat) (s : State) : State :=
  let was := get CLK_REF_CTRL.EN s
  let s := set CLK_REF_CTRL.EN v (set CLK_REF_CTRL.EXT_FREQ (v / 2 ^ 8) (set CLK_REF_CTRL.PREFER (v / 2 ^ 9) (set CLK_REF_CTRL.REVERT (v / 2 ^ 10)
    (set CLK_REF_CTRL.FORCE (v / 2 ^ 12) s))))
  let s := if bit v 16 then set CLK_REF_CTRL.FORCE_REFUSED 0 s else s
  let s := (List.range 5).foldl (fun s i => if bit was i && !(bit v i) && s.tickOn && refClass i s != 4 then loseRef i s else s) s
  if bit v 15 then
    let f := get CLK_REF_CTRL.FORCE s
    if selectable f s && refClass f s == 1 then (if f = get CLK_STAT.IN_USE s ∧ on CLK_STAT.HOLDOVER s = false then s else refSwitch f s)
    else set CLK_REF_CTRL.FORCE_REFUSED 1 s
  else s

/-- Meaning of FORCE_GO: a write of CLK_REF_CTRL. -/
def execForceGo (value : Nat) (s : State) : Host.Outcome State Fault Refusal := .next (refCtrlWrite value s)

/-- A write of CLK_REF_THR: dropped when it makes FAIL at most WARN. -/
def refThrWrite (v : Nat) (s : State) : State :=
  if bits v 16 7 * 10 ≤ bits v 0 8 then s else set CLK_REF_THR.WARN v (set CLK_REF_THR.FAIL (v / 2 ^ 16) s)

/-! ## PPS (R507, R508) -/

/-- Whether an edge is accepted: the first, the first after 1.5 s, or one at the right distance. -/
def ppsAccepted (t : Int) (s : State) : Bool :=
  match s.clk.ppsEdges with
  | [] => true
  | l :: _ => decide (96 * ticks1s < t - l) || decide ((t - l - 64 * ticks1s).natAbs * 1000000 ≤ get CLK_REF_THR.FAIL s * 262144000000)

/-- The residue of an edge (R508), in ticks of the tick count. -/
def residue (t : Int) (s : State) : Int :=
  let r := (t / 64 + s.tickAdj - get CLK_PPS_OFS.OFS s) % ticks1s
  if 2048000000 ≤ r then r - ticks1s else r

/-- PPS_EDGE: an edge of the polarity POL, at a time in 1/64 tick of the unstepped count. DISC acts on an Erost master and on a unit with no UP
port (R508). DEDUCED: log entry 85. -/
def ppsEdge (t : Int) (s : State) : State :=
  if !s.tickOn then s
  else if ppsAccepted t s then
    let late := match s.clk.ppsEdges with | l :: _ => decide (96 * ticks1s < t - l) | [] => false
    let s := { s with clk.ppsEdges := if late then [t] else (t :: s.clk.ppsEdges).take 11 }
    let s := raise 0xD1 (bump CLK_PPS_CNT.ACCEPT s)
    if on CLK_PPS_CTRL.DISC s && (get ERL_STAT.ROLE s == 1 || !(portUp 0 s || portUp 1 s)) then
      let r := residue t s
      let s := set CLK_PPS_RES.R (toBits 32 r) s
      if 4096 < r.natAbs then { s with clk.step := s.clk.step ++ [(s.now, .add (-r) true)] } else s
    else s
  else
    let s := bump CLK_PPS_CNT.REJECT s
    if s.clk.ppsLogged then s else fault 0x0F07 0 0 1 { s with clk.ppsLogged := true }

/-- Meaning of PPS_EDGE. -/
def execPpsEdge (time : Int) (s : State) : Host.Outcome State Fault Refusal := .next (ppsEdge time s)

/-! ## Clock gates (R492, R493) -/

/-- Whether a clock domain runs (R493); in IDLE the conversion clocks are gated (R511, R512). -/
def domainRuns (cd : Nat) (s : State) : Bool :=
  if cd < 68 ∧ converting s = false then false else
  if cd < 204 then get (AVE_SC_STAT.STATE (cd % 68)) s != 5
  else if 207 ≤ cd && cd ≤ 216 then !(on BLV_STAT.INIT_FAIL s)
  else if cd = 219 ∨ cd = 220 then !s.boot.presN
  else if cd = 221 then on SP2_CTRL.ENABLE s && !(on SP2_CTRL.ROLE s)
  else if cd = 222 then on SP2_CTRL.ENABLE s && on SP2_CTRL.ROLE s
  else if cd = 223 then on DSP_STAT.RUN s || s.dsp.cmd.isSome
  else if cd = 224 ∨ cd = 225 then (on DSP_STAT.RUN s || s.dsp.cmd.isSome) && dget DSP_CTRL.IF s != 0
  else if 226 ≤ cd && cd ≤ 229 then on (ERL_PORT_CTRL.EN ((cd - 226) / 2)) s
  else if cd = 230 then on STM_STAT.TDR_ON (refreshStm s)
  else if cd = 231 then on STM_STAT.LAS_ON (refreshStm s)
  else if cd = 232 then on STM_AUDIO_CTRL.RUN s
  else if cd = 233 then get AMP_STAT.STATE s != 0
  else if 236 ≤ cd && cd ≤ 239 then refEnabled (cd - 236) s
  else decide (cd ≤ 240)

/-- CLK_GATE0 to 7 as the domains stand. -/
def refreshGates (s : State) : State :=
  (List.range 8).foldl (fun s w =>
    set (CLK_GATE.RUN w) (((List.range 32).map (fun k => 2 ^ k * b2n (32 * w + k ≤ 240 && domainRuns (32 * w + k) s))).foldl (· + ·) 0) s) s

end Sys2Proof.Machine
end

