-- ==== Sys2Proof/Machine/Power.lean ====
section
/-! DEFINITION. The power ladder (R510 to R522) and the adaptive supply (R523 to R527). -/

namespace Sys2Proof.Machine

/-! ## Demands and rungs (R515) -/

/-- Whether a RUN demand holds. -/
def runWanted (s : State) : Bool :=
  s.record.running || !s.record.recs.isEmpty || on STM_AUDIO_CTRL.RUN s || tdrOn s || lasOn s || on PWR_CTRL.HOLD_RUN s

/-- The rung shown changes, and is counted. -/
def showRung (r : Nat) (s : State) : State := if get PWR_STAT.RUNG s = r then s else bump PWR_CNT.MOVES (set PWR_STAT.RUNG r s)

/-- What leaving RUN does to stimulus, audio and bridge: safe, stopped, OFF (R511, R520). -/
def leaveRun (s : State) : State := set AMP_STAT.STATE 0 { stimulusRest s with line.ampEn := false }

/-- A calibration cycle that IDLE interrupts starts over later (R512). -/
def suspendCals (s : State) : State := { s with ave.cals := s.ave.cals.map (fun c => (c.1, { c.2 with ends := none })) }

/-- The device takes POISED or IDLE. -/
def restAt (r : Nat) (s : State) : State :=
  let s := if get PWR_STAT.RUNG s = 0 then leaveRun s else s
  let s := if r = 2 then suspendCals s else s
  set PWR_STAT.MOVING 0 (showRung r { s with pwr.exit := none })

/-- RUN_DEMAND: the device goes to RUN, which RUNG shows at once: from POISED and IDLE, where an entry under way is abandoned, and from DOZE and
lower by an exit (R515, R517, R518). -/
def runDemand (s : State) : State :=
  if !(runWanted s) || get PWR_STAT.RUNG s == 0 then s
  else if s.pwr.fabricStopped then
    match s.pwr.exit with
    | some x => if x.idle then s else showRung 0 s
    | none => showRung 0 (startExit false false s)
  else
    let from_ := get PWR_STAT.RUNG s
    set PWR_STAT.MOVING 1 (showRung 0 { abandonEntry s with pwr.exit := some ⟨from_, false, s.now⟩ })

/-- Meaning of RUN_DEMAND. -/
def execRunDemand (s : State) : Host.Outcome State Fault Refusal := .next (runDemand s)

/-- The rung that PWR_CTRL.REST names. -/
def restRung (s : State) : Nat := if get PWR_CTRL.REST s = 2 then 2 else 1

/-- An ABSENT_POLICY that waited has its effect now: IDLE, or the entry to DOZE; it never raises the rung (R96, R516). -/
def actPolicy (p : Nat) (s : State) : State :=
  let s := { s with pwr.policy := none }
  if s.pwr.fabricStopped then s
  else if p = 3 then set PWR_STAT.MOVING 1 { (if get PWR_STAT.RUNG s = 0 then restAt 2 s else s) with pwr.entry := some 3 }
  else if get PWR_STAT.RUNG s < 2 then restAt 2 s else s

/-- REST_DROP: with no RUN demand left, the device leaves RUN for REST, or for the rung of a waiting ABSENT_POLICY. -/
def restDrop (s : State) : State :=
  if runWanted s || s.pwr.fabricStopped then s
  else match s.pwr.policy with
    | some p => actPolicy p s
    | none => if get PWR_STAT.RUNG s = 0 then restAt (restRung s) s else s

/-- Meaning of REST_DROP. -/
def execRestDrop (s : State) : Host.Outcome State Fault Refusal := .next (restDrop s)

/-! ## Moves asked for (R516) -/

/-- Whether something keeps the device out of DOZE and below (R516). -/
def busyForDoze (s : State) : Bool :=
  s.dma.chans.any (·.active) || s.sp.p0.cur.isSome || !s.sp.p0.queue.isEmpty || s.sp.p2.cur.isSome || !s.sp.p2.queue.isEmpty ||
  !s.plan.queue.isEmpty || s.hfr.flight.any (fun f => !f.done && s.hfr.running != some f.serial)

/-- A move is refused. -/
def refuseMove (cause : Nat) (s : State) : State := fault 0x1003 0 0 cause (set PWR_STAT.CAUSE cause (set PWR_STAT.REFUSED 1 s))

/-- A requested move is judged; from DOZE and lower only a wake moves (R516, R522). DEDUCED: log entry 86. -/
def moveTo (t : Nat) (s : State) : State :=
  if s.pwr.fabricStopped then s
  else if runWanted s then refuseMove 1 s
  else if t = 0 ∨ 6 ≤ t then refuseMove 3 s
  else if 3 ≤ t then
    (if busyForDoze s then refuseMove 2 s else set PWR_STAT.MOVING 1 { s with pwr.entry := some t })
  else restAt t (abandonEntry s)

/-- A write of PWR_CTRL. One that changes REST or HOLD_RUN with a TARGET of 0 asks for no move. -/
def pwrCtrlWrite (v : Nat) (s : State) : State :=
  let same := get PWR_CTRL.REST s == bits v 4 3 && get PWR_CTRL.HOLD_RUN s == bits v 8 1
  let s := set PWR_CTRL.REST (v / 16) (set PWR_CTRL.HOLD_RUN (v / 256) s)
  if bits v 0 3 = 0 ∧ same = false then s else moveTo (bits v 0 3) s

/-- Meaning of TARGET: a write of PWR_CTRL. -/
def execTarget (value : Nat) (s : State) : Host.Outcome State Fault Refusal := .next (pwrCtrlWrite value s)

/-! ## Entry (R511, R513, R517) -/

/-- A memory with the cells of an address range removed. -/
def dropCells (lo hi : Addr) (m : List Host.Cell) : List Host.Cell := m.filter (fun c => !(lo ≤ c.1 && c.1 < hi))

/-- The Square is lost and zeroed, and with its contents its bit errors and the lines found uncorrectable (R262, R279, R511). -/
def zeroSquare (s : State) : State :=
  { s with mem := dropCells sqBase (sqBase + 0x2000000) s.mem, memory.areaLoss := 0, memory.upsets := s.memory.upsets.filter (fun u => !(inSquare u.1)),
           memory.badLines := s.memory.badLines.filter (fun a => !(inSquare a)) }

/-- A boot from the download area retains nothing of it (R69). -/
def loseArea (s : State) : State :=
  { s with mem := dropCells sqBase (sqBase + 0x1000000) s.mem, memory.areaLoss := s.memory.areaLoss + 1 }

/-- The Boulevard's contents become undefined, its check bytes with them, and the gatherer holds nothing of it (R272, R274). -/
def loseBoulevard (s : State) : State :=
  { s with mem := s.mem.filter (fun c => c.1 < blvBase), memory.upsets := s.memory.upsets.filter (fun u => u.1 < blvBase),
           memory.badLines := s.memory.badLines.filter (fun a => a < blvBase), memory.checks := [], memory.written := [], memory.loaded := [],
           memory.ecwDone := [], memory.scrubDone := [], memory.scrubRead := [], memory.scrubFix := [], memory.blvLoss := s.memory.blvLoss + 1 }

/-- Whether the steps of R517 before the fabric's stop are done: ledger write, display frame, and the sequencer's stop with its stores drained; the
fabric stops after slot 4,095. -/
def entryReady (s : State) : Bool := s.boot.write.isNone && !(on DSP_STAT.RUN s) && s.pwr.seqStopped && s.now % 4096 == 4095

/-- LADDER_ENTRY_COMPLETE. -/
def ladderEntryComplete (s : State) : State :=
  match s.pwr.entry with
  | none => s
  | some t =>
    if !(entryReady s) || runWanted s then s
    else
      let s := if get PWR_STAT.RUNG s = 0 then leaveRun s else s
      let s := suspendCals (closeRuns s)
      let s := linksSleep { s with pwr.entry := none, pwr.fabricStopped := true, pwr.seqStopped := true, line.judged := 0 }
      let s := set KRB_STAT.READY 0 s
      let s := if t = 5 then loseBoulevard (set BLV_STAT.UP 0 s) else s
      let s := if 4 ≤ t then set CLK_STAT.LOCK 0 s else s
      let s := if t = 4 then set PWR_AVS_STAT.VID (Nat.min 40 (get PWR_AVS_LIM.FLOOR s)) s else s
      set PWR_STAT.MOVING 0 (showRung t s)

/-- Meaning of LADDER_ENTRY_COMPLETE. -/
def execLadderEntryComplete (s : State) : Host.Outcome State Fault Refusal := .next (ladderEntryComplete s)

/-! ## Wakes (R522) -/

/-- Meaning of WAKE_N. -/
def execWakeN (s : State) : Host.Outcome State Fault Refusal := .next (wakeIf 0 1 s)

/-- Meaning of WAKE_TIMER: the timer counts from the entry; 0 disables it. -/
def execWakeTimer (s : State) : Host.Outcome State Fault Refusal :=
  .next (if get PWR_WAKE_TMR.CYCLES s ≠ 0 ∧ s.pwr.fabricStopped = true then wakeIf 7 5 s else s)

/-! ## Exit (R513, R514, R518, R519) -/

/-- A lost reference in use is replaced by the order of R497 (R518). -/
def exitReference (s : State) : State :=
  let use := get CLK_STAT.IN_USE s
  if refClass use s != 4 then s
  else
    let r := if refClass 0 s != 4 then 0 else 1
    fault 0x1006 r 0 0 (set CLK_STAT.IN_USE r (set CLK_STAT.HOLDOVER 0 s))

/-- What PWR_GOOD starts in an exit: from NAP and DORMANT the synthesizer and the Square, from DORMANT the Boulevard's initialisation and
the supply at CEIL. That initialisation completes 4.9 ms after PWR_GOOD (R518). -/
def powerUp (from_ : Nat) (s : State) : State :=
  let s := if 4 ≤ from_ then zeroSquare (set CLK_STAT.LOCK 1 (exitReference s)) else s
  if from_ = 5 then
    set PWR_STAT.BLV_WAIT 1 (set PWR_AVS_STAT.VID (Nat.min 40 (get PWR_AVS_LIM.CEIL s))
      { s with memory.training := true, memory.blvTries := 0, memory.trainDue := s.boot.lockDelay + s.now + 5017600 })
  else s

/-- PWR_GOOD rises: in an exit it powers up; after a loss in DOZE or lower it wakes the device to IDLE, and after one in POISED the device rests
in IDLE (R521, R522). -/
def pwrGoodRise (s : State) : State :=
  if s.pwr.good then s
  else
    let s := set PWR_STAT.PG 1 { s with pwr.good := true }
    match s.pwr.exit with
    | some x => powerUp x.from_ s
    | none =>
      if s.pwr.fabricStopped then (if bit s.abort.held 3 then powerUp (get PWR_STAT.RUNG s) (wake 7 s) else s)
      else if get PWR_STAT.RUNG s < 2 && !(runWanted s) then restAt 2 s else s

/-- Meaning of PWR_GOOD_RISE. -/
def execPwrGoodRise (s : State) : Host.Outcome State Fault Refusal := .next (pwrGoodRise s)

/-- After NAP and DORMANT every other reference starts over as UNCHECKED, windows restart, and a timing slave realigns (R514). -/
def uncheckRefs (s : State) : State :=
  let s := if timingSlave s then loseAligned { s with erl.thetas := [], erl.good := 0 } else s
  let s := { s with clk.windowFrom := tick s, clk.xtal := [], clk.ppsEdges := [],
                    clk.refs := s.clk.refs.map (fun r => { r with edges := [] }) }
  (List.range 5).foldl (fun s i =>
    if i = get CLK_STAT.IN_USE s ∨ refClass i s = 4 then s
    else takeClass i 0 (setRef i (fun r => { r with windows := 0, good := 0 }) s)) s

/-- The correction of the tick count for an exit at slot `t`: from NAP and DORMANT the count goes on from its value at entry by 125,000 ticks per
crystal cycle; otherwise it has counted on (R514). -/
def carriedAdj (from_ t cycles : Nat) (s : State) : Int :=
  if 4 ≤ from_ then s.tickAdj + 4 * (s.now + 1 : Nat) + 125000 * (cycles : Int) - 4 * t else s.tickAdj

/-- LADDER_EXIT_COMPLETE: after `periods` whole plan periods without a fabric, `cycles` cycles of the crystal after the entry, it restarts at the
next boundary, which SQ_SLOT shows with the periods that passed; units return as set, and held requests for a global abort act (R61, R514, R518,
R541). An exit from POISED or IDLE ends at once. -/
def ladderExitComplete (periods cycles : Nat) (s : State) : State :=
  match s.pwr.exit with
  | none => s
  | some x =>
    if x.from_ ≤ 2 then endExit s
    else if !s.pwr.good then s
    else
      let t := s.now / 4096 * 4096 + 4096 * (periods + 1)
      let dest := if runWanted s && !x.idle then 0 else 2
      let s := { s with now := t, tickAdj := carriedAdj x.from_ t cycles s, plan.begun := false, plan.firstPeriod := true, plan.period0 := t,
                        memory.turn := [], pwr.exit := none, pwr.fabricStopped := false, pwr.seqStopped := false,
                        seq.sys.cycleFrom := t, seq.busyUntil := t, seq.boundary := t, record.armDue := Nat.max s.record.armDue t }
      let s := if 4 ≤ x.from_ then uncheckRefs s else s
      let s := displayResume (linksWake (set PWR_STAT.MOVING 0 (showRung dest s)))
      startRelease (releaseHeld (showSlot s))

/-- Meaning of LADDER_EXIT_COMPLETE. -/
def execLadderExitComplete (periods cycles : Nat) (s : State) : Host.Outcome State Fault Refusal := .next (ladderExitComplete periods cycles s)

/-- PWR_GOOD_LATE: 1 ms after an upward change (R521). -/
def pwrGoodLate (s : State) : State :=
  if s.pwr.exit.isSome && !s.pwr.good && !s.pwr.lateLogged then fault 0x1004 0 0 0 { s with pwr.lateLogged := true } else s

/-- Meaning of PWR_GOOD_LATE. -/
def execPwrGoodLate (s : State) : Host.Outcome State Fault Refusal := .next (pwrGoodLate s)

/-- PWR_GOOD_LOSS: a rail is lost with the PS code unchanged (R521). -/
def pwrGoodLoss (s : State) : State :=
  if s.pwr.good then abortRequest 3 (fault 0x1005 0 0 0 (set PWR_STAT.PG 0 { s with pwr.good := false })) else s

/-- Meaning of PWR_GOOD_LOSS. -/
def execPwrGoodLoss (s : State) : Host.Outcome State Fault Refusal := .next (pwrGoodLoss s)

/-- The code on PS2 to PS0 (R520): the rung, or in an exit its destination. -/
def psPins (s : State) : Nat :=
  match s.pwr.exit with
  | some x => if runWanted s && !x.idle then 0 else 2
  | none => get PWR_STAT.RUNG s

/-! ## Adaptive voltage (R524 to R526) -/

/-- The smallest of the margins. -/
def leastMargin : List Int → Option Int
  | [] => none
  | m :: l => match leastMargin l with
    | some k => some (if m < k then m else k)
    | none => some m

/-- The loop's new code, and whether it is pinned at CEIL. The code moves by at most one. -/
def avsStep (m : Int) (s : State) : Int × Bool :=
  let vid : Int := get PWR_AVS_STAT.VID s
  let tgt : Int := get PWR_AVS_CFG.TGT s
  let want := if m < tgt then vid + 1 else if tgt + get PWR_AVS_CFG.HYST s < m then vid - 1 else vid
  let ceil : Int := Nat.min 40 (get PWR_AVS_LIM.CEIL s)
  let floor : Int := Nat.min 40 (get PWR_AVS_LIM.FLOOR s)
  if ceil < want then (vid + clip (-1) 1 (ceil - vid), true) else (if want < floor then vid + clip (-1) 1 (floor - vid) else want, false)

/-- AVS_EVALUATION, every 10 µs in RUN, POISED and IDLE: `margins` are the sixteen monitors' slacks in ps. DEDUCED: log entry 89. -/
def avsEvaluation (margins : List Int) (s : State) : State :=
  let early := match s.pwr.lastEval with | some t => s.now < t + 10240 | none => false
  match leastMargin margins with
  | none => s
  | some m =>
    if early || !s.tickOn || s.pwr.fabricStopped then s
    else
      let r := avsStep m s
      let was := on PWR_AVS_STAT.PINNED s
      let s := set PWR_AVS_STAT.VID r.1.toNat (setB PWR_AVS_STAT.PINNED r.2 (set PWR_AVS_STAT.MARGIN (toBits 16 m) { s with pwr.lastEval := some s.now }))
      let s := if r.2 && !was then bump PWR_CNT.PINS (raise 0x3C (fault 0x1001 0 0 0 s)) else s
      if m < 0 then
        let s := set PWR_AVS_STAT.NEG 1 { s with pwr.okEvals := 0 }
        if bit (get SQ_PLAN_STAT.MSTOP_CAUSE s) 1 then s else enterMargin 1 (fault 0x1002 0 0 0 s)
      else
        let s := { s with pwr.okEvals := Nat.min 16 (s.pwr.okEvals + 1) }
        if s.pwr.okEvals = 16 then clearCause 1 s else s

/-- Meaning of AVS_EVALUATION. -/
def execAvsEvaluation (margins : List Int) (s : State) : Host.Outcome State Fault Refusal := .next (avsEvaluation margins s)

/-- A write of PWR_AVS_LIM: dropped when FLOOR would exceed CEIL (R524). -/
def avsLimWrite (v : Nat) (s : State) : State :=
  if bits v 8 6 < bits v 0 6 then set PWR_STAT.REFUSED 1 (set PWR_STAT.CAUSE 3 s)
  else set PWR_AVS_LIM.FLOOR v (set PWR_AVS_LIM.CEIL (v / 256) s)

/-- Meaning of AVS_LIM_WRITE. -/
def execAvsLimWrite (value : Nat) (s : State) : Host.Outcome State Fault Refusal := .next (avsLimWrite value s)

end Sys2Proof.Machine
end

