-- ==== Sys2Proof/Machine/Delivery.lean ====
section
/-! DEFINITION. What follows a fire (R170, R177, R178, R221, R440): timer instants, the delivery of fires, and the TRIG_OUT pin. -/

namespace Sys2Proof.Machine

/-! ## Timer instants (R170, R440) -/

/-- The timer instants among the ticks of the present slot, as ticks of the unstepped count. DEDUCED: log entry 98. -/
def instantsNow (s : State) : List Int :=
  ((List.range 4).map (fun (i : Nat) => 4 * (s.now : Int) + i)).filter (fun t =>
    0 ≤ t + s.tickAdj && (t + s.tickAdj - (app TRG_TIMER_PHASE.PHASE s : Int)) % (timerPer s : Int) == 0)

/-- One timer instant: it launches the stimulus, and fires the TIMER units in the slot in which its beat is decided. -/
def timerInstantAt (t : Int) (s : State) : State :=
  let d := decisionSlot (s.now / 2)
  let s := { launch t s with trg.timerDue := s.trg.timerDue ++ [d] }
  (List.range 4).foldl (fun s n =>
    if unitOn n s && app (TRG_CTRL.TYPE n) s == 10 then addHits n d [(.cond, t * 65536, t * 65536)] s else s) s

/-- TIMER_INSTANT: the instants of the slot, once each, and the TIMER event of instants decided in it. -/
def timerInstant (s : State) : State :=
  if !s.tickOn || s.pwr.fabricStopped then s
  else
    let s := if s.trg.timerSlot ≤ s.now then
      (instantsNow s).foldl (fun s t => timerInstantAt t s) { s with trg.timerSlot := s.now + 1 } else s
    let due := s.trg.timerDue.any (fun d => d ≤ s.now)
    let s := { s with trg.timerDue := s.trg.timerDue.filter (fun d => s.now < d) }
    if due then raise 0xD0 s else s

/-- Meaning of TIMER_INSTANT. -/
def execTimerInstant (s : State) : Host.Outcome State Fault Refusal := .next (timerInstant s)

/-! ## Delivery (R178, R221) -/

/-- Whether TRIG_OUT pulses for the owning fires of a unit (R177). -/
def trigOutFor (unit : Nat) (s : State) : Bool :=
  match app TRG_OUT_CFG.MODE s with
  | 1 => true
  | 2 => bit (app TRG_OUT_CFG.MASK s) unit
  | _ => false

/-- A time in fraction LSBs to the nearest tick; halfway between two the spec does not say which. -/
def nearestTick (t : Int) (s : State) : Int × State :=
  if t % 65536 = 32768 then
    let f := draw s
    (t / 65536 + (f.1 % 2 : Nat), f.2)
  else ((t + 32768) / 65536, s)

/-- The start of the TRIG_OUT pulse of a delivered fire or confirm (R177). -/
def trigOutStart (d : Delivery) (s : State) : State :=
  if !(trigOutFor d.unit s) then s
  else if d.confirm then { s with trg.outStart := s.trg.outStart ++ [4 * (d.decided + 8)] }
  else
    let r := nearestTick (d.time + 64 * 4 * 65536) s
    let least : Nat := 4 * (d.due + 4)
    { r.2 with trg.outStart := r.2.trg.outStart ++ [if r.1 < (least : Int) then least else r.1.toNat] }

/-- A fire or candidate reaches the record engine: the units of the reduction chapter begin its record (R221, R235, R238, R241). -/
def beginRecord (d : Delivery) (s : State) : State :=
  match s.record.recs.find? (fun r => r.unit == d.unit && r.time == d.time && r.phase != .armed && !r.delivered) with
  | none => s
  | some r =>
    let s := muBegin r (perBegin r ((List.range 4).foldl (fun s n => auBegin n r s) s))
    { s with record.recs := s.record.recs.map (fun x => if x.id == r.id then { x with delivered := true } else x) }

/-- One delivery. An owning fire, and a confirm for its candidate, raises the unit's event, pulses TRIG_OUT, and is sent on Erost. -/
def deliver (d : Delivery) (s : State) : State :=
  let s := if d.confirm then s else beginRecord d s
  if d.candidate && !d.confirm then s
  else sendFire d.unit d.time (trigOutStart d (raise (1 + d.unit) s))

/-- FIRE_DELIVERY: the deliveries due in this slot. -/
def fireDelivery (s : State) : State :=
  let due := s.trg.deliveries.filter (fun d => d.due ≤ s.now)
  due.foldl (fun s d => deliver d s) { s with trg.deliveries := s.trg.deliveries.filter (fun d => s.now < d.due) }

/-- Meaning of FIRE_DELIVERY. -/
def execFireDelivery (s : State) : Host.Outcome State Fault Refusal := .next (fireDelivery s)

/-! ## TRIG_OUT (R177) -/

/-- The width of a pulse in ticks. -/
def trigOutWidth (s : State) : Nat := 4 * Nat.max 1 (app TRG_OUT_CFG.WIDTH s)

/-- The level of the TRIG_OUT pin: a pulse at polarity POL, 0 active high (R177, R186). -/
def trigOutPin (s : State) : Bool := s.trg.outEnd.isSome != (app TRG_OUT_CFG.POL s == 1)

/-- TRIG_OUT_PULSE_START: pulses whose start lies in this slot start, or extend the running one. -/
def trigOutPulseStart (s : State) : State :=
  let due := s.trg.outStart.filter (fun t => t < 4 * (s.now + 1))
  due.foldl (fun s t =>
    let e := t + trigOutWidth s
    { s with trg.outEnd := some (match s.trg.outEnd with | some x => Nat.max x e | none => e) })
    { s with trg.outStart := s.trg.outStart.filter (fun t => 4 * (s.now + 1) ≤ t) }

/-- Meaning of TRIG_OUT_PULSE_START. -/
def execTrigOutPulseStart (s : State) : Host.Outcome State Fault Refusal := .next (trigOutPulseStart s)

/-- TRIG_OUT_PULSE_END: a pulse whose end lies in this slot ends. -/
def trigOutPulseEnd (s : State) : State :=
  match s.trg.outEnd with
  | some e => if e < 4 * (s.now + 1) then { s with trg.outEnd := none } else s
  | none => s

/-- Meaning of TRIG_OUT_PULSE_END. -/
def execTrigOutPulseEnd (s : State) : Host.Outcome State Fault Refusal := .next (trigOutPulseEnd s)

end Sys2Proof.Machine
end

