-- ==== Sys2Proof/Machine/Tasks.lean ====
section
/-! DEFINITION. The tasks of the stops (R313 to R315). -/

namespace Sys2Proof.Machine

/-- What one count of a stop does, stops 32 to 47 apart, which waitev consumes (R315). -/
def stopEffect (n : Nat) (s : State) : State :=
  if n < 52 then trgSw (2 ^ (n - 48)) s
  else if n = 52 then localStart s
  else if n = 53 then localStop s
  else if n = 54 then engineRearm s
  else if n = 55 then muTake s
  else set HFR_ATTN.STOP 1 s

/-- STOP_TASK: a DMA channel that asks for a count takes it; the tasks of stops 48 to 56 run while their count is not zero, once in a
slot. Other stops have no task of their own. -/
def stopTask (n : Nat) (s : State) : State :=
  if n < 32 then dmaGrant n s
  else if 48 ≤ n ∧ n ≤ 56 ∧ canRun n s = true then stopEffect n (consume n s)
  else s

/-- Meaning of STOP_TASK. -/
def execStopTask (stop : Nat) (s : State) : Host.Outcome State Fault Refusal := .next (stopTask stop s)

end Sys2Proof.Machine
end

