-- ==== Sys2Proof/Machine/Abort.lean ====
section
/-! DEFINITION. The global abort (R537 to R541), host presence and absence (R96, R97, R411, R543), and supply loss (R544, R545). -/

namespace Sys2Proof.Machine

/-! ## Global abort -/

/-- ABORT_N, qualified: ignored while PRES_N is high and until SP1 is ungated; it wakes the device where the fabric is stopped (R522, R537,
R541). -/
def abortPin (s : State) : State :=
  if s.boot.presN || !s.boot.sp1Open then s
  else abortRequest 0 (wake 6 s)

/-- Meaning of ABORT_N. -/
def execAbortN (s : State) : Host.Outcome State Fault Refusal := .next (abortPin s)

/-- Every active channel aborts (R305, R538). -/
def dmaGlobalAbort (s : State) : State := (List.range 32).foldl (fun s n => dmaAbort n s) s

/-- The rows of R538. -/
def abortRows (s : State) : State :=
  let s := serialGlobalAbort (dmaGlobalAbort (perAbort (auAbort (recAbort (trgGlobalAbort (stimGlobalAbort s))))))
  let s := if on LOG_ABORT_CTRL.SEQ s then seqAbortRequest s else s
  set PWR_CTRL.HOLD_RUN 0 s

/-- GLOBAL_ABORT: from the slot after the request the rows of R538 apply, once. -/
def globalAbort (s : State) : State :=
  match s.abort.since with
  | some t => if !s.abort.acted && t < s.now && !s.pwr.fabricStopped then abortRows { s with abort.acted := true } else s
  | none => s

/-- Meaning of GLOBAL_ABORT. -/
def execGlobalAbort (s : State) : Host.Outcome State Fault Refusal := .next (globalAbort s)

/-- Whether the rows of R538 are complete: channels stopped, and the sequencer's abort with SEQ. -/
def abortDone (s : State) : Bool :=
  !(s.dma.chans.any (fun c => c.active && c.aborting.isSome)) && (!(on LOG_ABORT_CTRL.SEQ s) || s.seq.abortAt.isNone)

/-- GLOBAL_ABORT_COMPLETE: the device enters IDLE, and the abort is recorded (R538, R539). -/
def globalAbortComplete (s : State) : State :=
  match s.abort.since with
  | some t =>
    if s.abort.acted && abortDone s then
      let d := s.now - t
      let s := restAt 2 { s with pwr.entry := none, abort.since := none, abort.acted := false }
      fault 0x1101 0 d (get LOG_ABORT_STAT.SRC s) (set LOG_ABORT_TIME.LAST (Nat.min 65535 d) (set LOG_ABORT_STAT.BUSY 0 s))
    else s
  | none => s

/-- Meaning of GLOBAL_ABORT_COMPLETE. -/
def execGlobalAbortComplete (s : State) : Host.Outcome State Fault Refusal := .next (globalAbortComplete s)

/-! ## Presence (R96, R97, R411, R543) -/

/-- The engine forgets the last executed frame; the current reply becomes empty and replies of frames in flight will be discarded (R411). -/
def forgetFrame (s : State) : State :=
  { s with hfr.last := none, hfr.current := {}, hfr.stored := {}, hfr.currentOf := none, hfr.prev := 0,
           hfr.flight := s.hfr.flight.map (fun f => { f with discard := true }) }

/-- ABSENT_POLICY: IDLE and DOZE stop the engine and move when nothing demands RUN (R96, R516). DEDUCED: log entry 88. -/
def absentPolicy (s : State) : State :=
  match get SYS_BOOT_CFG.ABSENT_POLICY s with
  | 1 => { engineStop s with pwr.policy := some 2 }
  | 2 => { engineStop s with pwr.policy := some 3 }
  | _ => s

/-- An end of presence, for a host that is present. -/
def endPresence (cause : Nat) (s : State) : State :=
  if s.boot.present then
    let s := set HFR_STAT.PRESENT 0 { s with boot.present := false, boot.synced := false }
    absentPolicy (forgetFrame (fault 0x0B03 0 0 cause (raise 0x3B s)))
  else s

/-- HOST_ABSENT: SP1_CLK has shown no edge for 10 ms. While the fabric is stopped the time is taken as passed. -/
def hostAbsent (s : State) : State :=
  if s.pwr.fabricStopped || s.sp.sp1Clock + 10240000 ≤ s.now then endPresence 0 s else s

/-- Meaning of HOST_ABSENT. -/
def execHostAbsent (s : State) : Host.Outcome State Fault Refusal := .next (hostAbsent s)

/-- PRES_N_RISE: presence ends at once and SP1 is gated. -/
def presNRise (s : State) : State :=
  endPresence 1 { s with boot.presN := true, boot.presFall := none, boot.sp1Open := false, boot.synced := false }

/-- Meaning of PRES_N_RISE. -/
def execPresNRise (s : State) : Host.Outcome State Fault Refusal := .next (presNRise s)

/-- PRES_N_FALL: the 1 ms of R97 starts; with PWR_WAKE_EN[2] it wakes the device (R522). -/
def presNFall (s : State) : State :=
  if s.boot.presN then wakeIf 2 3 { s with boot.presN := false, boot.presFall := some s.now } else s

/-- Meaning of PRES_N_FALL. -/
def execPresNFall (s : State) : Host.Outcome State Fault Refusal := .next (presNFall s)

/-- SP1_UNGATE: PRES_N has stayed low for 1 ms (±0.1 ms). DEDUCED: log entry 90. -/
def sp1Ungate (s : State) : State :=
  match s.boot.presFall with
  | some t =>
    if !s.boot.presN && !s.boot.sp1Open && (s.pwr.fabricStopped || t + 921600 ≤ s.now) then
      forgetFrame { s with boot.sp1Open := true, boot.synced := false }
    else s
  | none => s

/-- Meaning of SP1_UNGATE. -/
def execSp1Ungate (s : State) : Host.Outcome State Fault Refusal := .next (sp1Ungate s)

/-! ## Supply loss (R94, R544, R545) -/

/-- What no reset of the device touches: levels on its pins from outside, the OTP array, the queue of commands, and the model's own
counters of free values. How much of a word that was being programmed has been set is open. -/
def outside (old new : State) : State :=
  let t := { new with boot.presN := old.boot.presN, boot.otpSet := old.boot.otpSet, memory.blvLoss := old.memory.blvLoss + 1,
                      clk.refs := (old.clk.refs.map (fun r => ({ present := r.present } : RefMon))), freeCtr := old.freeCtr,
                      pending := old.pending }
  match old.boot.otpBusy with
  | none => t
  | some (w, d, _) =>
    let f := draw t
    { f.2 with boot.otpSet := put t.boot.otpSet w (look t.boot.otpSet w 0 ||| (d &&& f.1)) }

/-- Whether the monitors of VDD_CORE and VDD_AVE are masked: the PS code is 5, or has changed from it and PWR_GOOD has not risen since (R559). -/
def railsMasked (s : State) : Bool :=
  s.pwr.fabricStopped && (match s.pwr.exit with | some x => x.from_ == 5 && !s.pwr.good | none => get PWR_STAT.RUNG s == 5)

/-- RAIL_LOSS of VDD_CORE (0), VDD_AVE (1) or VDD_IO (2): every domain but the always-on one is reset; the ledger, TRY_SLOT, the retained
log and LOG_RST_CAUSE survive. A ledger write ends where it stands, its header not yet written (R92, R94). In DORMANT the first two are off
and masked (R559). -/
def railLoss (rail : Nat) (s : State) : State :=
  if rail < 2 && railsMasked s then s
  else
    let writing := s.boot.write.isSome
    let t := outside s State.reset
    let t := { t with boot.ledger := s.boot.ledger, boot.cleared := s.boot.cleared,
                      log.retained := s.log.retained }
    set SYS_BOOT_CTRL.TRY_SLOT (get SYS_BOOT_CTRL.TRY_SLOT s)
      (set LOG_RST_CAUSE.CAUSE 1 (set LOG_RST_CAUSE.LAST_RUNG (get PWR_STAT.RUNG s) (setB LOG_RST_CAUSE.WRITING writing t)))

/-- Meaning of RAIL_LOSS. -/
def execRailLoss (rail : Nat) (s : State) : Host.Outcome State Fault Refusal := .next (railLoss rail s)

/-- Meaning of VDD_AO_RESET: the whole device is reset. -/
def execVddAoReset (s : State) : Host.Outcome State Fault Refusal := .next (outside s State.reset)

end Sys2Proof.Machine
end

