-- ==== Sys2Proof/Machine/BootRegs.lean ====
section
/-! DEFINITION. Register writes of the waking-up chapter (R85, R93, R102, R106) and the completion of host frames (R410, R414, R418). -/

namespace Sys2Proof.Machine

/-! ## OTP (R84, R85, R106) -/

/-- An OTP word: what the factory left, and the bits set since. -/
def otpWordNow (n : Nat) (s : State) : Nat := (Config.otpWord n ||| look s.boot.otpSet n 0) % 2 ^ 32

/-- Whether a word may be programmed: KEY_HASH until KEY_LOCK, word 0x0A, and the AES key slots. DEDUCED: log entry 91. -/
def otpProgrammable (n : Nat) (s : State) : Bool :=
  (2 ≤ n && n ≤ 9 && !(bit (otpWordNow 0x0A s) 1)) || n == 0x0A || (0x10 ≤ n && n ≤ 0x1F)

/-- A write of SEC_OTP_CMD: PROG starts to program the word, or is refused. One word at a time: a command while one runs is refused. -/
def otpCmdWrite (v : Nat) (s : State) : State :=
  let s := if bit v 2 then set SEC_OTP_CMD.REFUSED 0 s else s
  if !(bit v 0) then s
  else
    let w := get SEC_OTP_ADDR.WORD s
    if mode s != 7 || !(otpProgrammable w s) || s.boot.otpBusy.isSome then set SEC_OTP_CMD.REFUSED 1 s
    else set SEC_OTP_CMD.BUSY 1 { s with boot.otpBusy := some (w, get SEC_OTP_DATA.DATA s, s.now) }

/-- Meaning of OTP_PROG: a write of SEC_OTP_CMD. -/
def execOtpProg (value : Nat) (s : State) : Host.Outcome State Fault Refusal := .next (otpCmdWrite value s)

/-- OTP_PROG_DONE: 100 µs (±10 %) after the command the word's bits are set. -/
def otpProgDone (s : State) : State :=
  match s.boot.otpBusy with
  | some (w, d, t) =>
    if t + 92160 ≤ s.now then
      set SEC_OTP_CMD.BUSY 0 { s with boot.otpBusy := none, boot.otpSet := put s.boot.otpSet w (look s.boot.otpSet w 0 ||| d) }
    else s
  | none => s

/-- Meaning of OTP_PROG_DONE. -/
def execOtpProgDone (s : State) : Host.Outcome State Fault Refusal := .next (otpProgDone s)

/-- What a read of SEC_OTP_DATA returns. -/
def otpRead (s : State) : Nat :=
  let w := get SEC_OTP_ADDR.WORD s
  if 0x10 ≤ w ∧ w ≤ 0x1F then 0 else otpWordNow w s

/-! ## The ledger's end of a write and its clearing (R92, R93, R105) -/

/-- COPY and GEN as the ledger stands. With no valid copy both read 0, their reset values; the spec is silent (DESIGN CHOICE, log entry 124). -/
def refreshLedger (s : State) : State :=
  match newestCopy s with
  | some n => set SYS_LEDGER.COPY n (set SYS_LEDGER.GEN (((ledgerCopy n s).map (·.gen)).getD 0) s)
  | none => set SYS_LEDGER.COPY 0 (set SYS_LEDGER.GEN 0 s)

/-- SYS_LEDGER.CLEAR: a write in progress is abandoned and both copies are invalid. -/
def ledgerClear (s : State) : State :=
  set SYS_LEDGER.WRITING 0 (ledgerVoid { s with boot.write := none, boot.newer := false, boot.cleared := true })

/-- Meaning of LEDGER_CLEAR. -/
def execLedgerClear (s : State) : Host.Outcome State Fault Refusal := .next (ledgerClear s)

/-- LEDGER_WRITE_DONE: the write ends once its last line, the header's, has been carried. A newer generation follows at once (R92). -/
def ledgerWriteDone (s : State) : State :=
  match s.boot.write with
  | some w =>
    if w.lines.isEmpty then
      let s := set SYS_LEDGER.WRITING 0 { s with boot.write := none, boot.cleared := false }
      if s.boot.newer then startLedger { s with boot.newer := false } else s
    else s
  | none => s

/-- Meaning of LEDGER_WRITE_DONE. -/
def execLedgerWriteDone (s : State) : Host.Outcome State Fault Refusal := .next (ledgerWriteDone s)

/-! ## SYS_BOOT_CTRL (R69, R102) -/

/-- GO: the download area is processed, once, while the boot engine waits for it: its claims read the header's four lines first (R69, R576). -/
def bootGo (s : State) : State :=
  if s.boot.phase = .hostWait then { s with boot.phase := .streaming, boot.current := 2, boot.lines := [], boot.want := 4 } else s

/-- A write of SYS_BOOT_CTRL. -/
def bootCtrlWrite (v : Nat) (s : State) : State :=
  let s := set SYS_BOOT_CTRL.TRY_SLOT v s
  if bit v 8 then bootGo s else s

/-- Meaning of GO. -/
def execGo (s : State) : Host.Outcome State Fault Refusal := .next (bootGo s)

/-! ## Completion of frames (R410, R413, R414, R418) -/

/-- The reply of a frame. -/
def replyOf (x : InFlight) : Reply :=
  { status := 0, alive := x.frame.alive, kind := x.frame.type * 16 + x.frame.cls * 4, result := x.result, errIdx := x.errIdx, payload := x.payload }

/-- A frame completes: its reply is stored when no later frame was executed, and is current when none was executed or refused since. -/
def completeFrame (q : Nat) (s : State) : State :=
  match s.hfr.flight.find? (fun x => x.serial == q) with
  | none => s
  | some x =>
    let s := { s with hfr.flight := s.hfr.flight.filter (fun y => y.serial != q) }
    if x.discard then s
    else
      let s := if x.serial = s.hfr.serial then { s with hfr.stored := replyOf x } else s
      if s.hfr.currentOf = some q then set HFR_ATTN.REPLY 1 { s with hfr.current := replyOf x, hfr.currentOf := none } else s

/-- The REQ that awaits firmware. -/
def pendingReq (s : State) : Option InFlight := s.hfr.flight.find? (fun x => x.frame.type == 6 && !x.done)

/-- DONE: it clears PENDING and completes the frame, whose reply carries RESULT and the first LEN words of HFR_RSP_BUF (R418). -/
def reqDone (s : State) : State :=
  if on HFR_REQ_STAT.PENDING s then
    let r := get HFR_REQ_RSP.RESULT s
    let ok := r = 0 ∨ 0x80 ≤ r
    let n := Nat.min 1024 (get HFR_REQ_RSP.LEN s)
    let words := (List.range n).map (fun i => get (HFR_RSP_BUF.WORD i) s)
    let s := set HFR_REQ_STAT.PENDING 0 s
    match pendingReq s with
    | none => s
    | some x => completeFrame x.serial (setFrame x.serial (fun y =>
        { y with done := true, result := if ok then r else 0x10, payload := if ok then words else [] }) s)
  else s

/-- A write of HFR_REQ_RSP. -/
def reqRspWrite (v : Nat) (s : State) : State :=
  let s := set HFR_REQ_RSP.RESULT (v / 256) (set HFR_REQ_RSP.LEN (v / 65536) s)
  if bit v 0 then reqDone s else s

/-- Meaning of DONE: a write of HFR_REQ_RSP. -/
def execDone (value : Nat) (s : State) : Host.Outcome State Fault Refusal := .next (reqRspWrite value s)

/-- The causes of HFR_ATTN that follow their sources (R420). -/
def refreshAttn (s : State) : State :=
  setB HFR_ATTN.DMA_END (get DMA_GEND.END s &&& get HFR_DMA_MASK.MASK s != 0)
    (setB HFR_ATTN.ERR_LOG (0 < get LOG_STAT.DEPTH s) (set HFR_ATTN.FIFO (get (EVT_Q_STAT.WMS 6) s) s))

/-- Whether HFR_ATTN & HFR_ATTN_EN is non-zero. -/
def attention (s : State) : Bool :=
  let t := refreshAttn s
  (get HFR_ATTN.STOP t + 2 * get HFR_ATTN.DMA_END t + 4 * get HFR_ATTN.ERR_LOG t + 8 * get HFR_ATTN.REPLY t + 16 * get HFR_ATTN.FIFO t) &&&
    get HFR_ATTN_EN.EN t != 0

/-- HFR_STAT's live fields (R421). -/
def refreshHfr (s : State) : State :=
  refreshAttn (set HFR_STAT.INFLIGHT s.hfr.flight.length (setB HFR_STAT.PENDING (s.hfr.current.result == 1) s))

end Sys2Proof.Machine
end

