-- ==== Sys2Proof/Machine/RegBus.lean ====
section
/-! DEFINITION. The register bus (R257, R549, R575): reads and writes of every register, and the broadcast windows (R133, R550, R551). -/

namespace Sys2Proof.Machine

/-! ## Values and plain writes (R575) -/

/-- The value a register shows: WO and W1S fields read as zero, like reserved bits. -/
def regValue (a : Addr) (s : State) : Nat :=
  ((fieldsAt a).map (fun f =>
    if f.acc = .wo ∨ f.acc = .w1s then 0 else get f.fld s * 2 ^ f.fld.lo)).foldl (· + ·) 0

/-- A write of the fields that have no further effect: RW fields take their bits, W1C fields lose the bits written as 1. -/
def plainWrite (a : Addr) (v : Nat) (s : State) : State :=
  (fieldsAt a).foldl (fun s f =>
    match f.acc with
    | .rw => set f.fld (v / 2 ^ f.fld.lo) s
    | .w1c =>
      let old := get f.fld s
      set f.fld (old - (old &&& bits v f.fld.lo f.fld.width)) s
    | _ => s) s

/-- The number of a register among those of one name. -/
def nthReg (a base stride : Nat) : Nat := (a - base) / stride

/-! ## Writes with an effect, block by block -/

/-- SYS, PWR and CLK. -/
def writeSys (a v : Nat) (s : State) : State :=
  if a = SYS_MODE.addr then modeWrite v s
  else if a = SYS_BOOT_CTRL.addr then bootCtrlWrite v s
  else if a = SYS_LEDGER.addr then (if bit v 4 then ledgerClear s else s)
  else if a = SYS_SEQ_CTRL.addr then (if bit v 0 then seqAbortRequest s else s)
  else if a = PWR_CTRL.addr then pwrCtrlWrite v s
  else if a = PWR_AVS_LIM.addr then avsLimWrite v s
  else if a = CLK_REF_CTRL.addr then refCtrlWrite v s
  else if a = CLK_REF_THR.addr then refThrWrite v s
  else if a = CLK_TIME_CMD.addr then timeCmdWrite v s
  else plainWrite a v s

/-- AVE. -/
def writeAve (a v : Nat) (s : State) : State :=
  if a < 0x40104400 then
    let r := (a - 0x40100000) % 0x100
    if r = 0 then scCtrlWrite (nthReg a 0x40100000 0x100) v s
    else if r = 0x08 ∨ r = 0x0C ∨ r = 0x10 then trimWrite a v s
    else plainWrite a v s
  else plainWrite a v s

/-- TRG: the fields of TRG_CTRL apply before its ABORT. -/
def writeTrg (a v : Nat) (s : State) : State :=
  if a = TRG_SW.addr then trgSw (v % 16) s
  else
    let s := plainWrite a v s
    if a < 0x40200100 ∧ a % 0x40 = 0 ∧ bit v 1 = true then abortUnit (nthReg a 0x40200000 0x40) s else s

/-- REC: START, STOP and REARM of one write act in the order of their bits. DEDUCED: log entry 92. -/
def writeRec (a v : Nat) (s : State) : State :=
  if a = REC_CTRL.addr then
    let s := if bit v 0 then localStart s else s
    let s := if bit v 1 then localStop s else s
    if bit v 2 then engineRearm s else s
  else if a = REC_RELEASE.addr then release v (plainWrite a v s)
  else if a = REC_GEN_CMD.addr then commitCmd v s
  else if a = REC_CQ_CTRL.addr then (let s := plainWrite a v s
    if bit v 0 then cqPop s else s)
  else plainWrite a v s

/-- RED and MU. -/
def writeRed (a v : Nat) (s : State) : State :=
  if 0x40400100 ≤ a ∧ a < 0x40400180 ∧ a % 0x20 = 0 then
    let s := plainWrite a v s
    if bit v 1 then restartAu (nthReg a 0x40400100 0x20) s else s
  else if a = MU_SNAP.addr then (if bit v 0 then muTake s else s)
  else plainWrite a v s

/-- SQ, BLV and DMA. -/
def writeMem (a v : Nat) (s : State) : State :=
  if a = SQ_PLAN_CMD.addr then planCmdWrite v s
  else if a = SQ_PS_DATA.addr then psDataWrite v s
  else if 0x40700000 ≤ a ∧ a < 0x40700800 ∧ a % 0x40 < 0x18 then dmaChRegWrite a v s
  else plainWrite a v s

/-- EVT. A 1 to CLR of a stop clears its counter at the end of the slot; every other write applies in the next slot (R316, R323). -/
def writeEvt (a v : Nat) (s : State) : State :=
  if a < 0x40780100 then evtLineSrcWrite (nthReg a 0x40780000 4) v s
  else
    let s := if 0x40780400 ≤ a ∧ a < 0x40780500 ∧ bit v (EVT_STOP_CNT.CLR 0).lo = true then stopClear (nthReg a 0x40780400 4) s else s
    evtWrite a v s

/-- SP0, SP1 and SP2. The fields of SPn_CTRL apply before its ABORT. -/
def writeSp (a v : Nat) (s : State) : State :=
  let p := (a - 0x40800000) / 0x10000
  let r := (a - 0x40800000) % 0x10000
  if r = 0 then
    let s := plainWrite a v s
    let s := if bit v 1 then serialAbort p s else s
    if p = 2 then slaveNext s else s
  else if r = 0x10 then spnCmd p v s
  else if a = SP0_XIP_TMPL.addr then templateWrite v s
  else if a = SP0_XIP_FREQ.addr then xipFreqWrite v s
  else if 0x50 ≤ r ∧ r < 0x90 then
    let n := (r - 0x50) / 16
    if r % 16 = 0x0C then winCfgWrite n v s
    else (fieldsAt a).foldl (fun s f => winFieldWrite n f.fld v s) s
  else plainWrite a v s

/-- DSP, STM, AMP and KRB. -/
def writeLine (a v : Nat) (s : State) : State :=
  if a = DSP_CTRL.addr then dspCtrlWrite v s
  else if a = DSP_CMD.addr then dspCmdWrite v s
  else if a = DSP_LINECMP.addr then lineCmpWrite v s
  else if a = STM_CTRL.addr then stmCtrlWrite v s
  else if a = STM_AUDIO_CTRL.addr then toneEnWrite v s
  else if a = STM_AUDIO_SRC.addr then stmAudioSrcWrite v s
  else if a = STM_TONE_PUSH.addr then stmTonePush v s
  else if a = STM_SPK_PUSH.addr then stmSpkPush v s
  else if a = STM_PAIR_PUSH.addr then stmSpkPush (v / 65536) (stmTonePush v s)
  else if a = AMP_CTRL.addr then ampCtrlWrite v s
  else if a = KRB_CTRL.addr then (if bit v 0 then kerbUntrip s else s)
  else if a = KRB_STAT.addr ∨ a = KRB_LIGHT_THR.addr ∨ a = KRB_QUIET.addr then kerbProtectedWrite a v s
  else if a = KRB_UNLOCK.addr then krbUnlock v s
  else if a = KRB_OVR.addr then krbOvr v s
  else plainWrite a v s

/-- HFR, ERL, SEC and LOG. -/
def writeRest (a v : Nat) (s : State) : State :=
  if a = HFR_REQ_RSP.addr then reqRspWrite v s
  else if a = ERL_CTRL.addr then (if bit v 0 then erostRestart s else s)
  else if a = 0x40B00100 ∨ a = 0x40B00200 then portCtrlWrite ((a - 0x40B00100) / 0x100) v s
  else if a = SEC_OTP_CMD.addr then otpCmdWrite v s
  else if a = LOG_CTRL.addr then logCtrlWrite v s
  else if a = LOG_ABORT_CTRL.addr then abortCtrlWrite v s
  else plainWrite a v s

/-- A write of one register that R548 names. DESIGN CHOICE: log entry 30. -/
def regWrite (a v : Nat) (s : State) : State :=
  let v := v % 2 ^ 32
  if a < 0x40100000 then writeSys a v s
  else if a < 0x40200000 then writeAve a v s
  else if a < 0x40300000 then writeTrg a v s
  else if a < 0x40400000 then writeRec a v s
  else if a < 0x40500000 then writeRed a v s
  else if a < 0x40780000 then writeMem a v s
  else if a < 0x40800000 then writeEvt a v s
  else if a < 0x40880000 then writeSp a v s
  else if 0x40900000 ≤ a ∧ a < 0x40B00000 then writeLine a v s
  else writeRest a v s

/-! ## Reads -/

/-- EVT_OVR as the stops' OVERRUN fields stand. -/
def refreshOvr (s : State) : State :=
  let word := fun (lo : Nat) => ((List.range 32).map (fun i => 2 ^ i * get (EVT_STOP_CNT.OVERRUN (lo + i)) s)).foldl (· + ·) 0
  set EVT_OVR_LO.OVR (word 0) (set EVT_OVR_HI.OVR (word 32) s)

/-- EVT_Q_CFG of queues 0 to 4 as the registers that set their watermarks stand (R323). -/
def refreshWm (s : State) : State := (List.range 5).foldl (fun s q => set (EVT_Q_CFG.WM q) (queueWm q s) s) s

/-- Live fields of the block that a register belongs to are brought up to date; registers whose read does something do it. -/
def refreshAt (a : Addr) (s : State) : State :=
  if a < 0x40010000 then refreshLedger (refreshSeq s)
  else if a < 0x40020000 then s
  else if a < 0x40100000 then refreshGates s
  else if a < 0x40200000 then set AVE_CFG.CONFIG (activeConfig s) s
  else if a < 0x40200100 then refreshTrgStat (nthReg a 0x40200000 0x40) s
  else if a < 0x40300000 then s
  else if a < 0x40400000 then refreshRecStat s
  else if a = SQ_PS_DATA.addr then psDataRead s
  else if a < 0x40780000 then s
  else if a < 0x40800000 then refreshWm (refreshOvr s)
  else if a = SP0_RXD.addr then spnRxd 0 s
  else if a = SP2_RXD.addr then spnRxd 2 s
  else if a < 0x40880000 then refreshSp s
  else if a < 0x40881000 then refreshHfr s
  else if 0x40A00000 ≤ a ∧ a < 0x40A10000 then refreshStm s
  else if 0x40D00000 ≤ a then refreshLog s
  else s

/-- The next occurrence is logged anew once its counter has been read. -/
def forgetLogged (a : Addr) (s : State) : State :=
  if a = STM_SLIP.addr then { s with line.slipLogged := false }
  else if a = DSP_CNT.addr then { s with dsp.teLogged := false }
  else if a = SQ_ECC.addr then { s with memory.ceLogged := false }
  else if a = BLV_ECC.addr then { s with memory.blvCeLogged := false }
  else if a = HFR_CNT.addr then { s with hfr.badLogged := false, hfr.gapLogged := false }
  else if a = CLK_PPS_CNT.addr then { s with clk.ppsLogged := false }
  else if a = 0x40B00108 ∨ a = 0x40B00208 then
    setPort ((a - 0x40B00108) / 0x100) (fun p => { p with vc0Logged := false, refusedLogged := false }) s
  else if 0x40400004 ≤ a ∧ a < 0x40400044 ∧ a % 0x10 = 4 then
    setOut (nthReg a 0x40400004 0x10) (fun o => { o with ovfLogged := false }) s
  else s

/-- RC fields of a register clear. The word that SPn_RXD popped has left its queue already. -/
def readClear (a : Addr) (s : State) : State :=
  forgetLogged a ((fieldsAt a).foldl (fun s f => if f.acc = .rc then set f.fld 0 s else s) s)

/-- A read of one register that R548 names. -/
def regRead (a : Addr) (s : State) : Nat × State :=
  if a = SEC_OTP_DATA.addr then (otpRead s, s)
  else
    let s := refreshAt a s
    (regValue a s, readClear a s)

/-! ## Broadcast windows (R133, R550, R551) -/

/-- The blocks with a broadcast window. -/
inductive Bcast where
  | ave | trg | mu | dma
  deriving DecidableEq, Repr

/-- The window that an address lies in, with the offset into it. -/
def bcastAt (a : Addr) : Option (Bcast × Nat) :=
  if 0x4010F000 ≤ a ∧ a < 0x40200000 then some (.ave, a - 0x4010F000)
  else if 0x4020F000 ≤ a ∧ a < 0x40300000 then some (.trg, a - 0x4020F000)
  else if 0x4048F000 ≤ a ∧ a < 0x40500000 then some (.mu, a - 0x4048F000)
  else if 0x4070F000 ≤ a ∧ a < 0x40780000 then some (.dma, a - 0x4070F000)
  else none

/-- The address of a block's first unit, and the stride between units. -/
def Bcast.origin : Bcast → Nat × Nat
  | .ave => (0x40100000, 0x100)
  | .trg => (0x40200000, 0x40)
  | .mu => (0x40480000, 0x40)
  | .dma => (0x40700000, 0x40)

/-- The units that some selected group of eight holds. DEDUCED: log entry 93. -/
def groupUnits (n sel : Nat) (members : Nat → Nat) : List Nat :=
  (List.range n).filter (fun u => (List.range 8).any (fun g => bit sel g && bit (members g) u))

/-- The units that a block's group register selects, lowest first; a FAILED sub-converter is no off-duty one (R126, R133). -/
def bcastUnits (b : Bcast) (s : State) : List Nat :=
  match b with
  | .ave =>
    let g := get AVE_BCAST_GROUP.GROUP s
    (List.range 68).filter (fun sc =>
      if g = 0 then true
      else if 4 ≤ g ∧ g ≤ 7 then sc / 17 == g - 4
      else if 8 ≤ g ∧ g ≤ 11 then effInput (sc / 17) s == g - 8
      else if g = 12 then (posOf sc s).isNone && get (AVE_SC_STAT.STATE sc) s != 5
      else false)
  | .trg => (List.range 4).filter (bit (get TRG_BCAST_GROUP.MASK s))
  | .mu => groupUnits 16 (get MU_BCAST_GROUP.GROUPS s) (fun g => get (MU_GRP_DEF.MEMBERS g) s)
  | .dma => groupUnits 32 (get DMA_BCAST_GROUP.GROUPS s) (fun g => get (DMA_GRP_DEF.MEMBERS g) s)

/-- A block's mismatch flag. -/
def bcastMismatch (b : Bcast) (s : State) : State :=
  match b with
  | .ave => set AVE_STAT.BCAST_MISMATCH 1 s
  | .trg => set TRG_GSTAT.BCAST_MISMATCH 1 s
  | .mu => set MU_GSTAT.BCAST_MISMATCH 1 s
  | .dma => set DMA_GSTAT.BCAST_MISMATCH 1 s

/-- Whether an offset in a window names a register of a unit. -/
def bcastMapped (b : Bcast) (o : Nat) : Bool := o % 4 == 0 && o < b.origin.2 && (regRowAt (b.origin.1 + o)).isSome

/-- A write in a window: as a write of each selected unit's register. -/
def bcastWrite (b : Bcast) (o v : Nat) (s : State) : State :=
  (bcastUnits b s).foldl (fun s u => regWrite (b.origin.1 + u * b.origin.2 + o) v s) s

/-- A read in a window: the lowest selected unit's value, the mismatch flag, and the effects of a read on every selected unit. -/
def bcastRead (b : Bcast) (o : Nat) (s : State) : Nat × State :=
  let r := (bcastUnits b s).foldl (fun (acc : List Nat × State) u =>
    let x := regRead (b.origin.1 + u * b.origin.2 + o) acc.2
    (acc.1 ++ [x.1], x.2)) ([], s)
  match r.1 with
  | [] => (0, r.2)
  | v :: rest => (v, if rest.any (fun w => w != v) then bcastMismatch b r.2 else r.2)

/-! ## The bus (R257, R549) -/

/-- Whether an address of the register space names a register, or a place in a broadcast window. -/
def busMapped (a : Addr) : Bool :=
  match bcastAt a with
  | some (b, o) => bcastMapped b o
  | none => a % 4 == 0 && (regRowAt a).isSome

/-- A word write on the register bus by a master; an unmapped one is dropped and logged. The result says whether it was mapped. -/
def busWrite (owner : Owner) (a v : Nat) (s : State) : Bool × State :=
  if busMapped a then
    (true, match bcastAt a with | some (b, o) => bcastWrite b o (v % 2 ^ 32) s | none => regWrite a v s)
  else (false, unmapped owner a s)

/-- A word read on the register bus by a master; an unmapped one returns zero and is logged. -/
def busRead (owner : Owner) (a : Addr) (s : State) : Bool × Nat × State :=
  if busMapped a then
    (true, match bcastAt a with | some (b, o) => bcastRead b o s | none => regRead a s)
  else (false, 0, unmapped owner a s)

/-- Whether an address lies in the register space (R255). -/
def inRegs (a : Addr) : Bool := 0x40000000 ≤ a && a < 0x41000000

/-- The host's word writes and reads of the register space; an address outside it does nothing here. -/
def hostOwner : Owner := 0

/-- Meaning of REGISTER_WRITE: a word write on the register bus. -/
def execRegisterWrite (addr value : Nat) (s : State) : Host.Outcome State Fault Refusal := .next (busWrite hostOwner addr value s).2

/-- Meaning of BROADCAST_WRITE: a write in a broadcast window. -/
def execBroadcastWrite (addr value : Nat) (s : State) : Host.Outcome State Fault Refusal := .next (busWrite hostOwner addr value s).2

/-- Meaning of BROADCAST_READ: a read in a broadcast window. Its value goes to the master; the state shows what the read did. -/
def execBroadcastRead (addr : Nat) (s : State) : Host.Outcome State Fault Refusal := .next (busRead hostOwner addr s).2.2

end Sys2Proof.Machine
end

