-- ==== Sys2Proof/Machine/HostFrames.lean ====
section
/-! DEFINITION. Host frames (R405 to R421) with the rules of R98 and R99: judgement, execution and completion. -/

namespace Sys2Proof.Machine

/-! ## The frame (R405, R406) -/

/-- A frame of a type as the port passes it on; its CRC is right, so it is that of its bytes. -/
def frameOf (type : Nat) (f : FrameIn) : Frame :=
  let head := [type * 16 + f.flags % 16, f.alive % 256] ++ leBytes 2 f.len ++ leBytes 4 f.addr
  { type := type, cls := bits f.flags 2 2, flags := bits f.flags 0 2, alive := f.alive % 256, len := f.len, addr := f.addr,
    payload := f.payload, crc := crc32c (head ++ f.payload.flatMap (fun w => leBytes 4 w)) }

/-- Whether a READ or WRITE uses one address for every word. -/
def Frame.fixed (f : Frame) : Bool := bit f.flags 0

/-- The words that a READ, WRITE or RMW touches. -/
def Frame.count (f : Frame) : Nat := if f.type = 2 then nth f.payload 0 0 else if f.type = 3 then f.len else 1

/-- The address of word `i` (R412). -/
def Frame.wordAddr (f : Frame) (i : Nat) : Addr := if f.fixed then f.addr else f.addr + 4 * i

/-- The class a frame is handled in: an ABORT frame as class 0 (R419). -/
def Frame.eff (f : Frame) : Nat := if f.type = 7 then 0 else f.cls

/-- Whether an address lies in the Square or the Boulevard aperture. -/
def memSide (a : Addr) : Bool := seqRegion a == .square || seqRegion a == .aper

/-- Whether a range of words touches the Square or the aperture. -/
def Frame.memory (f : Frame) : Bool :=
  (f.type == 2 || f.type == 3) && (memSide f.addr || memSide (f.addr + 4 * f.count - 4) ||
    (decide (f.addr < 0x60000000) && decide (0x60000000 < f.addr + 4 * f.count) && !f.fixed))

/-- Whether L is wrong for the type, or a count lies outside its range (R406). -/
def Frame.lengthBad (f : Frame) : Bool :=
  match f.type with
  | 0 => f.len != 0
  | 1 => f.len != 0
  | 2 => f.len != 1 || nth f.payload 0 0 == 0 || decide (1024 < nth f.payload 0 0)
  | 3 => f.len == 0
  | 4 => f.len != 2
  | 5 => f.len != 1 || nth f.payload 0 0 % 16 != 0 || nth f.payload 0 0 == 0 || decide (1024 < nth f.payload 0 0)
  | 6 => false
  | 7 => f.len != 0
  | _ => true

/-- The region rules of R412: a range that touches the Square or the aperture is aligned, whole and inside one of them; RMW reaches the
register space only. -/
def Frame.regionBad (f : Frame) : Bool :=
  if f.type = 4 then !(inRegs f.addr)
  else if f.memory then
    f.addr % 64 != 0 || f.count % 16 != 0 || f.fixed || !(memSide f.addr) || seqRegion f.addr != seqRegion (f.addr + 4 * f.count - 4)
  else false

/-- Whether an intact frame is malformed in format (R406). -/
def Frame.formatBad (f : Frame) : Bool :=
  bit f.flags 1 || f.lengthBad || ((f.type == 2 || f.type == 3 || f.type == 4) && (f.addr % 4 != 0 || f.regionBad))

/-! ## Judgement (R98, R99, R408 to R410, R415) -/

/-- What a frame may do before the boot is complete (R99): SYNC, reads of SYS_BOOT_STAT, and where a download is awaited writes of the
download area and of SYS_BOOT_CTRL, by an RMW frame too. DESIGN CHOICE: log entry 131. -/
def bootAllows (f : Frame) (s : State) : Bool :=
  let only := fun (a : Addr) => f.addr == a && (f.fixed || f.count == 1)
  let download := get SYS_BOOT_STAT.PATH s == 2 || on SYS_BOOT_STAT.HOST_WAIT s
  if f.type = 1 then true
  else if f.formatBad then false
  else match f.type with
    | 2 => only SYS_BOOT_STAT.addr
    | 3 => download && (only SYS_BOOT_CTRL.addr || (f.memory && f.addr < 0x61000000 && f.addr + 4 * f.count ≤ 0x61000000))
    | 4 => download && f.addr == SYS_BOOT_CTRL.addr
    | _ => false

/-- The RESULT with which a frame is refused, none when it is executed (R98, R99, R415). -/
def refusal (f : Frame) (s : State) : Option Nat :=
  if !s.boot.synced && f.type != 1 then some 3
  else if !(bootEnded s) && !(bootAllows f s) then some 2
  else if 4 ≤ s.hfr.flight.length || (f.type == 6 && (pendingReq s).isSome) then some 4
  else none

/-- The bytes of a reply (R407). -/
def replyBytes (r : Reply) : List Nat :=
  let b := [r.status, r.alive, r.kind, r.result] ++ leBytes 2 r.payload.length ++ leBytes 2 r.errIdx ++ r.payload.flatMap (fun w => leBytes 4 w)
  b ++ leBytes 4 (crc32c b)

/-- A transaction is counted, and its read phase sends the current reply, with the flags of the transaction before it and BUSY and ATTN as they
stand (R408, R409), as far as the host clocks it out, and zeros beyond (R398, R399). -/
def sendReply (f : FrameIn) (s : State) : State :=
  let r := s.hfr.current
  let r := { r with status := s.hfr.prev + 8 * b2n (1 ≤ r.result && r.result ≤ 4) + 16 * b2n (attention s) }
  let b := replyBytes r
  bump SP1_CNT.TRANS { s with sp.sp1Clock := s.now, hfr.sent := r, sp.sp1Out := (List.range (replyClocked f s)).map (fun i => nth b i 0) }

/-- The flags that the next reply carries of this transaction's frame: 1 bad, 2 duplicate, 4 gap. -/
def setPrev (n : Nat) (s : State) : State := { s with hfr.prev := n }

/-- A bad frame is counted, and logged once for each read of HFR_CNT (R410, step 1). -/
def badFrame (s : State) : State :=
  let s := setPrev 1 (bump HFR_CNT.BAD s)
  if s.hfr.badLogged then s else fault 0x0B01 0 (get HFR_CNT.BAD s) 0 { s with hfr.badLogged := true }

/-- A duplicate: the current reply becomes the stored one (R410, step 3). -/
def duplicateFrame (s : State) : State :=
  let s := setPrev 2 (bump HFR_CNT.DUP s)
  { s with hfr.current := s.hfr.stored, hfr.currentOf := if s.hfr.stored.result = 1 then some s.hfr.serial else none }

/-- An answer without payload. -/
def shortReply (f : Frame) (result : Nat) : Reply :=
  { alive := f.alive, kind := f.type * 16 + f.cls * 4, result := result, errIdx := 0xFFFF }

/-- A refused frame (R410, step 4). -/
def refuseFrame (f : Frame) (result : Nat) (s : State) : State :=
  setPrev 0 (bump HFR_CNT.REFUSED { s with hfr.current := shortReply f result, hfr.currentOf := none })

/-! ## Execution (R411, R412, R414, R418, R419) -/

/-- A SYNC starts presence; replies of frames in flight are discarded (R96, R411). -/
def startPresence (s : State) : State :=
  let s := { s with hfr.flight := s.hfr.flight.map (fun x => { x with discard := true }), boot.synced := true }
  if s.boot.present then s
  else raise 0x3A (set HFR_STAT.PRESENT 1 { s with boot.present := true })

/-- A REQ is handed to firmware (R418). -/
def takeReq (f : Frame) (s : State) : State :=
  let s := f.payload.zipIdx.foldl (fun s p => set (HFR_REQ_BUF.WORD p.2) p.1 s) s
  set HFR_REQ_ADDR.CODE f.addr (set HFR_REQ_STAT.PENDING 1 (set HFR_REQ_STAT.ALIVE f.alive (set HFR_REQ_STAT.LEN f.len s)))

/-- The 40-bit address of a memory frame (R256). -/
def frameAddr (f : Frame) (s : State) : Addr :=
  if seqRegion f.addr = .aper then get (BLV_APER.BASE 1) s * 2 ^ 28 + (f.addr - 0x70000000) else f.addr

/-- The SP1 download path's owner code in the model (R576). -/
abbrev downloadOwner : Owner := 0x40

/-- A memory frame starts: on its DMA channel, or before the boot is complete by the boot plan's claims (R412). DEDUCED: log entry 97. -/
def memoryStart (x : InFlight) (s : State) : State :=
  let f := x.frame
  let a := frameAddr f s
  if !(bootEnded s) then
    (List.range (f.count / 16)).foldl (fun s k =>
      addAcc ⟨downloadOwner, a + 64 * k, .write, ((f.payload.drop (16 * k)).take 16).flatMap (fun w => leBytes 4 w), allOn, .none, s.now⟩ s)
      { s with hfr.dmaFrame := some x.serial }
  else
    let n := get HFR_CFG.CHAN s
    if (chOf n s).active then setFrame x.serial (fun y => { y with done := true, result := 0x17 }) s
    else frameStart n x.serial (f.type == 3) a f.count s

/-- Frames in flight in the order of their work: by class, then by arrival (R414). -/
def workOrder (s : State) : List InFlight := (List.range 4).flatMap (fun c => s.hfr.flight.filter (fun x => x.frame.eff == c))

/-- The next memory frame starts when no frame uses the channel. -/
def memoryAdvance (s : State) : State :=
  (workOrder s).foldl (fun s x => if x.frame.memory && !x.done && s.hfr.dmaFrame.isNone then memoryStart x s else s) s

/-- An executed frame: it becomes the last executed frame, with GAP when its counter skips, and its reply is PENDING (R410, step 5). -/
def executeFrame (f : Frame) (s : State) : State :=
  let gap := f.type != 1 && (match s.hfr.last with | some l => f.alive != (l.1 + 1) % 256 | none => false)
  let s := if gap then
      let s := setPrev 4 (bump HFR_CNT.GAP s)
      if s.hfr.gapLogged then s else fault 0x0B02 0 (get HFR_CNT.GAP s) 0 { s with hfr.gapLogged := true }
    else setPrev 0 s
  let q := s.hfr.serial + 1
  let bad := f.formatBad
  let s := if bad then s else match f.type with
    | 1 => startPresence s
    | 6 => takeReq f s
    | 7 => abortRequest 1 s
    | _ => s
  let x : InFlight := { frame := f, done := bad, payload := [], result := if bad then 0x10 else 0, errIdx := 0xFFFF, discard := false, serial := q }
  let r := shortReply f 1
  let s := set HFR_STAT.LAST_ALIVE f.alive (set HFR_STAT.LAST_TYPE f.type
    { s with hfr.serial := q, hfr.last := some (f.alive, f.crc), hfr.stored := r, hfr.current := r, hfr.currentOf := some q,
             hfr.flight := s.hfr.flight ++ [x] })
  memoryAdvance s

/-- An intact frame is judged (R410, steps 2 to 5). DEDUCED: log entry 95. -/
def judgeFrame (f : Frame) (s : State) : State :=
  if f.type = 0 then setPrev 0 s
  else if s.hfr.last = some (f.alive, f.crc) then duplicateFrame s
  else match refusal f s with
    | some r => refuseFrame f r s
    | none => executeFrame f s

/-- Whether SP1 receives: ungated, enabled, and the fabric running. -/
def sp1Receives (s : State) : Bool := s.boot.sp1Open && !s.boot.presN && on SP1_CTRL.ENABLE s && !s.pwr.fabricStopped

/-- A malformed transaction: the port counts it and passes a bad frame; its read phase sends nothing. -/
def malformedTransaction (s : State) : State := badFrame (sp1Malformed s)

/-- Whether a transaction is malformed before the end of its write phase (R400). -/
def frameShort (f : FrameIn) : Bool := controlBad f.control || decide (1024 < f.len) || f.payload.length != f.len

/-- One transaction with a frame of a type. A frame that is complete at the end of its write phase is judged as it came, even where the
transaction turns out malformed after it (R400). DEDUCED: log entry 94. -/
def frameIn (type : Nat) (f : FrameIn) (s : State) : State :=
  if !(sp1Receives s) || sp1Aborted f.since s then s
  else if frameShort f then malformedTransaction s
  else
    let s := sendReply f s
    let s := if f.crcOk then judgeFrame (frameOf type f) s else badFrame s
    if f.cut then noteMalformed s else s

/-- Meaning of NOP (frame). -/
def execFrameNop (f : FrameIn) (s : State) : Host.Outcome State Fault Refusal := .next (frameIn 0 f s)
/-- Meaning of SYNC. -/
def execSync (f : FrameIn) (s : State) : Host.Outcome State Fault Refusal := .next (frameIn 1 f s)
/-- Meaning of READ. -/
def execFrameRead (f : FrameIn) (s : State) : Host.Outcome State Fault Refusal := .next (frameIn 2 f s)
/-- Meaning of WRITE. -/
def execFrameWrite (f : FrameIn) (s : State) : Host.Outcome State Fault Refusal := .next (frameIn 3 f s)
/-- Meaning of RMW. -/
def execRmw (f : FrameIn) (s : State) : Host.Outcome State Fault Refusal := .next (frameIn 4 f s)
/-- Meaning of BULK. -/
def execBulk (f : FrameIn) (s : State) : Host.Outcome State Fault Refusal := .next (frameIn 5 f s)
/-- Meaning of REQ. -/
def execReq (f : FrameIn) (s : State) : Host.Outcome State Fault Refusal := .next (frameIn 6 f s)
/-- Meaning of ABORT (frame). -/
def execAbortFrame (f : FrameIn) (s : State) : Host.Outcome State Fault Refusal := .next (frameIn 7 f s)
/-- Meaning of a frame of a reserved type. -/
def execReservedFrameType (type : Nat) (f : FrameIn) (s : State) : Host.Outcome State Fault Refusal :=
  .next (frameIn (8 + type % 8) f s)

/-! ## Malformed transactions (R400, R522) -/

/-- Meaning of SP1_TRANSACTION_MALFORMED: SP1_CS_N or PRES_N rises before the write phase ends, or the port judges it malformed otherwise. -/
def execSp1TransactionMalformed (since : Nat) (s : State) : Host.Outcome State Fault Refusal :=
  .next (if sp1Receives s && !(sp1Aborted since s) then malformedTransaction s else s)

/-- SP1_CS_WAKE: SP1_CS_N falls with PRES_N low while the fabric is stopped: with PWR_WAKE_EN[1] it wakes the device, and its transaction
counts as malformed (R522). -/
def sp1CsWake (s : State) : State :=
  if s.pwr.fabricStopped && !s.boot.presN && bit (get PWR_WAKE_EN.EN s) 1 then wake 2 (malformedTransaction s) else s

/-- Meaning of SP1_CS_WAKE. -/
def execSp1CsWake (s : State) : Host.Outcome State Fault Refusal := .next (sp1CsWake s)

/-! ## Words (R412, R413) -/

/-- Whether a word may be accessed now: a word of ITCM or DTCM by its port (R361). -/
def wordMay (a : Addr) (s : State) : Bool := (tcmOf a).isNone || masterPort a s

/-- A word of ITCM or DTCM read by another master. -/
def tcmRead (a : Addr) (s : State) : Option Nat × Nat × State :=
  let w := tcmWord a s
  (if w.2 then some 0x14 else none, w.1, takePort a 1 s)

/-- One word read: its failure if any, the word, and the state after it. -/
def hostReadWord (a : Addr) (s : State) : Option Nat × Nat × State :=
  match seqRegion a with
  | .reg => let r := busRead hostOwner a s; (if r.1 then none else some 0x11, r.2.1, r.2.2)
  | .itcm => tcmRead a s
  | .dtcm => tcmRead a s
  | _ => (some 0x11, 0, unmapped hostOwner a s)

/-- One word written. -/
def hostWriteWord (a : Addr) (v : Nat) (s : State) : Option Nat × State :=
  match seqRegion a with
  | .reg => let r := busWrite hostOwner a v s; (if r.1 then none else some 0x11, r.2)
  | .itcm => (none, tcmStore a (leBytes 4 v) (takePort a 1 s))
  | .dtcm => (none, tcmStore a (leBytes 4 v) (takePort a 1 s))
  | _ => (some 0x11, unmapped hostOwner a s)

/-- A frame notes a failure of word `i`. -/
def noteWord (q i : Nat) (r : Option Nat) (s : State) : State :=
  match r with
  | some e => setFrame q (InFlight.fail e i) s
  | none => s

/-- The next word of a READ. -/
def readNext (x : InFlight) (s : State) : State :=
  let r := hostReadWord (x.frame.wordAddr x.next) s
  setFrame x.serial (fun y => { y with payload := y.payload ++ [r.2.1] }) (noteWord x.serial x.next r.1 r.2.2)

/-- The next word of a WRITE. -/
def writeNext (x : InFlight) (s : State) : State :=
  let r := hostWriteWord (x.frame.wordAddr x.next) (nth x.frame.payload x.next 0) s
  noteWord x.serial x.next r.1 r.2

/-- An RMW: the register is read, (old & ~MASK) | (VALUE & MASK) is written, and the old value returned. DEDUCED: log entry 96. -/
def rmwWord (x : InFlight) (s : State) : State :=
  let r := busRead hostOwner x.frame.addr s
  let old := r.2.1
  let v := nth x.frame.payload 0 0
  let m := nth x.frame.payload 1 0
  let s := if r.1 then (busWrite hostOwner x.frame.addr ((old &&& (2 ^ 32 - 1 - m % 2 ^ 32)) ||| (v &&& m)) r.2.2).2 else r.2.2
  setFrame x.serial (fun y => { y with payload := [old] }) (noteWord x.serial 0 (if r.1 then none else some 0x11) s)

/-- How many lines a BULK takes: MAXW / 16, or the depth of the output FIFO when its execution begins if that is less (R417). -/
def bulkCount (x : InFlight) (s : State) : Nat := x.lines.getD (Nat.min (nth x.frame.payload 0 0 / 16) s.dma.fifo.length)

/-- A BULK takes the next line of the output FIFO, one in a slot (R417). -/
def bulkNext (x : InFlight) (s : State) : State :=
  match s.dma.fifo with
  | [] => s
  | l :: rest => setFrame x.serial (fun y => { y with payload := y.payload ++ (List.range 16).map (fun i => ofLe (slice l (4 * i) 4)) })
      { s with dma.fifo := rest, hfr.bulkSlot := some s.now }

/-- What SYNC answers (R406). -/
def syncWords (s : State) : List Nat := [SYS_ID.addr, SYS_UID_LO.addr, SYS_UID_HI.addr, SYS_BOOT_STAT.addr].map (fun a => regValue a s)

/-! ## Completion (R410, R414) -/

/-- Whether a frame can complete now: memory frames when their data has moved, a REQ when firmware has answered. -/
def completable (x : InFlight) : Bool := x.done || !(x.frame.memory || x.frame.type == 6)

/-- The parts of a frame's work: the words of a READ or WRITE, the lines of a BULK, one for the others. -/
def frameParts (x : InFlight) (s : State) : Nat :=
  match x.frame.type with
  | 2 => x.frame.count
  | 3 => x.frame.count
  | 5 => bulkCount x s
  | _ => 1

/-- Whether the next part of a frame's work may be done now. -/
def frameMay (x : InFlight) (s : State) : Bool :=
  x.done || frameParts x s ≤ x.next ||
  match x.frame.type with
  | 2 => wordMay (x.frame.wordAddr x.next) s
  | 3 => wordMay (x.frame.wordAddr x.next) s
  | 5 => s.hfr.bulkSlot != some s.now
  | _ => true

/-- The next part of a frame's work that is not done by another agent. -/
def frameWork (x : InFlight) (s : State) : State :=
  if x.done || frameParts x s ≤ x.next then s
  else
    let n := bulkCount x s
    let s := match x.frame.type with
      | 1 => setFrame x.serial (fun y => { y with payload := syncWords s }) s
      | 2 => readNext x s
      | 3 => { writeNext x { s with hfr.running := some x.serial } with hfr.running := none }
      | 4 => { rmwWord x { s with hfr.running := some x.serial } with hfr.running := none }
      | 5 => bulkNext x s
      | _ => s
    setFrame x.serial (fun y => { y with next := y.next + 1, lines := some n }) s

/-- The frame that the engine works on (R414): the oldest one of class 0; else the one that it has begun; else the first in order. -/
def frameNext (s : State) : Option InFlight :=
  let l := (workOrder s).filter completable
  match l.find? (fun x => x.frame.eff == 0) with
  | some x => some x
  | none => (match l.find? (fun x => 0 < x.next) with | some x => some x | none => l.head?)

/-- A download frame is done once the boot plan's claims have served all its lines. -/
def downloadEnd (s : State) : State :=
  match s.hfr.dmaFrame with
  | some q =>
    if s.hfr.flight.any (fun x => x.serial == q && !x.done) && !(s.dma.chans.any (fun c => c.active && frameCh c)) &&
        !(s.memory.acc.any (fun a => a.owner == downloadOwner)) then
      setFrame q (fun x => { x with done := true }) { s with hfr.dmaFrame := none }
    else s
  | none => s

/-- FRAME_COMPLETE: the engine does the next part of a frame's work, a word or a line, so that a frame of class 0 goes ahead at a word boundary
(R414); with the last part the frame completes. -/
def frameComplete (s : State) : State :=
  if s.pwr.fabricStopped then s
  else
    let s := downloadEnd s
    match frameNext s with
    | none => memoryAdvance s
    | some x =>
      if !(frameMay x s) then memoryAdvance s
      else
        let n := frameParts x s
        let s := frameWork x s
        memoryAdvance (if x.done || n ≤ x.next + 1 then completeFrame x.serial s else s)

/-- Meaning of FRAME_COMPLETE. -/
def execFrameComplete (s : State) : Host.Outcome State Fault Refusal := .next (frameComplete s)

/-- The level of the HOST_ATTN ball, none while its driver is off (R420). -/
def hostAttn (s : State) : Option Bool := if s.boot.presN then none else some (!(attention s))

end Sys2Proof.Machine
end

