-- ==== Sys2Proof/Machine/SeqMem.lean ====
section
/-! DEFINITION. The core's loads and stores (R330, R364, R367, R370), the drain of the store buffer (R363), the return of outstanding loads
(R357), XIP lines (R369, R391 to R394), fetch errors (R331) and illegal words (R326). -/

namespace Sys2Proof.Machine

/-! ## What an access meets (R255, R256, R330) -/

/-- The 40-bit address of the core's address: the aperture maps by BLV_APER0 (R256). -/
def seqAddr (raw : Nat) (s : State) : Addr :=
  if seqRegion raw = .aper then get (BLV_APER.BASE 0) s * 2 ^ 28 + (raw - 0x70000000) else raw

/-- The range of R255 in which a 40-bit address lies: there the aperture is unmapped, and the Boulevard ends with its data space (R257). The
Boulevard goes by the aperture's name. -/
def region40 (a : Addr) (s : State) : SeqRegion :=
  if a < 2 ^ 32 then (if seqRegion a = .aper then .none else seqRegion a) else if inBlv a s then .aper else .none

/-- The range that an access of the core reaches: an address in the aperture goes by the 40-bit address that it maps to (R256). -/
def targetRegion (raw : Nat) (s : State) : SeqRegion := if seqRegion raw = .aper then region40 (seqAddr raw s) s else seqRegion raw

/-- Whether a core address is mapped: an XIP address by an enabled window (R386), an aperture address by what it maps to. -/
def seqMapped (raw : Nat) (s : State) : Bool :=
  match targetRegion raw s with
  | .none => false
  | .xip => (windowAt (seqAddr raw s) s).isSome
  | _ => true

/-- What R330 says of an access of `n` bytes: 0 it is allowed, 3 ACCESS, 4 unmapped. An access that runs out of a range into an unmapped
address is an access to an unmapped address. DEDUCED: log entry 55. -/
def accessKind (raw n : Nat) (store : Bool) (s : State) : Nat :=
  let last := raw + n - 1
  let ra := targetRegion raw s
  let rb := targetRegion last s
  if (ra == .reg || rb == .reg) && (n != 4 || raw % 4 != 0) then 3
  else if ra != rb && ra != .none && rb != .none then 3
  else if store && (ra == .xip || rb == .xip) then 3
  else if seqMapped raw s && seqMapped last s then 0 else 4

/-! ## Forwarding from the store buffer (R364) -/

/-- Whether a buffered store overlaps the bytes. -/
def StoreEntry.overlaps (e : StoreEntry) (a n : Nat) : Bool := e.addr < a + n && a < e.addr + e.size

/-- What the store buffer has for a load: nothing overlaps it (`none`), or the youngest overlapping store, and whether it covers it. -/
def bufferHit (a n : Nat) (s : State) : Option (StoreEntry × Bool) :=
  (s.seq.buffer.reverse.find? (fun e => e.overlaps a n)).map (fun e => (e, decide (e.addr ≤ a ∧ a + n ≤ e.addr + e.size)))

/-- The value of a load of `n` bytes, extended. -/
def extended (n : Nat) (signed : Bool) (v : Nat) : Word :=
  let v := v % 2 ^ (8 * n)
  if signed && bit v (8 * n - 1) then BitVec.ofNat 32 (v + 2 ^ 32 - 2 ^ (8 * n)) else BitVec.ofNat 32 v

/-! ## Coverage (R370) -/

/-- Whether all lines of an access are covered. -/
def accessCovered (a n : Nat) (write : Bool) (s : State) : Bool := (linesOf a n).all (fun l => lineCovered l write s)

/-- An instruction waits in IS for coverage; the wait is logged once. -/
def waitCover (s : State) : State :=
  let s := set SYS_SEQ_COV.WAIT 1 s
  if s.seq.waitLogged then s else fault 0x0904 0 0 0 { s with seq.waitLogged := true }

/-! ## XIP lines (R369, R385) -/

/-- The flash address of the line at an XIP line address, with its window. -/
def xipFlash (line : Addr) (s : State) : Option (Nat × Addr) :=
  (windowAt line s).map (fun w =>
    (w.1, (if get SYS_BOOT_STAT.SLOT s = 1 then 0x1000000 else 0) + get (SP0_WIN_FLASH.FLASH_OFS w.1) s * 4096 + w.2))

/-- The line buffer that holds a line. -/
def xipHeld (line : Addr) (s : State) : Option XipLine :=
  match xipFlash line s with
  | some (w, a) => s.seq.xip.find? (fun l => l.window == w && l.addr == a)
  | none => none

/-- A line is asked for, when no other line is being read. DEDUCED: log entry 53. -/
def xipAsk (line : Addr) (s : State) : State :=
  if s.seq.xipMiss.isSome then s
  else match xipFlash line s with
    | some (w, a) => { s with seq.xipMiss := some ⟨w, line, a, none⟩ }
    | none => s

/-- An access to a line: a hit counts and makes the line the last used; a miss counts and asks for the line. -/
def xipTouch (line : Addr) (s : State) : State :=
  match xipHeld line s with
  | some h =>
    bump SYS_SEQ_XIP.HITS { s with
      seq.xipUse := s.seq.xipUse + 1
      seq.xip := s.seq.xip.map (fun l => if l == h then { l with used := s.seq.xipUse + 1 } else l) }
  | none => xipAsk line (bump SYS_SEQ_XIP.MISSES s)

/-- The XIP line that the outstanding load still lacks. -/
def xipNeed (s : State) : Option Addr :=
  match s.seq.load with
  | some l => if seqRegion l.addr = .xip then (l.lines.find? (fun x => x.2.isNone)).map (·.1) else none
  | none => none

/-! ## Loads -/

/-- A load's data is there: it is written, with FLT.FENCED and 0x0405 for fenced bytes (R209, R330), and ECC_LOAD after the write for
uncorrectable data (R346). -/
def finishLoad (instr epc : Word) (raw n : Nat) (signed : Bool) (d : Fin 16) (v : Nat) (bad fenced : Bool) (wait : Nat) (s : State) : State :=
  let s := setG d (extended n signed v) wait s
  let s := if fenced then fault 0x0405 seqOwner 0 0 { s with seq.sys.fenced := true } else s
  if bad then exception 5 0 raw instr epc s else s

/-- The value of a load from ITCM or DTCM, and whether a word of it is uncorrectable. -/
def tcmLoad (a n : Nat) (s : State) : Nat × Bool :=
  let w := tcmWord a s
  let o := a % 4
  if o + n ≤ 4 then (w.1 / 2 ^ (8 * o), w.2)
  else
    let x := tcmWord (a + 4) s
    ((w.1 + 2 ^ 32 * x.1) / 2 ^ (8 * o), w.2 || x.2)

/-- The load's bytes from the lines that came. -/
def loadValue (a n : Nat) (lines : List (Addr × Option (List Nat))) : Nat :=
  ofLe ((List.range n).map (fun i =>
    match lines.find? (fun x => x.1 == lineOf (a + i)) with
    | some (l, some b) => nth b (a + i - l) 0
    | _ => 0))

/-- The load at `instr` becomes outstanding: the lines that the group buffer or an XIP line buffer holds are there at once. -/
def issueLoad (instr : Word) (raw a n : Nat) (signed : Bool) (d : Fin 16) (s : State) : State :=
  let ls := linesOf a n
  let s := { s with seq.load := some ⟨instr, raw, a, n, signed, d, ls.map (fun l => (l, none)), false, false⟩ }
  if inSquare a then ls.foldl (fun s l => addAcc ⟨seqOwner, l, .read, [], [], .load, s.now / 2 * 2 + 4⟩ s) s
  else if seqRegion a = .xip then
    ls.foldl (fun s l =>
      let held := xipHeld l s
      let s := xipTouch l s
      match held with
      | some h => loadLine l h.data false false s
      | none => s) s
  else loadFromGroup s

/-- Whether every line of the outstanding load is there. -/
def loadComplete (s : State) : Bool := match s.seq.load with | some l => l.lines.all (fun x => x.2.isSome) | none => false

/-- A load instruction (R330, R364, R365, R367, R370). A load that the line buffers serve at once returns after 4 cycles; one from ITCM or
DTCM waits for its port, which it takes for a cycle, crossing for two (R361). -/
def loadInstr (n : Nat) (signed : Bool) (d a : Fin 16) (imm : BitVec 14) (s : State) : State :=
  if otherOk [a] s then
    let raw := (gr a s + imm14s imm).toNat
    let adr := seqAddr raw s
    let instr := s.seq.pc
    match accessKind raw n false s with
    | 0 =>
      if seqRegion adr = .reg then
        if drained s then
          let r := busRead seqOwner adr s
          if r.1 then retire 8 8 (setG d (BitVec.ofNat 32 r.2.1) 8 r.2.2) else precise 4 0 raw r.2.2
        else waitStores s
      else
        match bufferHit adr n s with
        | some (e, covers) =>
          if covers then
            finishLoad instr (instr + 4) raw n signed d (e.data / 2 ^ (8 * (adr - e.addr))) false false 3 (retire 1 1 (endWait s))
          else s
        | none =>
          if inTcm adr then
            let v := tcmLoad adr n s
            let cost := if 4 < adr % 4 + n then 2 else 1
            if portFree adr s then finishLoad instr (instr + 4) raw n signed d v.1 v.2 false (cost + 2) (retire cost 1 (takePort adr cost s))
            else s
          else if accessCovered adr n false s then
            let s := issueLoad instr raw adr n signed d (retire 1 1 (endWait s))
            match s.seq.load with
            | some l =>
              if loadComplete s then
                finishLoad instr (instr + 4) raw n signed d (loadValue adr n l.lines) l.bad l.fenced 4 { s with seq.load := none }
              else s
            | none => s
          else waitCover s
    | 3 => precise 3 0 raw s
    | _ => precise 4 0 raw (unmapped seqOwner adr s)
  else s

def execLb (d a : Fin 16) (imm : BitVec 14) (s : State) : Host.Outcome State Fault Refusal := .next (loadInstr 1 true d a imm s)
def execLbu (d a : Fin 16) (imm : BitVec 14) (s : State) : Host.Outcome State Fault Refusal := .next (loadInstr 1 false d a imm s)
def execLh (d a : Fin 16) (imm : BitVec 14) (s : State) : Host.Outcome State Fault Refusal := .next (loadInstr 2 true d a imm s)
def execLhu (d a : Fin 16) (imm : BitVec 14) (s : State) : Host.Outcome State Fault Refusal := .next (loadInstr 2 false d a imm s)
def execLw (d a : Fin 16) (imm : BitVec 14) (s : State) : Host.Outcome State Fault Refusal := .next (loadInstr 4 false d a imm s)

/-- Cycles from the return of an outstanding load until a dependent may issue (R367): from the Square the next cycle start after the slot, from
the group buffer the first one at or after it, from an XIP line 4 cycles. -/
def returnWait (l : LoadOut) (s : State) : Nat :=
  if inSquare l.addr then 1 else if seqRegion l.addr = .xip then 4 else s.now % 2

/-- LOAD_RETURN: the data of the outstanding load that is due is taken, and with the last line the load completes; during an abort the data
is discarded (R349). A load whose XIP window went raises BUS_LOAD (R386). -/
def loadReturn (s : State) : State :=
  let due := fun (f : Flight) => f.tag == .load && decide (f.due ≤ s.now)
  let got := s.memory.flight.filter due
  let s := { s with memory.flight := s.memory.flight.filter (fun f => !(due f)) }
  let s := got.foldl (fun s f => loadLine f.addr f.data f.bad f.fenced s) s
  let s := loadFromGroup s
  match s.seq.load with
  | none => s
  | some l =>
    let next := 2 * (s.now / 2 + returnWait l s)
    if loadComplete s then
      let s := { s with seq.load := none, seq.busyUntil := Nat.max s.seq.busyUntil next }
      if s.seq.abortAt.isSome then s
      else finishLoad l.pc s.seq.pc l.raw l.size l.signed l.d (loadValue l.addr l.size l.lines) l.bad l.fenced (returnWait l s) s
    else match xipNeed s with
      | some x =>
        if (windowAt x s).isNone then
          let s := { s with seq.load := none }
          if s.seq.abortAt.isSome then s else exception 4 0 l.raw l.pc l.pc (unmapped seqOwner x s)
        else s
      | none => s

/-- Meaning of LOAD_RETURN. -/
def execLoadReturn (s : State) : Host.Outcome State Fault Refusal := .next (loadReturn s)

/-! ## Stores (R330, R363, R370) -/

/-- A store instruction enters the store buffer. A store to an unmapped address enters it too and is refused when it drains (R347).
DEDUCED: log entry 54. -/
def storeInstr (n : Nat) (d a : Fin 16) (imm : BitVec 14) (s : State) : State :=
  if otherOk [a, d] s then
    let raw := (gr a s + imm14s imm).toNat
    let adr := seqAddr raw s
    match accessKind raw n true s with
    | 3 => precise 3 0 raw s
    | k =>
      if 4 ≤ s.seq.buffer.length then s
      else if k = 0 && !(accessCovered adr n true s) then waitCover s
      else pushStore raw adr n ((gr d s).toNat % 2 ^ (8 * n)) (retire 1 1 (endWait s))
  else s

def execSb (d a : Fin 16) (imm : BitVec 14) (s : State) : Host.Outcome State Fault Refusal := .next (storeInstr 1 d a imm s)
def execSh (d a : Fin 16) (imm : BitVec 14) (s : State) : Host.Outcome State Fault Refusal := .next (storeInstr 2 d a imm s)
def execSw (d a : Fin 16) (imm : BitVec 14) (s : State) : Host.Outcome State Fault Refusal := .next (storeInstr 4 d a imm s)

/-- The part of a store within the line of its address. -/
def headPart (e : StoreEntry) : Nat := Nat.min e.size (lineOf e.addr + 64 - e.addr)

/-- The bytes of a store within the resident group are written into it; a store that crosses into another line keeps the rest as the head. -/
def storeToGroup (e : StoreEntry) (s : State) : State :=
  match s.seq.group with
  | none => s
  | some b =>
    let k := headPart e
    let i := blvOfs e.addr / 64 % 8
    let o := e.addr % 64
    let line := (List.range 64).map (fun j => if o ≤ j && j < o + k then bits e.data (8 * (j - o)) 8 else nth (nth b.data i []) j 0)
    let s := { s with seq.group := some { b with data := b.data.set i line, dirty := true } }
    if k = e.size then popStore s
    else
      let rest : StoreEntry := { e with addr := e.addr + k, size := e.size - k, data := e.data / 2 ^ (8 * k) }
      { s with seq.buffer := rest :: s.seq.buffer.drop 1 }

/-- Whether a store to ITCM or DTCM may drain now: its port is free, and it has waited 4 cycles or the cycle's other users had their turn, which
they have in its first slot (R361). DESIGN CHOICE: log entry 105. -/
def drainMay (e : StoreEntry) (s : State) : Bool :=
  portFree e.addr s && (decide (e.head + 8 ≤ s.now) || (s.now % 2 == 1 && !(fetchTook e.addr s)))

/-- The head store drains into ITCM or DTCM: one word in a cycle, so that a crossing store goes in two parts (R361, R367). -/
def drainTcm (e : StoreEntry) (s : State) : State :=
  let k := Nat.min e.size (4 - e.addr % 4)
  let s := tcmWrite e.addr (leBytes k e.data) (takePort e.addr 1 s)
  if k = e.size then popStore s
  else
    let rest : StoreEntry := { e with raw := e.raw + k, addr := e.addr + k, size := e.size - k, data := e.data / 2 ^ (8 * k) }
    { s with seq.buffer := rest :: s.seq.buffer.drop 1 }

/-- STORE_DRAIN: the head store takes effect when its time has come (R363): in ITCM and DTCM by their ports, in the register space 6 cycles after it
became the head and with the group buffer clean, in the Boulevard on entry into the resident group. A store to the Square takes effect by its
claim. A store to an unmapped address is refused (R330, R347). The address is that of its issue (R256). -/
def storeDrain (s : State) : State :=
  match s.seq.buffer with
  | [] => s
  | e :: _ =>
    if s.now < e.head then s
    else match region40 e.addr s with
      | .square => s
      | .reg =>
        if s.now < e.head + 12 then s
        else if !(groupClean s) then askClean s
        else
          let r := busWrite seqOwner e.addr e.data s
          popStore (if r.1 then r.2 else refuseStore e.raw false r.2)
      | .aper =>
        if groupHolds (lineOf e.addr) s && !((s.seq.group.map (·.flushing)).getD false) then storeToGroup e s else s
      | .itcm => if drainMay e s then drainTcm e s else s
      | .dtcm => if drainMay e s then drainTcm e s else s
      | _ => popStore (refuseStore e.raw false (unmapped seqOwner e.addr s))

/-- Meaning of STORE_DRAIN. -/
def execStoreDrain (s : State) : Host.Outcome State Fault Refusal := .next (storeDrain s)

/-! ## XIP line reads (R369, R391 to R394) -/

/-- The cycles from a line read's start to its first word (R369). -/
def xipCycles (s : State) : Nat := 6 + ceilDiv (512 * templateClocks s * 100000) (freqOf (get SP0_XIP_FREQ.FREQ s))

/-- XIP_LINE_READ: the line asked for is read once the transfer in progress has ended, unless HOLD is set (R391, R392). -/
def xipLineRead (s : State) : State :=
  let s := match xipNeed s with | some l => xipAsk l s | none => s
  match s.seq.xipMiss with
  | some m =>
    if m.ends.isSome || on SP0_XIP_CTRL.HOLD s || s.sp.p0.cur.isSome || s.sp.p0.sel.isSome || s.now < s.sp.p0.idleUntil || !(spEnabled 0 s) then s
    else { s with seq.xipMiss := some { m with ends := some (s.now + 2 * xipCycles s) } }
  | none => s

/-- Meaning of XIP_LINE_READ. -/
def execXipLineRead (s : State) : Host.Outcome State Fault Refusal := .next (xipLineRead s)

/-- The bytes of an AES key slot (R84, R394). -/
def keyBytes (k : Nat) (s : State) : List Nat := (List.range 16).map (fun i => bits (otpWordNow (0x10 + 4 * k + i / 4) s) (8 * (i % 4)) 8)

/-- A line as a window delivers it: decrypted with the key slot of the window (R394). -/
def xipPlain (w : Nat) (flash : Addr) (data : List Nat) (s : State) : List Nat :=
  let key := get (SP0_WIN_CFG.KEY w) s
  let f := flash - (if get SYS_BOOT_STAT.SLOT s = 1 then 0x1000000 else 0)
  if key ≤ 3 then ctrLine (keyBytes key s) (get SYS_IMG_TAG.TAG s) f data else data

/-- A line enters the line buffers in place of the one least recently used. -/
def xipInsert (l : XipLine) (s : State) : State :=
  let old := s.seq.xip
  let keep := if old.length < 4 then old
    else
      let oldest := old.foldl (fun m x => Nat.min m x.used) s.seq.xipUse
      old.eraseP (fun x => x.used == oldest)
  { s with seq.xip := keep ++ [{ l with used := s.seq.xipUse + 1 }], seq.xipUse := s.seq.xipUse + 1 }

/-- XIP_LINE_FILL: the read ends; the line buffer is filled, and the outstanding load takes the line. -/
def xipLineFill (data : List Nat) (s : State) : State :=
  match s.seq.xipMiss with
  | some m =>
    match m.ends with
    | some t =>
      if s.now < t then s
      else
        let s := { s with seq.xipMiss := none }
        if on (SP0_WIN_CFG.EN m.window) s then
          let plain := xipPlain m.window m.flash ((List.range 64).map (fun i => nth data i 0)) s
          let s := loadLine m.line plain false false (xipInsert ⟨m.window, m.flash, plain, 0⟩ s)
          match xipNeed s with
          | some l => (match xipHeld l s with | some h => loadLine l h.data false false s | none => xipAsk l s)
          | none => s
        else s
    | none => s
  | none => s

/-- Meaning of XIP_LINE_FILL. -/
def execXipLineFill (data : List Nat) (s : State) : Host.Outcome State Fault Refusal := .next (xipLineFill data s)

/-! ## Fetch (R331, R359, R369) -/

/-- A fetch from a window: the line is hit or missed, and in its last 16 bytes the next sequential line is asked for when it is absent. -/
def xipFetch (a : Addr) (s : State) : State :=
  let line := lineOf a
  let s := xipTouch line s
  if a = s.seq.pc.toNat ∧ line + 48 ≤ a ∧ (windowAt (line + 64) s).isSome = true ∧ (xipHeld (line + 64) s).isNone = true then xipAsk (line + 64) s
  else s

/-- FETCH: the core fetches the word at an address. Outside ITCM and the enabled windows, or with an uncorrectable word, the FETCH exception is
raised when the word is the next to be executed. A fetch from ITCM waits for the port (R361). -/
def fetchWord (addr : Word) (bad : Bool) (s : State) : State :=
  let a := addr.toNat
  let raiseIt := fun (info : Nat) => if addr = s.seq.pc then (if otherOk [] s then precise 2 info a s else s) else s
  match seqRegion a with
  | .itcm =>
    if portFree a s then
      let s := tookFetch s
      if bad || (tcmWord a s).2 then (if addr = s.seq.pc ∧ otherOk [] s = true then precise 2 1 a s else s) else s
    else s
  | .xip => if (windowAt a s).isSome then (if coreRuns s then xipFetch a s else s) else raiseIt 0
  | _ => raiseIt 0

/-- Meaning of FETCH. -/
def execFetch (addr : BitVec 32) (bad : Bool) (s : State) : Host.Outcome State Fault Refusal := .next (fetchWord addr bad s)

/-- Meaning of ILLEGAL: the core reaches a word that spells no instruction (R326); a word that spells one raises nothing here. -/
def execIllegal (word : BitVec 32) (s : State) : Host.Outcome State Fault Refusal :=
  .next (if (decodeCore word).isNone then illegalNow 0 s else s)

end Sys2Proof.Machine
end

