-- ==== Sys2Proof/Machine/Boot.lean ====
section
/-! DEFINITION. Waking up (R63 to R95, R497, R576, R577): boot paths, header checks, the image's placement, restoration of settings, the choice of
the first plan and boot completion; and the end of Boulevard training (R273, R274). -/

namespace Sys2Proof.Machine

/-! ## Reset release, reference and first lock (R63, R67, R497, R576) -/

/-- OTP AUTH_EN (R84). -/
def authEnabled (s : State) : Bool := bit (otpWordNow 0x0A s) 0

/-- RESET_RELEASE: the straps are sampled, TRY_SLOT is taken and cleared, the identity comes from the OTP, SP0_RSTN goes low on the flash paths,
and the Boulevard's cold start begins (R16, R63, R64, R67, R101, R273). DESIGN CHOICE: log entry 27; SYS_BOOT_STAT.AUTH_EN stays the copy taken
here when OTP word 0x0A is programmed at run time, which the spec leaves open (log entry 125). -/
def resetRelease (straps : Nat) (s : State) : State :=
  if s.boot.phase = .held then
    let try' := get SYS_BOOT_CTRL.TRY_SLOT s
    let s := set SYS_BOOT_STAT.PATH straps (setB SYS_BOOT_STAT.AUTH_EN (authEnabled s) (set SYS_BOOT_CTRL.TRY_SLOT 0 s))
    let s := set SYS_UID_LO.ID (otpWordNow 0 s) (set SYS_UID_HI.ID (otpWordNow 1 s) s)
    set PWR_STAT.PG 1 { s with boot.phase := .refCheck, boot.trySlot := try', boot.candidate := 0, pwr.good := true,
                               boot.flashHeld := straps % 4 < 2, memory.training := true, memory.blvTries := 0, memory.trainDue := 5529600 }
  else s

/-- Meaning of RESET_RELEASE. -/
def execResetRelease (straps : Nat) (s : State) : Host.Outcome State Fault Refusal := .next (resetRelease straps s)

/-- Whether a count of edges in 110 µs lies within 1 % of a candidate's frequency: REF_XO at 100 MHz, REF_EXT at 10 MHz, REF_EXT at
100 MHz (R497). -/
def candidateGood (c edges : Nat) : Bool := if c = 1 then 1089 ≤ edges && edges ≤ 1111 else 10890 ≤ edges && edges ≤ 11110

/-- BOOT_REF_CHECK: the candidate is accepted, or the next one is tried; after the third the sequence repeats (R497). -/
def bootRefCheck (edges : Nat) (s : State) : State :=
  if s.boot.phase = .refCheck then
    let c := s.boot.candidate
    if candidateGood c edges then
      let r := if c = 0 then 0 else 1
      let s := set CLK_STAT.IN_USE r { s with boot.phase := .locking }
      if r = 0 then s else fault 0x0F08 r 0 0 s
    else { s with boot.candidate := (c + 1) % 3 }
  else s

/-- Meaning of BOOT_REF_CHECK. -/
def execBootRefCheck (edges : Nat) (s : State) : Host.Outcome State Fault Refusal := .next (bootRefCheck edges s)

/-- The boot engine waits for a download (R68, R69). DEDUCED: log entry 63. -/
def awaitDownload (s : State) : State := set SYS_BOOT_STAT.HOST_WAIT 1 { s with boot.phase := .hostWait }

/-- Whether SP1 receives from the first lock on: PRES_N is low and has not fallen since the power-on reset; after a fall the 1 ms of R97 has to
pass first. -/
def openAtLock (s : State) : Bool := !s.boot.presN && s.boot.presFall.isNone

/-- SCS_FIRST_LOCK, `elapsed` slots after reset release: the tick count starts at 0 with slot 0 of the boot plan, on a zeroed Square; SP1 receives
if PRES_N is low; the boot path goes on (R63, R97, R262, R491, R576). SP0_RSTN's 10 µs are over (R64; DEDUCED, log entry 126). -/
def scsFirstLock (elapsed : Nat) (s : State) : State :=
  if s.boot.phase = .locking then
    let s := zeroSquare { s with now := 0, tickOn := true, tickAdj := 0, plan.active := .boot, plan.running := true, plan.begun := false,
                                 plan.firstPeriod := true, plan.period0 := 0, boot.sp1Open := openAtLock s, boot.lockDelay := elapsed,
                                 boot.flashHeld := false }
    let s := startLog (set CLK_STAT.LOCK 1 s)
    match get SYS_BOOT_STAT.PATH s with
    | 2 => awaitDownload s
    | 3 => { s with boot.phase := .test }
    | _ => { s with boot.phase := .headers }
  else s

/-- The slots since reset release, once the tick count runs. -/
def sinceRelease (s : State) : Nat := s.boot.lockDelay + s.now

/-- Meaning of SCS_FIRST_LOCK. -/
def execScsFirstLock (elapsed : Nat) (s : State) : Host.Outcome State Fault Refusal := .next (scsFirstLock elapsed s)

/-! ## Slots (R67, R68, R73) -/

/-- A slot fails: reason, FALLBACK for a flash slot, and fault 0x0101 (R67, R69). -/
def failSlot (n reason : Nat) (s : State) : State :=
  let s := set (if n = 1 then SYS_BOOT_STAT.FAIL_B else SYS_BOOT_STAT.FAIL_A) reason s
  let s := if n = 2 then s else set SYS_BOOT_STAT.FALLBACK 1 s
  fault 0x0101 n 0 reason s

/-- The header of a flash slot. -/
def slotHeader (n : Nat) (s : State) : Option ImageHeader := if n = 0 then s.boot.slotA else s.boot.slotB

/-- The order in which the flash slots are tried (R67). -/
def slotOrder (s : State) : List Nat :=
  match s.boot.trySlot with
  | 1 => [0, 1]
  | 2 => [1, 0]
  | _ =>
    match s.boot.slotA, s.boot.slotB with
    | some a, some b => if a.seq < b.seq then [1, 0] else [0, 1]
    | none, some _ => [1, 0]
    | _, _ => [0, 1]

/-- The octal path: what is issued at x1 before the re-read: OCT_WREN, and OCT_CFG_CMD with its address and data, where they are not zero (R65). -/
def octalCommands (h : ImageHeader) : List (Nat × Option (Nat × Nat)) :=
  (if h.octWren = 0 then [] else [(h.octWren, none)]) ++ (if h.octCfgCmd = 0 then [] else [(h.octCfgCmd, some (h.octCfgAddr, h.octCfgData))])

/-- The image of a slot is read: in octal after the entry sequence, or at x1 (R64, R65). -/
def readSlot (n : Nat) (s : State) : State :=
  match slotHeader n s with
  | some h =>
    if get SYS_BOOT_STAT.PATH s = 0 ∧ on SYS_BOOT_STAT.OCT_FALLBACK s = false then
      { s with boot.current := n, boot.octal := true, boot.phase := .octal, boot.octSent := octalCommands h, boot.octSince := s.now }
    else { s with boot.current := n, boot.octal := false, boot.phase := .streaming }
  | none => s

/-- The slots of a list are tried in turn: one whose header failed R73 fails, the first other one is read (R65, R67); with none left the boot
engine waits for a download, with fault 0x0104 (R68). -/
def trySlots : List Nat → State → State
  | [], s => fault 0x0104 0 0 0 (awaitDownload s)
  | n :: l, s =>
    let r := if n = 0 then s.boot.reasonA else s.boot.reasonB
    let s := { s with boot.tried := n :: s.boot.tried }
    if r ≠ 0 then trySlots l (failSlot n r s)
    else readSlot n s

/-- The next slot in order that has not been tried. -/
def nextImageSlot (s : State) : State := trySlots ((slotOrder s).filter (fun n => !(s.boot.tried.contains n))) s

/-- Whether the flash may be read: SP0_RSTN has been low for 10 µs and high for 100 µs (R64). -/
def flashReady (s : State) : Bool := !s.boot.flashHeld && 112640 ≤ sinceRelease s

/-- HEADER_READ: the header record of a flash slot is checked; with both read the slots are tried in order (R64, R67, R73). A header that fails
fails its slot when the slot is tried. -/
def headerRead (n : Nat) (bytes : Image) (s : State) : State :=
  let done := if n = 0 then s.boot.readA else s.boot.readB
  if s.boot.phase = .headers ∧ n < 2 ∧ done = false ∧ flashReady s = true then
    let p := (bytes.map (·.toNat)).toArray
    let r := headerReason p
    let h := if r = 0 then some (headerOf p) else none
    let s := if n = 0 then { s with boot.readA := true, boot.slotA := h, boot.reasonA := r }
      else { s with boot.readB := true, boot.slotB := h, boot.reasonB := r }
    if s.boot.readA && s.boot.readB then nextImageSlot s else s
  else s

/-- Meaning of HEADER_READ. -/
def execHeaderRead (slot : Nat) (bytes : Image) (s : State) : Host.Outcome State Fault Refusal := .next (headerRead slot bytes s)

/-- OCTAL_ENTRY, with the first 64 bytes of the slot as re-read in octal, after OCT_CFG_WAIT: when they differ from the x1 read the boot goes on
at x1 (R65). -/
def octalEntry (bytes : Image) (s : State) : State :=
  match slotHeader s.boot.current s with
  | some h =>
    if s.boot.phase = .octal ∧ s.boot.octSince + 1024 * h.octCfgWait ≤ s.now then
      let s := { s with boot.phase := .streaming }
      if bytes.map (·.toNat) = h.start then s
      else fault 0x0105 s.boot.current 0 0 (set SYS_BOOT_STAT.OCT_FALLBACK 1 { s with boot.octal := false })
    else s
  | none => s

/-- Meaning of OCTAL_ENTRY. -/
def execOctalEntry (bytes : Image) (s : State) : Host.Outcome State Fault Refusal := .next (octalEntry bytes s)

/-! ## Placement (R74, R75, R77, R79, R83, R385, R389) -/

/-- ITCM and DTCM take the FIRMWARE section; DTCM beyond its length is zero (R74). -/
def placeFirmware (f : Firmware) (s : State) : State :=
  let s := { s with mem := dropCells 0x100000 0x120000 s.mem, boot.entry := f.entry,
                    memory.upsets := s.memory.upsets.filter (fun u => !(u.1 < f.itcm.length || (0x100000 ≤ u.1 && u.1 < 0x120000))) }
  writeBytes 0x100000 f.dtcm (writeBytes 0 f.itcm s)

/-- The words of a plan as they stand in a store slot, zeros left out. -/
def planWords (slot : Nat) (b : List Nat) : List (Nat × Nat) :=
  let p := b.toArray
  (List.range ((b.length + 3) / 4)).filterMap (fun i =>
    let w := imgNum p (4 * i) 4
    if w = 0 then none else some (slot * 32768 + i, w))

/-- Plan n is loaded into store slot n; the directory is kept with whether each tag agrees with its plan's header (R75). -/
def placePlans (l : List PlanSec) (s : State) : State :=
  { s with
    plan.store := (l.mapIdx (fun n x => planWords n x.bytes)).flatten
    boot.dir := l.map (fun x => ⟨x.mode, x.config, x.primary, nth x.bytes 0x0A 0 == x.mode && nth x.bytes 0x0B 0 == x.config⟩) }

/-- The windows and the template of SP0 (R385, R389). On the download path the windows stay disabled and the template is that of x1.
DEDUCED: log entry 67. -/
def placeXip (f : Firmware) (h : ImageHeader) (octal download : Bool) (s : State) : State :=
  let s := (f.xip.mapIdx (fun i x => (i, x))).foldl (fun s d =>
    set (SP0_WIN_FLASH.FLASH_OFS d.1) (d.2.flash / 4096) (set (SP0_WIN_BASE.WIN_OFS d.1) (d.2.win / 4096)
      (set (SP0_WIN_LEN.LENGTH d.1) (d.2.length / 4096) (set (SP0_WIN_CFG.KEY d.1) d.2.key (setB (SP0_WIN_CFG.EN d.1) (!download) s))))) s
  let o := octal && !download
  let lanes := if o then 3 else 0
  let s := set SP0_XIP_TMPL.CMD_LANES lanes (set SP0_XIP_TMPL.ADDR_LANES lanes (set SP0_XIP_TMPL.DATA_LANES lanes s))
  let s := setB SP0_XIP_TMPL.CMD2 o (setB SP0_XIP_TMPL.DTR o (setB SP0_XIP_TMPL.DQS_EN o s))
  set SP0_XIP_TMPL.CMD (if o then h.octRead else 0x13) (set SP0_XIP_TMPL.DUMMY (if o then h.octDummy else 0)
    (set SP0_XIP_FREQ.FREQ (if o then 2 + h.octFreq else 1) s))

/-- The trims of the CALIBRATION section (R77). -/
def placeTrims (l : List (Nat × Nat × Nat)) (s : State) : State :=
  (l.mapIdx (fun i x => (i, x))).foldl (fun s t =>
    set (AVE_SC_OFFSET.OFFSET t.1) t.2.1 (set (AVE_SC_GAIN.GAIN t.1) t.2.2.1 (set (AVE_SC_SKEW.SKEW t.1) t.2.2.2 s))) s

/-! ## Restoration (R76, R78, R88 to R91) -/

/-- The bits of a register that its RW fields take. -/
def rwMask (a : Addr) : Nat :=
  ((fieldsAt a).map (fun f => if f.acc = .rw then (2 ^ f.fld.width - 1) * 2 ^ f.fld.lo else 0)).foldl (· + ·) 0

/-- The boot engine's write of a register acts as any write of it (R76). SYS_MODE.MODE only takes its value, since the mode is chosen from it
later (R18, R87). DEDUCED: log entry 64. -/
def bootWrite (a v : Nat) (s : State) : State := if a = SYS_MODE.addr then set SYS_MODE.MODE v s else regWrite a v s

/-- The registers that an address of a DEFAULTS entry names: those of the selected units in a broadcast window. -/
def defaultsTargets (a : Addr) (s : State) : List Addr :=
  match bcastAt a with
  | some (b, o) => if bcastMapped b o then (bcastUnits b s).map (fun u => b.origin.1 + u * b.origin.2 + o) else []
  | none => [a]

/-- Registers that no image content sets: the kerb-check thresholds and the kerb-check override (R79). -/
def imageBarred (a : Addr) : Bool := a == KRB_LIGHT_THR.addr || a == KRB_QUIET.addr || a == KRB_OVR.addr || a == KRB_UNLOCK.addr

/-- One DEFAULTS entry: refused whole, with fault 0x0109, when its mask covers a bit that is not RW, when no register stands there, or when it
would set what no image content sets (R76, R79). -/
def defaultsEntry (e : Nat × Nat × Nat) (s : State) : State :=
  let shown := match bcastAt e.1 with | some (b, o) => b.origin.1 + o | none => e.1
  let m := rwMask shown
  if !(busMapped e.1) || e.2.2 &&& m != e.2.2 || imageBarred e.1 then faultAddr 0x0109 0 e.1 s
  else (defaultsTargets e.1 s).foldl (fun s a =>
    let old := regValue a s
    bootWrite a ((old - (old &&& e.2.2)) ||| (e.2.1 &&& e.2.2)) s) s

/-- The kept fields of a ledger copy (R90). -/
def ledgerRestore (c : LedgerCopy) (s : State) : State :=
  c.entries.foldl (fun s e => (fieldsAt e.1).foldl (fun s f => if f.kept then set f.fld (e.2 / 2 ^ f.fld.lo) s else s) s) s

/-- SYS_LEDGER.STATE where no copy is used: 1 no valid copy, 2 tag mismatch, 3 cleared (R105). -/
def ledgerState (s : State) : Nat :=
  if (ledgerCopy 0 s).isSome || (ledgerCopy 1 s).isSome then 2 else if s.boot.cleared then 3 else 1

/-- The ledger's part of the restoration; fault 0x0107 where it is not used (R89, R90). -/
def useLedger (s : State) : State :=
  match (newestCopy s).bind (fun n => ledgerCopy n s) with
  | some c => ledgerRestore c (set SYS_LEDGER.STATE 0 { s with boot.ledgerUsed := some c.config })
  | none => fault 0x0107 0 0 (ledgerState s) (set SYS_LEDGER.STATE (ledgerState s) { s with boot.ledgerUsed := none })

/-- Sub-converters whose restored MAPOUT is 1 are failed with cause 5 (R125). -/
def restoreMapouts (s : State) : State :=
  (List.range 68).foldl (fun s sc => if on (AVE_SC_CTRL.MAPOUT sc) s then failSc sc 5 (beatNow s) s else s) s

/-- The boot commit: generation GEN + 1 of the copy used, or 1; epoch-breaking (R91). -/
def bootCommit (s : State) : State :=
  let gen := match s.boot.ledgerUsed, (newestCopy s).bind (fun n => ledgerCopy n s) with
    | some _, some c => c.gen
    | _, _ => 0
  afterCommit (nextGen false (set REC_GEN.GEN gen { s with committed := keptPart s.regs }))

/-- The settings: DEFAULTS, the ledger's kept fields, CALIBRATION, DISPLAY_TIMING with the boot engine's APPLY, and the boot commit (R86, R90,
R91, R427). DEDUCED: log entry 65. -/
def restoreSettings (x : Sections) (s : State) : State :=
  let s := x.defaults.foldl (fun s e => defaultsEntry e s) s
  let s := judgeApply (x.displayRegs.foldl (fun s r => bootWrite r.1 r.2 s) s)
  let s := { s with boot.defaultMode := get SYS_MODE.MODE s }
  let s := placeTrims x.trims (useLedger s)
  let s := { s with boot.restoredMode := get SYS_MODE.MODE s }
  bootCommit (restoreMapouts s)

/-- Every loaded plan whose tag agrees is to be verified, in store-slot order; a disagreeing tag is logged (R75, R86). -/
def verifyLoaded (s : State) : State :=
  (s.boot.dir.mapIdx (fun n d => (n, d))).foldl (fun s d =>
    if d.2.tagOk then verifyCmd d.1 s else fault 0x0106 d.1 0 0 s) { s with boot.phase := .verifying }

/-- An image that passed boots: its sections are placed and the settings restored (R86). -/
def placeImage (n : Nat) (h : ImageHeader) (x : Sections) (s : State) : State :=
  let s := set SYS_BOOT_STAT.SLOT n (set SYS_BOOT_CFG.AUTOSTART h.autostart (set SYS_BOOT_CFG.ABSENT_POLICY h.policy
    { s with boot.tag := h.tag, boot.imgSeq := h.seq }))
  let s := placePlans x.plans (placeFirmware x.firmware s)
  let s := { s with dsp.initList := x.initList, line.tables := x.stimulus }
  let s := restoreSettings x s
  verifyLoaded (openExports x.exports' (placeXip x.firmware h s.boot.octal (n == 2) s))

/-- An image fails: the next flash slot, or a new download, is tried; ITCM, DTCM and the plan store hold nothing of it (R67 to R69, R83). -/
def imageFailed (n reason : Nat) (s : State) : State :=
  let s := failSlot n reason { s with mem := dropCells 0 0x120000 s.mem, plan.store := [] }
  if n = 2 then awaitDownload s else nextImageSlot s

/-- The digest of OTP KEY_HASH (R84). -/
def keyHash (s : State) : List Nat := (List.range 8).flatMap (fun i => leBytes 4 (otpWordNow (2 + i) s))

/-- An image is judged: header for a download, records and sections, then authentication, which fails the slot only with AUTH_EN (R69, R73, R83). -/
def judgeImage (n : Nat) (p : Array Nat) (s : State) : State :=
  let r := if n = 2 then headerReason p else 0
  if r ≠ 0 then imageFailed n r s
  else
    let h := if n = 2 then headerOf p else (slotHeader n s).getD (headerOf p)
    match parseImage p h.size with
    | .error r => imageFailed n r s
    | .ok x =>
      let a := authReason p x.sigOfs (keyHash s)
      if a ≠ 0 ∧ authEnabled s = true then imageFailed n a s
      else placeImage n h x (setB SYS_BOOT_STAT.AUTH_OK (a == 0) s)

/-- IMAGE_STREAMED: the image has been read, from the flash slot in the operand, or from the download area by the boot engine's claims (R20, R69,
R82). -/
def imageStreamed (image : Image) (s : State) : State :=
  if s.boot.phase = .streaming then
    if s.boot.current = 2 then
      (if s.boot.want ≤ s.boot.lines.length then judgeImage 2 s.boot.lines.reverse.flatten.toArray s else s)
    else judgeImage s.boot.current (image.map (·.toNat)).toArray s
  else s

/-- Meaning of IMAGE_STREAMED. -/
def execImageStreamed (image : Image) (s : State) : Host.Outcome State Fault Refusal := .next (imageStreamed image s)

/-! ## The first plan and completion (R86, R87, R95, R577) -/

/-- The verified loaded plans of a mode. -/
def verifiedOf (m : Nat) (s : State) : List Nat :=
  (List.range s.boot.dir.length).filter (fun n => slotValid n s && (match s.boot.dir[n]? with | some d => d.mode == m | none => false))

/-- The mode chosen: restored, image default, SCOPE, or that of the lowest verified slot; none where no plan verified (R87). -/
def firstMode (s : State) : Option Nat :=
  match [s.boot.restoredMode, s.boot.defaultMode, SYS_MODE.MODE.reset].find? (fun m => !(verifiedOf m s).isEmpty) with
  | some m => some m
  | none => ((List.range s.boot.dir.length).find? (fun n => slotValid n s)).bind (fun n => (s.boot.dir[n]?).map (·.mode))

/-- The first plan of a mode (R87, item 2). -/
def firstPlanOf (m : Nat) (s : State) : Option Nat :=
  let l := verifiedOf m s
  let same := match s.boot.ledgerUsed with | some c => l.filter (fun n => storeConfig n s == c) | none => []
  let primary := l.filter (fun n => isPrimary m n s)
  choosePlan m (if !same.isEmpty then same else if !primary.isEmpty then primary else l) s

/-- BOOT_PLANS_VERIFIED: mode and first plan are chosen and its swap is pending; with no verified plan boot completes on the boot plan (R87). -/
def bootPlansVerified (s : State) : State :=
  if s.boot.phase = .verifying ∧ s.plan.queue = [] then
    match firstMode s with
    | none => fault 0x0108 s.boot.restoredMode 0 0 { s with boot.phase := .finishing }
    | some m =>
      let s := set SYS_MODE.MODE m s
      let s := if m = s.boot.restoredMode then s else fault 0x0108 m 0 0 s
      match firstPlanOf m s with
      | none => { s with boot.phase := .finishing }
      | some n => { pendSwap n s with boot.phase := .swapping, plan.modeChange := some m }
  else s

/-- Meaning of BOOT_PLANS_VERIFIED. -/
def execBootPlansVerified (s : State) : Host.Outcome State Fault Refusal := .next (bootPlansVerified s)

/-- Boot completion: the restored configuration is judged and the ledger write of the boot commit starts; BOOT_DONE is raised, the core released, the
init list started, a held request acts, and AUTOSTART arms the engine unless such a request was held (R92, R95, R104, R436, R541, R577).
DEDUCED: log entry 66. -/
def bootComplete (onPlan : Bool) (s : State) : State :=
  let s := judgeRestored 7 s
  let s := startLedger (afterCommit { s with committed := keptPart s.regs })
  let s := set SYS_BOOT_STAT.DONE 1 (set SYS_BOOT_STAT.HOST_WAIT 0 (set SYS_IMG_TAG.TAG s.boot.tag (set SYS_IMG_SEQ.SEQ s.boot.imgSeq
    { s with boot.phase := .done })))
  let s := if s.boot.current = 2 then loseArea s else s
  let s := startInit (releaseCore (raise 0x27 s))
  if s.abort.held = 0 then (if onPlan && on SYS_BOOT_CFG.AUTOSTART s then engineStart s else s)
  else releaseHeld s

/-- BOOT_DONE: at the plan-period boundary the first plan's swap takes effect and boot completes; without a verified plan boot completes on the boot
plan. -/
def bootDone (s : State) : State :=
  match s.boot.phase with
  | .swapping =>
    match s.plan.swap with
    | some (n, since) =>
      if s.plan.running && s.now % 4096 == 4095 && decide (since + 2 ≤ s.now + 1) then
        let t := takePlan n s
        let t := bootComplete true { t with now := t.now + 1 }
        { t with now := t.now - 1 }
      else s
    | none => s
  | .finishing => bootComplete false s
  | _ => s

/-- Meaning of BOOT_DONE. -/
def execBootDone (s : State) : Host.Outcome State Fault Refusal := .next (bootDone s)

/-! ## Boulevard training (R273, R274) -/

/-- The densities that the channels reported: the smaller is used on both (R274). -/
def reportDensity (density : List Nat) (s : State) : State :=
  let a := nth density 0 0
  let b := nth density 1 0
  let s := set BLV_STAT.DENSITY (Nat.min a b) s
  if a = b then s else fault 0x0607 0 0 0 (set BLV_STAT.DENS_MISMATCH 1 s)

/-- When the training under way ends, in slots since reset release: 5.400 ms after it, 4.9 ms after PWR_GOOD in an exit from DORMANT, and 2.680 ms
later for the repeat (R273, R274, R518). -/
def trainingDue (s : State) : Bool := s.tickOn && s.memory.trainDue ≤ sinceRelease s

/-- BOULEVARD_TRAINING_END, with the DENSITY code that each channel reported: UP, a repeat, or INIT_FAIL (R274). A stream START that waited for
the Boulevard after DORMANT has its effect (R519). -/
def trainingEnd (ok : Bool) (density : List Nat) (s : State) : State :=
  if s.memory.training && trainingDue s then
    let s := if s.memory.blvTries = 0 then reportDensity density s else s
    if ok then startRelease (set BLV_STAT.UP 1 (set BLV_STAT.INIT_FAIL 0 (set PWR_STAT.BLV_WAIT 0 { s with memory.training := false })))
    else if s.memory.blvTries = 0 then { s with memory.blvTries := 1, memory.trainDue := s.memory.trainDue + 2744320 }
    else fault 0x0608 0 0 0 (set BLV_STAT.INIT_FAIL 1 { s with memory.training := false })
  else s

/-- Meaning of BOULEVARD_TRAINING_END. -/
def execBoulevardTrainingEnd (ok : Bool) (density : List Nat) (s : State) : Host.Outcome State Fault Refusal := .next (trainingEnd ok density s)

end Sys2Proof.Machine
end

