-- ==== Sys2Proof/Machine/Test.lean ====
section
/-! DEFINITION. The test access port (R572, R573). -/

namespace Sys2Proof.Machine

/-- The instruction that a code loads: codes not listed act as BYPASS (R572). -/
def jtagCode (code : Nat) : Nat := if [0, 1, 2, 3, 4, 8].contains (code % 16) then code % 16 else 15

/-- Whether the balls outside the boundary register hold their reset state: EXTEST, HIGHZ or CLAMP is loaded (R572). -/
def ballsHeld (s : State) : Bool := s.jtag.instruction == 0 || s.jtag.instruction == 3 || s.jtag.instruction == 4

/-- The identification code of the C0 part (R572). -/
abbrev idcode : Nat := 0x20680B47

/-- What Capture-DR puts into the selected data register: the identification code, REGACC's DATA and DONE on the test path, and a zero bit for
BYPASS; none for the boundary register, whose cells are not modelled (R572, R573, log entry 102). -/
def captureDr (s : State) : Option Nat :=
  match s.jtag.instruction with
  | 0 | 1 => none
  | 2 => some idcode
  | 8 => some (if s.boot.phase = .test then s.jtag.data + b2n s.jtag.done * 2 ^ 63 else 0)
  | _ => some 0

/-- Meaning of TEST_INSTRUCTION: an instruction is loaded. -/
def execTestInstruction (code : Nat) (s : State) : Host.Outcome State Fault Refusal := .next { s with jtag.instruction := jtagCode code }

/-- REGACC at Update-DR: an access on the register bus, on the test path only; DONE comes with its data (R573). Address bits [1:0] do not exist.
DEDUCED: log entry 101. -/
def regacc (addr : Nat) (write : Bool) (value : Nat) (s : State) : State :=
  let s := { s with jtag.instruction := 8 }
  if s.boot.phase = .test then
    let a := addr % 2 ^ 32 / 4 * 4
    if write then { (busWrite hostOwner a value s).2 with jtag.data := value % 2 ^ 32, jtag.done := true }
    else
      let r := busRead hostOwner a s
      { r.2.2 with jtag.data := r.2.1 % 2 ^ 32, jtag.done := true }
  else s

/-- Meaning of REGACC. -/
def execRegacc (addr : Nat) (write : Bool) (value : Nat) (s : State) : Host.Outcome State Fault Refusal := .next (regacc addr write value s)

end Sys2Proof.Machine
end

