-- ==== Sys2Proof/Machine/Dispatch.lean ====
section
/-! DEFINITION. The meaning of each command: one direct call for each constructor. -/

namespace Sys2Proof.Machine

/-- The effect of a command on everything but the queue. -/
def exec (i : Instr) (s : State) : Host.Outcome State Fault Refusal :=
  match i with
  | .modeChangeRequest value => Sys2Proof.Machine.execModeChangeRequest value s
  | .planSlot env => Sys2Proof.Machine.execPlanSlot env s
  | .marginStopLeave => Sys2Proof.Machine.execMarginStopLeave s
  | .verify slot => Sys2Proof.Machine.execVerify slot s
  | .verifyComplete => Sys2Proof.Machine.execVerifyComplete s
  | .swap slot => Sys2Proof.Machine.execSwap slot s
  | .invalidate slot => Sys2Proof.Machine.execInvalidate slot s
  | .planSwapped => Sys2Proof.Machine.execPlanSwapped s
  | .psDataWrite value => Sys2Proof.Machine.execPsDataWrite value s
  | .psDataRead => Sys2Proof.Machine.execPsDataRead s
  | .resetRelease straps => Sys2Proof.Machine.execResetRelease straps s
  | .bootRefCheck edges => Sys2Proof.Machine.execBootRefCheck edges s
  | .scsFirstLock elapsed => Sys2Proof.Machine.execScsFirstLock elapsed s
  | .headerRead slot bytes => Sys2Proof.Machine.execHeaderRead slot bytes s
  | .octalEntry bytes => Sys2Proof.Machine.execOctalEntry bytes s
  | .go => Sys2Proof.Machine.execGo s
  | .imageStreamed image => Sys2Proof.Machine.execImageStreamed image s
  | .bootPlansVerified => Sys2Proof.Machine.execBootPlansVerified s
  | .bootDone => Sys2Proof.Machine.execBootDone s
  | .ledgerWriteDone => Sys2Proof.Machine.execLedgerWriteDone s
  | .ledgerClear => Sys2Proof.Machine.execLedgerClear s
  | .otpProg value => Sys2Proof.Machine.execOtpProg value s
  | .otpProgDone => Sys2Proof.Machine.execOtpProgDone s
  | .hostAbsent => Sys2Proof.Machine.execHostAbsent s
  | .presNRise => Sys2Proof.Machine.execPresNRise s
  | .presNFall => Sys2Proof.Machine.execPresNFall s
  | .sp1Ungate => Sys2Proof.Machine.execSp1Ungate s
  | .beat codes ahead => Sys2Proof.Machine.execBeat codes ahead s
  | .handoverAttempt q => Sys2Proof.Machine.execHandoverAttempt q s
  | .handoverSwitch q => Sys2Proof.Machine.execHandoverSwitch q s
  | .calibrationCycleEnd sc sumLow sumHigh noiseLow noiseHigh => Sys2Proof.Machine.execCalibrationCycleEnd sc sumLow sumHigh noiseLow noiseHigh s
  | .skewWindowEnd sc => Sys2Proof.Machine.execSkewWindowEnd sc s
  | .stuckWatch sc => Sys2Proof.Machine.execStuckWatch sc s
  | .forceFail sc => Sys2Proof.Machine.execForceFail sc s
  | .mapoutWrite sc value => Sys2Proof.Machine.execMapoutWrite sc value s
  | .reinstate sc => Sys2Proof.Machine.execReinstate sc s
  | .trimWrite addr value => Sys2Proof.Machine.execTrimWrite addr value s
  | .broadcastWrite addr value => Sys2Proof.Machine.execBroadcastWrite addr value s
  | .broadcastRead addr => Sys2Proof.Machine.execBroadcastRead addr s
  | .etPhaseAdvance => Sys2Proof.Machine.execEtPhaseAdvance s
  | .triggerDecision => Sys2Proof.Machine.execTriggerDecision s
  | .candidateHorizon unit => Sys2Proof.Machine.execCandidateHorizon unit s
  | .fieldResult => Sys2Proof.Machine.execFieldResult s
  | .trigInEdge rising time => Sys2Proof.Machine.execTrigInEdge rising time s
  | .timerInstant => Sys2Proof.Machine.execTimerInstant s
  | .trgSw value => Sys2Proof.Machine.execTrgSw value s
  | .holdoffEnd unit => Sys2Proof.Machine.execHoldoffEnd unit s
  | .trgAbort value => Sys2Proof.Machine.execTrgAbort value s
  | .fireDelivery => Sys2Proof.Machine.execFireDelivery s
  | .trigOutPulseStart => Sys2Proof.Machine.execTrigOutPulseStart s
  | .trigOutPulseEnd => Sys2Proof.Machine.execTrigOutPulseEnd s
  | .start => Sys2Proof.Machine.execStart s
  | .stop => Sys2Proof.Machine.execStop s
  | .rearm => Sys2Proof.Machine.execRearm s
  | .recordArm => Sys2Proof.Machine.execRecordArm s
  | .recordEnd => Sys2Proof.Machine.execRecordEnd s
  | .headerReady => Sys2Proof.Machine.execHeaderReady s
  | .recordCommit => Sys2Proof.Machine.execRecordCommit s
  | .recRelease value => Sys2Proof.Machine.execRecRelease value s
  | .pop => Sys2Proof.Machine.execPop s
  | .commit value => Sys2Proof.Machine.execCommit value s
  | .reductionValueDelivery out => Sys2Proof.Machine.execReductionValueDelivery out s
  | .restart au => Sys2Proof.Machine.execRestart au s
  | .persistencePassStart => Sys2Proof.Machine.execPersistencePassStart s
  | .persistencePassEnd => Sys2Proof.Machine.execPersistencePassEnd s
  | .take => Sys2Proof.Machine.execTake s
  | .boulevardTrainingEnd ok density => Sys2Proof.Machine.execBoulevardTrainingEnd ok density s
  | .dmaStart ch => Sys2Proof.Machine.execDmaStart ch s
  | .descriptorLoaded ch => Sys2Proof.Machine.execDescriptorLoaded ch s
  | .dmaLineArrival ch => Sys2Proof.Machine.execDmaLineArrival ch s
  | .dmaPortLineOut ch => Sys2Proof.Machine.execDmaPortLineOut ch s
  | .dmaDescriptorComplete ch => Sys2Proof.Machine.execDmaDescriptorComplete ch s
  | .dmaAbort ch => Sys2Proof.Machine.execDmaAbort ch s
  | .dmaAbortComplete ch => Sys2Proof.Machine.execDmaAbortComplete ch s
  | .dmaChRegWrite addr value => Sys2Proof.Machine.execDmaChRegWrite addr value s
  | .eventDelivery => Sys2Proof.Machine.execEventDelivery s
  | .stopTask stop => Sys2Proof.Machine.execStopTask stop s
  | .clr value => Sys2Proof.Machine.execClr value s
  | .evtSw value => Sys2Proof.Machine.execEvtSw value s
  | .evtLineSrcWrite n value => Sys2Proof.Machine.execEvtLineSrcWrite n value s
  | .evtPinInputEdge pin rising => Sys2Proof.Machine.execEvtPinInputEdge pin rising s
  | .evtPinPulseStart pin => Sys2Proof.Machine.execEvtPinPulseStart pin s
  | .evtPinPulseEnd pin => Sys2Proof.Machine.execEvtPinPulseEnd pin s
  | .add d a b => Sys2Proof.Machine.execAdd d a b s
  | .sub d a b => Sys2Proof.Machine.execSub d a b s
  | .and d a b => Sys2Proof.Machine.execAnd d a b s
  | .or d a b => Sys2Proof.Machine.execOr d a b s
  | .xor d a b => Sys2Proof.Machine.execXor d a b s
  | .nor d a b => Sys2Proof.Machine.execNor d a b s
  | .sll d a b => Sys2Proof.Machine.execSll d a b s
  | .srl d a b => Sys2Proof.Machine.execSrl d a b s
  | .sra d a b => Sys2Proof.Machine.execSra d a b s
  | .slt d a b => Sys2Proof.Machine.execSlt d a b s
  | .sltu d a b => Sys2Proof.Machine.execSltu d a b s
  | .min d a b => Sys2Proof.Machine.execMin d a b s
  | .max d a b => Sys2Proof.Machine.execMax d a b s
  | .mul d a b => Sys2Proof.Machine.execMul d a b s
  | .mulh d a b => Sys2Proof.Machine.execMulh d a b s
  | .mulhu d a b => Sys2Proof.Machine.execMulhu d a b s
  | .div d a b => Sys2Proof.Machine.execDiv d a b s
  | .divu d a b => Sys2Proof.Machine.execDivu d a b s
  | .rem d a b => Sys2Proof.Machine.execRem d a b s
  | .remu d a b => Sys2Proof.Machine.execRemu d a b s
  | .clz d a => Sys2Proof.Machine.execClz d a s
  | .popc d a => Sys2Proof.Machine.execPopc d a s
  | .addi d a imm => Sys2Proof.Machine.execAddi d a imm s
  | .andi d a imm => Sys2Proof.Machine.execAndi d a imm s
  | .ori d a imm => Sys2Proof.Machine.execOri d a imm s
  | .xori d a imm => Sys2Proof.Machine.execXori d a imm s
  | .slti d a imm => Sys2Proof.Machine.execSlti d a imm s
  | .sltiu d a imm => Sys2Proof.Machine.execSltiu d a imm s
  | .slli d a amount => Sys2Proof.Machine.execSlli d a amount s
  | .srli d a amount => Sys2Proof.Machine.execSrli d a amount s
  | .srai d a amount => Sys2Proof.Machine.execSrai d a amount s
  | .bext d a p n1 => Sys2Proof.Machine.execBext d a p n1 s
  | .bins d a p n1 => Sys2Proof.Machine.execBins d a p n1 s
  | .lui d imm => Sys2Proof.Machine.execLui d imm s
  | .auipc d imm => Sys2Proof.Machine.execAuipc d imm s
  | .lb d a imm => Sys2Proof.Machine.execLb d a imm s
  | .lbu d a imm => Sys2Proof.Machine.execLbu d a imm s
  | .lh d a imm => Sys2Proof.Machine.execLh d a imm s
  | .lhu d a imm => Sys2Proof.Machine.execLhu d a imm s
  | .lw d a imm => Sys2Proof.Machine.execLw d a imm s
  | .sb d a imm => Sys2Proof.Machine.execSb d a imm s
  | .sh d a imm => Sys2Proof.Machine.execSh d a imm s
  | .sw d a imm => Sys2Proof.Machine.execSw d a imm s
  | .beq a b off => Sys2Proof.Machine.execBeq a b off s
  | .bne a b off => Sys2Proof.Machine.execBne a b off s
  | .blt a b off => Sys2Proof.Machine.execBlt a b off s
  | .bge a b off => Sys2Proof.Machine.execBge a b off s
  | .bltu a b off => Sys2Proof.Machine.execBltu a b off s
  | .bgeu a b off => Sys2Proof.Machine.execBgeu a b off s
  | .jal d imm => Sys2Proof.Machine.execJal d imm s
  | .jalr d a imm => Sys2Proof.Machine.execJalr d a imm s
  | .sysrd d num => Sys2Proof.Machine.execSysrd d num s
  | .syswr a num => Sys2Proof.Machine.execSyswr a num s
  | .eret => Sys2Proof.Machine.execEret s
  | .waitev n => Sys2Proof.Machine.execWaitev n s
  | .pollev d n => Sys2Proof.Machine.execPollev d n s
  | .setev n => Sys2Proof.Machine.execSetev n s
  | .fence => Sys2Proof.Machine.execFence s
  | .iflush => Sys2Proof.Machine.execIflush s
  | .trap imm => Sys2Proof.Machine.execTrap imm s
  | .brk => Sys2Proof.Machine.execBrk s
  | .storeErr => Sys2Proof.Machine.execStoreErr s
  | .interruptEntry => Sys2Proof.Machine.execInterruptEntry s
  | .tcmpReached => Sys2Proof.Machine.execTcmpReached s
  | .sequencerAbortRequest => Sys2Proof.Machine.execSequencerAbortRequest s
  | .sequencerAbort => Sys2Proof.Machine.execSequencerAbort s
  | .storeDrain => Sys2Proof.Machine.execStoreDrain s
  | .loadReturn => Sys2Proof.Machine.execLoadReturn s
  | .xipLineRead => Sys2Proof.Machine.execXipLineRead s
  | .xipLineFill data => Sys2Proof.Machine.execXipLineFill data s
  | .spnCmd port value => Sys2Proof.Machine.execSpnCmd port value s
  | .spnRxd port => Sys2Proof.Machine.execSpnRxd port s
  | .serialEntryStart port => Sys2Proof.Machine.execSerialEntryStart port s
  | .serialEntryEnd port rx => Sys2Proof.Machine.execSerialEntryEnd port rx s
  | .sp2SelectRise rx => Sys2Proof.Machine.execSp2SelectRise rx s
  | .serialAbort port => Sys2Proof.Machine.execSerialAbort port s
  | .windowEnable n value => Sys2Proof.Machine.execWindowEnable n value s
  | .templateWrite value => Sys2Proof.Machine.execTemplateWrite value s
  | .sp1TransactionMalformed since => Sys2Proof.Machine.execSp1TransactionMalformed since s
  | .frameNop f => Sys2Proof.Machine.execFrameNop f s
  | .sync f => Sys2Proof.Machine.execSync f s
  | .frameRead f => Sys2Proof.Machine.execFrameRead f s
  | .frameWrite f => Sys2Proof.Machine.execFrameWrite f s
  | .rmw f => Sys2Proof.Machine.execRmw f s
  | .bulk f => Sys2Proof.Machine.execBulk f s
  | .req f => Sys2Proof.Machine.execReq f s
  | .abortFrame f => Sys2Proof.Machine.execAbortFrame f s
  | .frameComplete => Sys2Proof.Machine.execFrameComplete s
  | .done value => Sys2Proof.Machine.execDone value s
  | .apply value => Sys2Proof.Machine.execApply value s
  | .dspFrame => Sys2Proof.Machine.execDspFrame s
  | .displayLine => Sys2Proof.Machine.execDisplayLine s
  | .teEdge => Sys2Proof.Machine.execTeEdge s
  | .teTimeout => Sys2Proof.Machine.execTeTimeout s
  | .dspCmdGo value => Sys2Proof.Machine.execDspCmdGo value s
  | .dspCmdSend => Sys2Proof.Machine.execDspCmdSend s
  | .panelInitEntry => Sys2Proof.Machine.execPanelInitEntry s
  | .panelAck error => Sys2Proof.Machine.execPanelAck error s
  | .ackTimeout => Sys2Proof.Machine.execAckTimeout s
  | .stimulusPulseEnd => Sys2Proof.Machine.execStimulusPulseEnd s
  | .kerbJudgement sample => Sys2Proof.Machine.execKerbJudgement sample s
  | .kerbSelfCheck zero reference => Sys2Proof.Machine.execKerbSelfCheck zero reference s
  | .kerbClear => Sys2Proof.Machine.execKerbClear s
  | .krbUnlock value => Sys2Proof.Machine.execKrbUnlock value s
  | .krbOvr value => Sys2Proof.Machine.execKrbOvr value s
  | .kerbProtectedWrite addr value => Sys2Proof.Machine.execKerbProtectedWrite addr value s
  | .audioTick => Sys2Proof.Machine.execAudioTick s
  | .audioTableFeed => Sys2Proof.Machine.execAudioTableFeed s
  | .stmTonePush value => Sys2Proof.Machine.execStmTonePush value s
  | .stmSpkPush value => Sys2Proof.Machine.execStmSpkPush value s
  | .stmPairPush value => Sys2Proof.Machine.execStmPairPush value s
  | .stmAudioSrcWrite value => Sys2Proof.Machine.execStmAudioSrcWrite value s
  | .toneEnWrite value => Sys2Proof.Machine.execToneEnWrite value s
  | .stimulusAbort value => Sys2Proof.Machine.execStimulusAbort value s
  | .ampEnableWrite value => Sys2Proof.Machine.execAmpEnableWrite value s
  | .ampTrip => Sys2Proof.Machine.execAmpTrip s
  | .ampRetry => Sys2Proof.Machine.execAmpRetry s
  | .ampSoftEnd => Sys2Proof.Machine.execAmpSoftEnd s
  | .ampPlayStable => Sys2Proof.Machine.execAmpPlayStable s
  | .ampClear => Sys2Proof.Machine.execAmpClear s
  | .thermal => Sys2Proof.Machine.execThermal s
  | .thermalClear => Sys2Proof.Machine.execThermalClear s
  | .uvlo => Sys2Proof.Machine.execUvlo s
  | .uvloClear => Sys2Proof.Machine.execUvloClear s
  | .erostPortEnable port value => Sys2Proof.Machine.execErostPortEnable port value s
  | .erostUp port partner delay => Sys2Proof.Machine.execErostUp port partner delay s
  | .trainingTimeout port => Sys2Proof.Machine.execTrainingTimeout port s
  | .erostRetry port => Sys2Proof.Machine.execErostRetry port s
  | .crcIntervalEnd port errors vc0Lost => Sys2Proof.Machine.execCrcIntervalEnd port errors vc0Lost s
  | .lockLost port => Sys2Proof.Machine.execLockLost port s
  | .beaconSend => Sys2Proof.Machine.execBeaconSend s
  | .beaconReceive port b => Sys2Proof.Machine.execBeaconReceive port b s
  | .beaconForget port => Sys2Proof.Machine.execBeaconForget port s
  | .arm port m => Sys2Proof.Machine.execArm port m s
  | .disarm port m => Sys2Proof.Machine.execDisarm port m s
  | .fire port m => Sys2Proof.Machine.execFire port m s
  | .treq port m => Sys2Proof.Machine.execTreq port m s
  | .trsp port m => Sys2Proof.Machine.execTrsp port m s
  | .armTick => Sys2Proof.Machine.execArmTick s
  | .postedWrite port p => Sys2Proof.Machine.execPostedWrite port p s
  | .readRequest port p => Sys2Proof.Machine.execReadRequest port p s
  | .completion port p => Sys2Proof.Machine.execCompletion port p s
  | .linkAck port vc seq credits => Sys2Proof.Machine.execLinkAck port vc seq credits s
  | .nak port vc seq => Sys2Proof.Machine.execNak port vc seq s
  | .replayTimeout port => Sys2Proof.Machine.execReplayTimeout port s
  | .remoteReadTimeout port => Sys2Proof.Machine.execRemoteReadTimeout port s
  | .rateInterval => Sys2Proof.Machine.execRateInterval s
  | .erostRestart => Sys2Proof.Machine.execErostRestart s
  | .erostPortAbort port => Sys2Proof.Machine.execErostPortAbort port s
  | .tickStep => Sys2Proof.Machine.execTickStep s
  | .clkTimeGo value => Sys2Proof.Machine.execClkTimeGo value s
  | .scsUnlock => Sys2Proof.Machine.execScsUnlock s
  | .scsRelock => Sys2Proof.Machine.execScsRelock s
  | .refWindowEnd counts => Sys2Proof.Machine.execRefWindowEnd counts s
  | .refLoss ref => Sys2Proof.Machine.execRefLoss ref s
  | .glideEnd => Sys2Proof.Machine.execGlideEnd s
  | .forceGo value => Sys2Proof.Machine.execForceGo value s
  | .ppsEdge time => Sys2Proof.Machine.execPpsEdge time s
  | .runDemand => Sys2Proof.Machine.execRunDemand s
  | .restDrop => Sys2Proof.Machine.execRestDrop s
  | .target value => Sys2Proof.Machine.execTarget value s
  | .ladderEntryComplete => Sys2Proof.Machine.execLadderEntryComplete s
  | .wakeN => Sys2Proof.Machine.execWakeN s
  | .sp1CsWake => Sys2Proof.Machine.execSp1CsWake s
  | .wakeTimer => Sys2Proof.Machine.execWakeTimer s
  | .pwrGoodRise => Sys2Proof.Machine.execPwrGoodRise s
  | .ladderExitComplete periods cycles => Sys2Proof.Machine.execLadderExitComplete periods cycles s
  | .pwrGoodLate => Sys2Proof.Machine.execPwrGoodLate s
  | .pwrGoodLoss => Sys2Proof.Machine.execPwrGoodLoss s
  | .avsEvaluation margins => Sys2Proof.Machine.execAvsEvaluation margins s
  | .avsLimWrite value => Sys2Proof.Machine.execAvsLimWrite value s
  | .logEntryWrite => Sys2Proof.Machine.execLogEntryWrite s
  | .logPop => Sys2Proof.Machine.execLogPop s
  | .logClear => Sys2Proof.Machine.execLogClear s
  | .reqGlobalAbort => Sys2Proof.Machine.execReqGlobalAbort s
  | .abortN => Sys2Proof.Machine.execAbortN s
  | .globalAbort => Sys2Proof.Machine.execGlobalAbort s
  | .globalAbortComplete => Sys2Proof.Machine.execGlobalAbortComplete s
  | .railLoss rail => Sys2Proof.Machine.execRailLoss rail s
  | .vddAoReset => Sys2Proof.Machine.execVddAoReset s
  | .regacc addr write value => Sys2Proof.Machine.execRegacc addr write value s
  | .registerWrite addr value => Sys2Proof.Machine.execRegisterWrite addr value s
  | .illegal word => Sys2Proof.Machine.execIllegal word s
  | .fetch addr bad => Sys2Proof.Machine.execFetch addr bad s
  | .reservedFrameType type f => Sys2Proof.Machine.execReservedFrameType type f s
  | .sp2Sel0Fall => Sys2Proof.Machine.execSp2Sel0Fall s
  | .vdda1v8Loss => Sys2Proof.Machine.execVdda1v8Loss s
  | .testInstruction code => Sys2Proof.Machine.execTestInstruction code s

end Sys2Proof.Machine
end

