-- ==== Sys2Proof/Safety.lean ====
section
/-! DEFINITION. What counts as a safe run, and the words in which the statements say what a command leaves as it was. -/

namespace Sys2Proof

/-- The next step answers a next state. -/
def SafeStep (s : Machine.State) : Prop := ∃ t, Machine.step s = .next t

/-- A run of `k` steps that meets no fault and no refusal. -/
def SafeRun (k : Nat) (s : Machine.State) : Prop := ∃ t, core.run k s = .next t

namespace Machine

/-- Every register field keeps its value but those listed. -/
def keepsFields (l : List Fld) (s t : State) : Prop := ∀ F : Fld, (∀ G ∈ l, F.key ≠ G.key) → get F t = get F s

/-- Every byte of memory reads as before but `n` bytes from `a`. -/
def keepsMemBut (a n : Nat) (s t : State) : Prop := ∀ b : Nat, b < a ∨ a + n ≤ b → readByte b t = readByte b s

/-- What an instruction of the core that completes does beside its own effect: only `d` among the general registers changes, pc goes on to
`pc`, the system registers keep their values, and of the register space only what the core shows of itself changes. -/
def coreWrote (d : Fin 16) (v pc : Word) (s t : State) : Prop :=
  gr d t = (if d = 0 then 0 else v) ∧ (∀ r, r ≠ d → gr r t = gr r s) ∧ t.seq.pc = pc ∧ t.seq.sys = s.seq.sys ∧
  keepsFields [SYS_SEQ_STAT.STATE, SYS_SEQ_PC.PC] s t ∧ t = { s with regs := t.regs, seq := t.seq }

/-- The same for an instruction that writes no general register. -/
def coreWent (pc : Word) (s t : State) : Prop :=
  (∀ r, gr r t = gr r s) ∧ t.seq.pc = pc ∧ t.seq.sys = s.seq.sys ∧
  keepsFields [SYS_SEQ_STAT.STATE, SYS_SEQ_PC.PC] s t ∧ t = { s with regs := t.regs, seq := t.seq }

/-- An exception below level X (R346): the cause, its detail, the address concerned, the address and the STATUS saved, level X, and pc at the
exception entry of the vector table. ILLEGAL, FETCH and ACCESS are logged as 0x0901, TRAP and BRK are not. The general registers and the other
system registers keep their values, and so does the state outside the core and the log. -/
def coreTrapped (code info bad : Nat) (epc : Word) (s t : State) : Prop :=
  t.seq.sys = { s.seq.sys with causeCode := code, causeInfo := info, badaddr := BitVec.ofNat 32 bad, epc := s.seq.sys.epc.set 4 epc,
                               estat := s.seq.sys.estat.set 4 (b2n s.seq.sys.ie + 2 * s.seq.sys.lvl), lvl := 5 } ∧
  t.seq.pc = s.seq.sys.vbase + 0x10 ∧ get SYS_SEQ_STAT.STATE t = 1 ∧ (∀ r, gr r t = gr r s) ∧
  (code ≤ 3 → t.log = (fault 0x0901 0 bad code s).log) ∧ (8 ≤ code → t.log = s.log) ∧
  keepsFields [SYS_SEQ_STAT.STATE, SYS_SEQ_COV.WAIT, LOG_ESEQ.NEXT, LOG_STAT.LOST] s t ∧ t = { s with regs := t.regs, seq := t.seq, log := t.log }

/-- The log holds what it held and the one new fault, with its ESEQ and time (R529, R530, R580). -/
def logs (code unit d0 d1 : Nat) (s t : State) : Prop := t.log = (fault code unit d0 d1 s).log

/-- An event of a source is raised in the present slot (R310). -/
def raises (src : Nat) (s t : State) : Prop := raisedNow src s = 0 → (s.now, src) ∈ t.evt.raised

end Machine

end Sys2Proof
end

