-- ==== Sys2Proof/WellFormed.lean ====
section
/-! DEFINITION. Well-formed commands: register values are 32-bit words, addresses 40-bit, and unit, channel, port and slot numbers lie in
the ranges the spec gives the units (R2, R11, R12, R255). -/

namespace Sys2Proof

/-- A 32-bit register value (R12). -/
def isWord (v : Nat) : Bool := v < 4294967296

/-- A 40-bit device address (R255). -/
def isAddr (a : Nat) : Bool := a < 1099511627776

/-- A 64-bit identifier (R16). -/
def isLong (v : Nat) : Bool := v < 18446744073709551616

/-- A list of bytes. -/
def isBytes (l : List Nat) : Bool := l.all (fun b => decide (b < 256))

/-- A frame's payload is made of words, no more than L and no more than may pass, and its header fields fit (R398, R405). -/
def FrameIn.wf (f : FrameIn) : Bool :=
  decide (f.flags < 16) && decide (f.alive < 256) && decide (f.len < 65536) && decide (f.payload.length ≤ Nat.min f.len 1024) &&
    isWord f.addr && f.payload.all isWord && decide (f.control < 256)

/-- A packet's fields fit (R468). -/
def PacketIn.wf (p : PacketIn) : Bool :=
  decide (p.seq < 4096) && isAddr p.addr && decide (p.tag < 256) && decide (p.status < 4) && isBytes p.data

/-- A VC0 message's fields fit (R478). -/
def TimingIn.wf (m : TimingIn) : Bool :=
  decide (m.hop < 8) && decide (m.lslot < 256) && decide (m.tick < 4294967296) && decide (m.frac < 65536)

/-- What a slot meets: MR4 codes are bytes, upsets give the eight bytes of a word (ITCM and DTCM take the first four), units have codes
of R32. -/
def SlotEnv.wf (e : SlotEnv) : Bool :=
  isBytes e.mr4 && e.storeBad.all (· < 9) && e.storeFixed.all (· < 9) && e.slips.all (fun x => decide (x.1 < 241)) &&
    e.missing.all (· < 9) && e.late.all (fun x => decide (1 ≤ x.1 ∧ x.1 ≤ 0x11)) &&
    e.upsets.all (fun u => isAddr u.1 && decide (u.2.2.length = 8) && isBytes u.2.2)

/-- Well-formed commands. -/
def Instr.wf (i : Instr) : Bool :=
  match i with
  | .modeChangeRequest v => isWord v
  | .planSlot e => e.wf
  | .verify n => decide (n < 8)
  | .swap n => decide (n < 8)
  | .invalidate n => decide (n < 8)
  | .psDataWrite v => isWord v
  | .headerRead n _ => decide (n < 2)
  | .otpProg v => isWord v
  | .beat codes ahead => decide (codes.length = 68) && codes.all (fun c => decide (c < 4096)) && ahead.all (fun c => decide (c < 4096))
  | .handoverAttempt q => decide (q < 4)
  | .handoverSwitch q => decide (q < 4)
  | .calibrationCycleEnd sc _ _ _ _ => decide (sc < 68)
  | .skewWindowEnd sc => decide (sc < 68)
  | .stuckWatch sc => decide (sc < 68)
  | .forceFail sc => decide (sc < 68)
  | .mapoutWrite sc v => decide (sc < 68) && isWord v
  | .reinstate sc => decide (sc < 68)
  | .trimWrite a v => isAddr a && isWord v
  | .broadcastWrite a v => isAddr a && isWord v
  | .broadcastRead a => isAddr a
  | .candidateHorizon u => decide (u < 4)
  | .trgSw v => isWord v
  | .holdoffEnd u => decide (u < 4)
  | .trgAbort v => isWord v
  | .recRelease v => isWord v
  | .commit v => isWord v
  | .reductionValueDelivery n => decide (n < 4)
  | .restart n => decide (n < 4)
  | .dmaStart n => decide (n < 32)
  | .descriptorLoaded n => decide (n < 32)
  | .dmaLineArrival n => decide (n < 32)
  | .dmaPortLineOut n => decide (n < 32)
  | .dmaDescriptorComplete n => decide (n < 32)
  | .dmaAbort n => decide (n < 32)
  | .dmaAbortComplete n => decide (n < 32)
  | .dmaChRegWrite a v => isAddr a && isWord v
  | .stopTask n => decide (n < 57)
  | .clr v => isWord v
  | .evtSw v => isWord v
  | .evtLineSrcWrite n v => decide (n < 64) && isWord v
  | .evtPinInputEdge p _ => decide (p < 4)
  | .evtPinPulseStart p => decide (p < 4)
  | .evtPinPulseEnd p => decide (p < 4)
  | .xipLineFill d => decide (d.length = 64) && isBytes d
  | .spnCmd p v => (p == 0 || p == 2) && isWord v
  | .spnRxd p => p == 0 || p == 2
  | .serialEntryStart p => p == 0 || p == 2
  | .serialEntryEnd p rx => (p == 0 || p == 2) && isBytes rx
  | .sp2SelectRise rx => isBytes rx
  | .serialAbort p => decide (p < 3)
  | .windowEnable n v => decide (n < 4) && isWord v
  | .templateWrite v => isWord v
  | .frameNop f => f.wf
  | .sync f => f.wf
  | .frameRead f => f.wf
  | .frameWrite f => f.wf
  | .rmw f => f.wf
  | .bulk f => f.wf
  | .req f => f.wf
  | .abortFrame f => f.wf
  | .reservedFrameType t f => decide (8 ≤ t ∧ t < 16) && f.wf
  | .done v => isWord v
  | .apply v => isWord v
  | .dspCmdGo v => isWord v
  | .krbUnlock v => isWord v
  | .krbOvr v => isWord v
  | .kerbProtectedWrite a v => isAddr a && isWord v
  | .stmTonePush v => isWord v
  | .stmSpkPush v => isWord v
  | .stmPairPush v => isWord v
  | .stmAudioSrcWrite v => isWord v
  | .toneEnWrite v => isWord v
  | .stimulusAbort v => isWord v
  | .ampEnableWrite v => isWord v
  | .erostPortEnable p v => decide (p < 2) && isWord v
  | .railLoss r => decide (r < 3)
  | .erostUp p i _ => decide (p < 2) && isLong i
  | .trainingTimeout p => decide (p < 2)
  | .erostRetry p => decide (p < 2)
  | .crcIntervalEnd p _ _ => decide (p < 2)
  | .lockLost p => decide (p < 2)
  | .beaconReceive p b => decide (p < 2) && isLong b.id && isLong b.master && isLong b.upstream && decide (b.hops < 8)
  | .beaconForget p => decide (p < 2)
  | .arm p m => decide (p < 2) && m.wf
  | .disarm p m => decide (p < 2) && m.wf
  | .fire p m => decide (p < 2) && m.wf
  | .treq p m => decide (p < 2) && m.wf
  | .trsp p m => decide (p < 2) && m.wf
  | .postedWrite p k => decide (p < 2) && k.wf
  | .readRequest p k => decide (p < 2) && k.wf
  | .completion p k => decide (p < 2) && k.wf
  | .linkAck p vc _ _ => decide (p < 2) && decide (vc < 4)
  | .nak p vc _ => decide (p < 2) && decide (vc < 4)
  | .replayTimeout p => decide (p < 2)
  | .remoteReadTimeout p => decide (p < 2)
  | .erostPortAbort p => decide (p < 2)
  | .clkTimeGo v => isWord v
  | .refLoss r => decide (r < 5)
  | .forceGo v => isWord v
  | .target v => isWord v
  | .avsLimWrite v => isWord v
  | .regacc a _ v => isAddr a && isWord v
  | .registerWrite a v => isAddr a && isWord v
  | _ => true

end Sys2Proof
end

