-- ==== Sys2Proof/Certificates/Slice0/Obligations.lean ====
section
/-! DEFINITION. The statements about the model for the provers. -/

open Sys2Proof Sys2Proof.Machine

/-! ## The core: integer instructions -/

/-- R328: the one-cycle instructions of form R write their result to d, pc goes on to the next word, and nothing else changes but what the core
shows of itself. They may issue when `aluOk` holds: the core runs, no STORE_ERR or interrupt is taken instead, the operands are ready and no
outstanding load uses the registers (R341, R347, R357, R358). R328: mul gives the low 32 bits of the product, mulh and mulhu the high 32 bits of
the signed and the unsigned 64-bit product. -/
def Obligations.RegisterFormsWriteTheirResult : Prop :=
  (∀ (s : State) (d a b : Fin 16), aluOk [a, b] d s = true →
    (∃ t, exec (.add d a b) s = .next t ∧ coreWrote d (gr a s + gr b s) (s.seq.pc + 4) s t) ∧
    (∃ t, exec (.sub d a b) s = .next t ∧ coreWrote d (gr a s - gr b s) (s.seq.pc + 4) s t) ∧
    (∃ t, exec (.and d a b) s = .next t ∧ coreWrote d (gr a s &&& gr b s) (s.seq.pc + 4) s t) ∧
    (∃ t, exec (.or d a b) s = .next t ∧ coreWrote d (gr a s ||| gr b s) (s.seq.pc + 4) s t) ∧
    (∃ t, exec (.xor d a b) s = .next t ∧ coreWrote d (gr a s ^^^ gr b s) (s.seq.pc + 4) s t) ∧
    (∃ t, exec (.nor d a b) s = .next t ∧ coreWrote d (~~~(gr a s ||| gr b s)) (s.seq.pc + 4) s t) ∧
    (∃ t, exec (.sll d a b) s = .next t ∧ coreWrote d (gr a s <<< ((gr b s).toNat % 32)) (s.seq.pc + 4) s t) ∧
    (∃ t, exec (.srl d a b) s = .next t ∧ coreWrote d (gr a s >>> ((gr b s).toNat % 32)) (s.seq.pc + 4) s t) ∧
    (∃ t, exec (.sra d a b) s = .next t ∧ coreWrote d ((gr a s).sshiftRight ((gr b s).toNat % 32)) (s.seq.pc + 4) s t) ∧
    (∃ t, exec (.slt d a b) s = .next t ∧ coreWrote d (if (gr a s).toInt < (gr b s).toInt then 1 else 0) (s.seq.pc + 4) s t) ∧
    (∃ t, exec (.sltu d a b) s = .next t ∧ coreWrote d (if (gr a s).toNat < (gr b s).toNat then 1 else 0) (s.seq.pc + 4) s t) ∧
    (∃ t, exec (.min d a b) s = .next t ∧ coreWrote d (BitVec.ofInt 32 (min (gr a s).toInt (gr b s).toInt)) (s.seq.pc + 4) s t) ∧
    (∃ t, exec (.max d a b) s = .next t ∧ coreWrote d (BitVec.ofInt 32 (max (gr a s).toInt (gr b s).toInt)) (s.seq.pc + 4) s t)) ∧
  (∀ (s : State) (d a b : Fin 16), aluOk [a, b] d s = true →
    (∃ t, exec (.mul d a b) s = .next t ∧ coreWrote d (BitVec.ofNat 32 ((gr a s).toNat * (gr b s).toNat)) (s.seq.pc + 4) s t) ∧
    (∃ t, exec (.mulh d a b) s = .next t ∧ coreWrote d (((gr a s).signExtend 64 * (gr b s).signExtend 64).extractLsb' 32 32) (s.seq.pc + 4) s t) ∧
    (∃ t, exec (.mulhu d a b) s = .next t ∧ coreWrote d (((gr a s).zeroExtend 64 * (gr b s).zeroExtend 64).extractLsb' 32 32) (s.seq.pc + 4) s t))

/-- R328, R329: the four divisions with their corners. A division by zero gives a quotient of all ones and the remainder a; the most negative
number divided by -1 gives itself with remainder 0. Truncation is toward zero and a remainder has the sign of a. -/
def Obligations.DivisionNeverTraps : Prop :=
  ∀ (s : State) (d a b : Fin 16), otherOk [a, b] s = true →
    (∃ t, exec (.div d a b) s = .next t ∧ coreWrote d (if gr b s = 0 then 0xFFFFFFFF
      else if gr a s = 0x80000000 ∧ gr b s = 0xFFFFFFFF then 0x80000000
      else BitVec.ofInt 32 ((gr a s).toInt.tdiv (gr b s).toInt)) (s.seq.pc + 4) s t) ∧
    (∃ t, exec (.divu d a b) s = .next t ∧ coreWrote d (if gr b s = 0 then 0xFFFFFFFF
      else BitVec.ofNat 32 ((gr a s).toNat / (gr b s).toNat)) (s.seq.pc + 4) s t) ∧
    (∃ t, exec (.rem d a b) s = .next t ∧ coreWrote d (if gr b s = 0 then gr a s
      else if gr a s = 0x80000000 ∧ gr b s = 0xFFFFFFFF then 0
      else BitVec.ofInt 32 ((gr a s).toInt.tmod (gr b s).toInt)) (s.seq.pc + 4) s t) ∧
    (∃ t, exec (.remu d a b) s = .next t ∧ coreWrote d (if gr b s = 0 then gr a s
      else BitVec.ofNat 32 ((gr a s).toNat % (gr b s).toNat)) (s.seq.pc + 4) s t)

/-- R327, R328: the instructions with an immediate, clz and popc, and lui and auipc. addi, slti and sltiu extend the immediate by its sign, andi,
ori and xori by zeros. -/
def Obligations.ImmediateFormsWriteTheirResult : Prop :=
  ∀ (s : State) (d a : Fin 16) (imm : BitVec 14) (n : BitVec 5) (u : BitVec 18), aluOk [a] d s = true →
    (∃ t, exec (.clz d a) s = .next t ∧
      coreWrote d (if gr a s = 0 then 32 else BitVec.ofNat 32 (31 - Nat.log2 (gr a s).toNat)) (s.seq.pc + 4) s t) ∧
    (∃ t, exec (.popc d a) s = .next t ∧
      coreWrote d (BitVec.ofNat 32 ((List.range 32).filter (fun i => (gr a s).getLsbD i)).length) (s.seq.pc + 4) s t) ∧
    (∃ t, exec (.addi d a imm) s = .next t ∧ coreWrote d (gr a s + imm.signExtend 32) (s.seq.pc + 4) s t) ∧
    (∃ t, exec (.andi d a imm) s = .next t ∧ coreWrote d (gr a s &&& imm.zeroExtend 32) (s.seq.pc + 4) s t) ∧
    (∃ t, exec (.ori d a imm) s = .next t ∧ coreWrote d (gr a s ||| imm.zeroExtend 32) (s.seq.pc + 4) s t) ∧
    (∃ t, exec (.xori d a imm) s = .next t ∧ coreWrote d (gr a s ^^^ imm.zeroExtend 32) (s.seq.pc + 4) s t) ∧
    (∃ t, exec (.slti d a imm) s = .next t ∧ coreWrote d (if (gr a s).toInt < imm.toInt then 1 else 0) (s.seq.pc + 4) s t) ∧
    (∃ t, exec (.sltiu d a imm) s = .next t ∧
      coreWrote d (if (gr a s).toNat < (imm.signExtend 32).toNat then 1 else 0) (s.seq.pc + 4) s t) ∧
    (∃ t, exec (.slli d a n) s = .next t ∧ coreWrote d (gr a s <<< n.toNat) (s.seq.pc + 4) s t) ∧
    (∃ t, exec (.srli d a n) s = .next t ∧ coreWrote d (gr a s >>> n.toNat) (s.seq.pc + 4) s t) ∧
    (∃ t, exec (.srai d a n) s = .next t ∧ coreWrote d ((gr a s).sshiftRight n.toNat) (s.seq.pc + 4) s t) ∧
    (∃ t, exec (.lui d u) s = .next t ∧ coreWrote d (BitVec.ofNat 32 (u.toNat * 2 ^ 14)) (s.seq.pc + 4) s t) ∧
    (∃ t, exec (.auipc d u) s = .next t ∧ coreWrote d (s.seq.pc + BitVec.ofNat 32 (u.toNat * 2 ^ 14)) (s.seq.pc + 4) s t)

/-- R328: bext takes n bits from bit p up, bins puts the low n bits of a into d from bit p up and leaves d's other bits; with p + n above 32 each
raises ILLEGAL (R346), here below level X. -/
def Obligations.BitFieldsMoveOrTrap : Prop :=
  ∀ (s : State) (d a : Fin 16) (p n1 : BitVec 5),
    (p.toNat + n1.toNat + 1 ≤ 32 →
      (aluOk [a] d s = true → ∃ t v, exec (.bext d a p n1) s = .next t ∧ coreWrote d v (s.seq.pc + 4) s t ∧
        ∀ i < 32, v.getLsbD i = (decide (i < n1.toNat + 1) && (gr a s).getLsbD (p.toNat + i))) ∧
      (aluOk [a, d] d s = true → ∃ t v, exec (.bins d a p n1) s = .next t ∧ coreWrote d v (s.seq.pc + 4) s t ∧
        ∀ i < 32, v.getLsbD i = if p.toNat ≤ i ∧ i < p.toNat + n1.toNat + 1 then (gr a s).getLsbD (i - p.toNat) else (gr d s).getLsbD i)) ∧
    (32 < p.toNat + n1.toNat + 1 → otherOk [] s = true → s.seq.sys.lvl < 5 →
      (∃ t, exec (.bext d a p n1) s = .next t ∧ coreTrapped 1 0 0 s.seq.pc s t) ∧
      (∃ t, exec (.bins d a p n1) s = .next t ∧ coreTrapped 1 0 0 s.seq.pc s t))

/-- R327, R328: a branch goes to pc + 4 × s(off14) when its condition holds and to the next word otherwise; jal and jalr write pc + 4 to d, and
jalr reads a before it writes d. -/
def Obligations.BranchesAndJumpsSetThePc : Prop :=
  ∀ (s : State) (d a b : Fin 16) (off : BitVec 14) (u : BitVec 18),
    (otherOk [a, b] s = true →
      let dest := fun (c : Bool) => if c then s.seq.pc + BitVec.ofInt 32 (4 * off.toInt) else s.seq.pc + 4
      (∃ t, exec (.beq a b off) s = .next t ∧ coreWent (dest (decide (gr a s = gr b s))) s t) ∧
      (∃ t, exec (.bne a b off) s = .next t ∧ coreWent (dest (decide (gr a s ≠ gr b s))) s t) ∧
      (∃ t, exec (.blt a b off) s = .next t ∧ coreWent (dest (decide ((gr a s).toInt < (gr b s).toInt))) s t) ∧
      (∃ t, exec (.bge a b off) s = .next t ∧ coreWent (dest (decide ((gr b s).toInt ≤ (gr a s).toInt))) s t) ∧
      (∃ t, exec (.bltu a b off) s = .next t ∧ coreWent (dest (decide ((gr a s).toNat < (gr b s).toNat))) s t) ∧
      (∃ t, exec (.bgeu a b off) s = .next t ∧ coreWent (dest (decide ((gr b s).toNat ≤ (gr a s).toNat))) s t)) ∧
    (otherOk [] s = true → ∃ t, exec (.jal d u) s = .next t ∧
      coreWrote d (s.seq.pc + 4) (s.seq.pc + BitVec.ofInt 32 (4 * u.toInt)) s t) ∧
    (otherOk [a] s = true → ∃ t, exec (.jalr d a off) s = .next t ∧
      coreWrote d (s.seq.pc + 4) ((gr a s + off.signExtend 32) &&& 0xFFFFFFFC) s t)

/-! ## The core: system instructions -/

/-- R336, R337, R338, R344: sysrd of each listed register gives its value, and a read of CYCLE_LO or TICK_LO captures the 64 bits; a number that
is not listed raises ILLEGAL with INFO equal to the number. syswr writes the fields of a writable register and nothing else: STATUS.IE and not
the level, bits 17 to 8 of VBASE, EPC, ESTAT, IRQ_EN, IRQ_LVL, SWI, TCMP, TCTRL and FLT, the W1C bits by a 1; a read-only or absent number raises
ILLEGAL. -/
def Obligations.SystemRegistersReadAndWrite : Prop :=
  ∀ (s : State) (d a : Fin 16),
    let r := s.seq.sys
    let num := fun (n : Nat) => (BitVec.ofNat 14 n : BitVec 14)
    let x := (gr a s).toNat
    (otherOk [] s = true →
      (∀ c ∈ [(0x000, BitVec.ofNat 32 (b2n r.ie + 2 * r.lvl)), (0x001, r.vbase), (0x002, BitVec.ofNat 32 (r.causeCode + 65536 * r.causeInfo)),
          (0x003, r.badaddr), (0x004, r.epc[0]), (0x005, r.epc[1]), (0x006, r.epc[2]), (0x007, r.epc[3]), (0x008, r.epc[4]),
          (0x00C, BitVec.ofNat 32 r.estat[0]), (0x00D, BitVec.ofNat 32 r.estat[1]), (0x00E, BitVec.ofNat 32 r.estat[2]),
          (0x00F, BitVec.ofNat 32 r.estat[3]), (0x010, BitVec.ofNat 32 r.estat[4]), (0x020, r.irqEn.extractLsb' 0 32),
          (0x021, r.irqEn.extractLsb' 32 32), (0x022, BitVec.ofNat 32 (irqPendBits s)), (0x023, BitVec.ofNat 32 (irqPendBits s / 2 ^ 32)), (0x024, r.irqLvl.extractLsb' 0 32), (0x025, r.irqLvl.extractLsb' 32 32),
          (0x026, r.irqLvl.extractLsb' 64 32), (0x027, r.irqLvl.extractLsb' 96 32), (0x028, irqId s), (0x029, 0), (0x02A, r.swi.zeroExtend 32),
          (0x031, r.cycleCap.extractLsb' 32 32), (0x032, r.tcmp.extractLsb' 0 32), (0x033, r.tcmp.extractLsb' 32 32),
          (0x034, BitVec.ofNat 32 (b2n r.tcEn + 2 * b2n r.tcPend)), (0x038, BitVec.ofNat 32 (b2n r.fenced + 2 * b2n r.multi)),
          (0x041, r.tickCap.extractLsb' 32 32)],
        ∃ t, exec (.sysrd d (num c.1)) s = .next t ∧ coreWrote d c.2 (s.seq.pc + 4) s t) ∧
      (∃ t, exec (.sysrd d (num 0x030)) s = .next t ∧ gr d t = (if d = 0 then 0 else BitVec.ofNat 32 (cycleNow s)) ∧
        (∀ k, k ≠ d → gr k t = gr k s) ∧ t.seq.pc = s.seq.pc + 4 ∧ t.seq.sys = { r with cycleCap := BitVec.ofNat 64 (cycleNow s) }) ∧
      (∃ t, exec (.sysrd d (num 0x040)) s = .next t ∧ gr d t = (if d = 0 then 0 else BitVec.ofNat 32 (tick s)) ∧
        (∀ k, k ≠ d → gr k t = gr k s) ∧ t.seq.pc = s.seq.pc + 4 ∧ t.seq.sys = { r with tickCap := BitVec.ofNat 64 (tick s) }) ∧
      (r.lvl < 5 → ∀ n ∈ [0x009, 0x00B, 0x011, 0x01F, 0x02B, 0x035, 0x039, 0x042, 0x3FFF],
        ∃ t, exec (.sysrd d (num n)) s = .next t ∧ coreTrapped 1 n 0 s.seq.pc s t)) ∧
    (otherOk [a] s = true →
      (∀ c ∈ [(0x000, { r with ie := (gr a s).getLsbD 0 }), (0x001, { r with vbase := gr a s &&& 0x3FF00 }),
          (0x004, { r with epc := r.epc.set 0 (gr a s &&& 0xFFFFFFFC) }), (0x005, { r with epc := r.epc.set 1 (gr a s &&& 0xFFFFFFFC) }),
          (0x006, { r with epc := r.epc.set 2 (gr a s &&& 0xFFFFFFFC) }), (0x007, { r with epc := r.epc.set 3 (gr a s &&& 0xFFFFFFFC) }),
          (0x008, { r with epc := r.epc.set 4 (gr a s) }), (0x00C, { r with estat := r.estat.set 0 (x % 16) }),
          (0x00D, { r with estat := r.estat.set 1 (x % 16) }), (0x00E, { r with estat := r.estat.set 2 (x % 16) }),
          (0x00F, { r with estat := r.estat.set 3 (x % 16) }), (0x010, { r with estat := r.estat.set 4 (x % 16) }),
          (0x020, { r with irqEn := r.irqEn.extractLsb' 32 32 ++ gr a s }), (0x021, { r with irqEn := gr a s ++ r.irqEn.extractLsb' 0 32 }),
          (0x024, { r with irqLvl := r.irqLvl.extractLsb' 32 96 ++ gr a s }),
          (0x025, { r with irqLvl := r.irqLvl.extractLsb' 64 64 ++ gr a s ++ r.irqLvl.extractLsb' 0 32 }),
          (0x026, { r with irqLvl := r.irqLvl.extractLsb' 96 32 ++ gr a s ++ r.irqLvl.extractLsb' 0 64 }), (0x027, { r with irqLvl := gr a s ++ r.irqLvl.extractLsb' 0 96 }),
          (0x029, { r with swi := r.swi ||| (gr a s).truncate 8 }), (0x02A, { r with swi := r.swi &&& ~~~((gr a s).truncate 8) }),
          (0x032, { r with tcmp := r.tcmp.extractLsb' 32 32 ++ gr a s }), (0x033, { r with tcmp := gr a s ++ r.tcmp.extractLsb' 0 32 }),
          (0x034, { r with tcEn := (gr a s).getLsbD 0, tcPend := r.tcPend && !(gr a s).getLsbD 1 }),
          (0x038, { r with fenced := r.fenced && !(gr a s).getLsbD 0, multi := r.multi && !(gr a s).getLsbD 1 })],
        ∃ t, exec (.syswr a (num c.1)) s = .next t ∧ t.seq.sys = c.2 ∧ t.seq.pc = s.seq.pc + 4 ∧ (∀ k, gr k t = gr k s) ∧
          keepsFields [SYS_SEQ_STAT.STATE, SYS_SEQ_PC.PC] s t ∧ t = { s with regs := t.regs, seq := t.seq }) ∧
      (r.lvl < 5 → ∀ n ∈ [0x002, 0x003, 0x009, 0x022, 0x023, 0x028, 0x030, 0x031, 0x040, 0x041, 0x3FFF],
        ∃ t, exec (.syswr a (num n)) s = .next t ∧ coreTrapped 1 n 0 s.seq.pc s t))

/-- R345: eret at level 1 to 5 sets pc from the EPC and STATUS from the ESTAT of the current level; at thread level it raises ILLEGAL. While an
interrupt qualifies after it, no instruction may issue. -/
def Obligations.EretReturnsFromTheCurrentLevel : Prop :=
  ∀ (s : State), otherOk [] s = true →
    (∀ k : Fin 5, s.seq.sys.lvl = k.val + 1 → ∃ t, exec .eret s = .next t ∧ t.seq.pc = s.seq.sys.epc[k] &&& 0xFFFFFFFC ∧
      t.seq.sys.ie = bit s.seq.sys.estat[k] 0 ∧ t.seq.sys.lvl = bits s.seq.sys.estat[k] 1 3 ∧ (∀ r, gr r t = gr r s) ∧ t.mem = s.mem) ∧
    (s.seq.sys.lvl = 0 → ∃ t, exec .eret s = .next t ∧ coreTrapped 1 0 0 s.seq.pc s t) ∧
    ∀ t n, exec .eret s = .next t → irqNow { t with now := n } ≠ none → mayIssue { t with now := n } = false

/-- R346: trap and brk take their exceptions below level X, trap with its immediate as INFO; a word that spells no instruction raises ILLEGAL
(R326), and a fetch of the next word outside ITCM and the XIP windows raises FETCH (R331). At level X the core enters LOCKUP instead, with CAUSE,
BADADDR and EPCX left as they were, and logs fault 0x0902 (R348); the code in its second detail is CAUSE.CODE as it stands. -/
def Obligations.ExceptionsEnterLevelXOrLockUp : Prop :=
  ∀ (s : State) (imm : BitVec 14), otherOk [] s = true →
    (s.seq.sys.lvl < 5 →
      (∃ t, exec (.trap imm) s = .next t ∧ coreTrapped 8 imm.toNat 0 s.seq.pc s t) ∧
      (∃ t, exec .brk s = .next t ∧ coreTrapped 9 0 0 s.seq.pc s t) ∧
      (∃ t, exec (.illegal 0) s = .next t ∧ coreTrapped 1 0 0 s.seq.pc s t) ∧
      (s.seq.pc.toNat / 2 ^ 24 = 0x40 → ∃ t, exec (.fetch s.seq.pc false) s = .next t ∧ coreTrapped 2 0 s.seq.pc.toNat s.seq.pc s t)) ∧
    (s.seq.sys.lvl = 5 → ∀ c ∈ [Instr.trap imm, .brk, .illegal 0],
      ∃ t, exec c s = .next t ∧ get SYS_SEQ_STAT.STATE t = 3 ∧ t.seq.sys = s.seq.sys ∧ t.seq.pc = s.seq.pc ∧ (∀ r, gr r t = gr r s) ∧
        logs 0x0902 0 0 s.seq.sys.causeCode s t ∧ coreRuns t = false ∧ t = { s with regs := t.regs, seq := t.seq, log := t.log })

/-- R314, R335: pollev reads 1 and uses a count of its stop when one is available in the slot, else it reads 0 and leaves the counts; waitev
completes when a count is available and otherwise leaves pc where it is. The stop's evaluation takes a used count off COUNT. fence and setev
complete when every earlier store has taken effect (R332, R333); setev raises its source as a write of EVT_SW does, in the next slot while slots
run (R312, R323). iflush drops what was fetched (R334). -/
def Obligations.EventInstructionsUseTheirStop : Prop :=
  ∀ (s : State) (d : Fin 16) (n : BitVec 4), otherOk [] s = true →
    let k := 32 + n.toNat
    let used := fun (t : State) => hasRun k t = true ∧ (∀ st, st ≠ k → hasRun st t = hasRun st s) ∧
      keepsFields [SYS_SEQ_STAT.STATE, SYS_SEQ_PC.PC] s t ∧ t = { s with regs := t.regs, seq := t.seq, evt.ran := t.evt.ran } ∧
      (s.evt.fresh = [] → get (EVT_STOP_CNT.COUNT k) s ≤ 15 →
        get (EVT_STOP_CNT.COUNT k) (evalStop k t) = get (EVT_STOP_CNT.COUNT k) s - 1)
    (canRun k s = true →
      (∃ t, exec (.pollev d n) s = .next t ∧ gr d t = (if d = 0 then 0 else 1) ∧ (∀ r, r ≠ d → gr r t = gr r s) ∧ t.seq.pc = s.seq.pc + 4 ∧
        used t) ∧
      (∃ t, exec (.waitev n) s = .next t ∧ (∀ r, gr r t = gr r s) ∧ t.seq.pc = s.seq.pc + 4 ∧ used t)) ∧
    (canRun k s = false →
      (∃ t, exec (.pollev d n) s = .next t ∧ coreWrote d 0 (s.seq.pc + 4) s t) ∧
      (∃ t, exec (.waitev n) s = .next t ∧ get SYS_SEQ_STAT.STATE t = 2 ∧ keepsFields [SYS_SEQ_STAT.STATE] s t ∧
        t = { s with regs := t.regs })) ∧
    (s.seq.buffer = [] → groupClean s = true →
      (∃ t, exec .fence s = .next t ∧ coreWent (s.seq.pc + 4) s t) ∧
      (∃ t, exec (.setev n) s = .next t ∧ t.seq.pc = s.seq.pc + 4 ∧ (∀ r, gr r t = gr r s) ∧ t.seq.sys = s.seq.sys ∧
        keepsFields [SYS_SEQ_STAT.STATE, SYS_SEQ_PC.PC] s t ∧ t = { s with regs := t.regs, seq := t.seq, evt := t.evt } ∧
        (s.plan.running = true → t.evt = { s.evt with later := s.evt.later ++ [(EVT_SW.addr, 2 ^ n.toNat)] }) ∧
        (s.plan.running = false → raises (0xC0 + n.toNat) s t))) ∧
    (∃ t, exec .iflush s = .next t ∧ coreWent (s.seq.pc + 4) s t ∧ t.seq.xip = [])

/-! ## The core: loads, stores, interrupts, abort -/

/-- R328, R330, R361: a load from ITCM or DTCM whose port is free, with no buffered store over its bytes and no error in its words, writes the
little-endian bytes at a + s(imm14), extended by its sign or by zeros; alignment is not asked for. A word load from a mapped register reads it
when every earlier store has taken effect, and the other loads there raise ACCESS. A load from an unmapped address raises BUS_LOAD. R357, R367: a
load from the Square that the plan covers becomes outstanding with its lines asked for; when the one line of an outstanding word load arrives
sound, the load writes the line's bytes at its place and is no longer outstanding. -/
def Obligations.LoadsReturnTheirBytes : Prop :=
  (∀ (s : State) (d a : Fin 16) (imm : BitVec 14) (adr : Nat), otherOk [a] s = true → adr = (gr a s + imm.signExtend 32).toNat →
    ((adr + 4 ≤ 0x40000 ∨ (0x100000 ≤ adr ∧ adr + 4 ≤ 0x120000)) → portFree adr s = true →
      s.seq.buffer.all (fun e => !(e.overlaps adr 4)) = true → s.memory.upsets = [] →
      let b := fun (i : Nat) => readByte (adr + i) s
      (∃ t, exec (.lb d a imm) s = .next t ∧ coreWrote d ((b 0).signExtend 32) (s.seq.pc + 4) s t) ∧
      (∃ t, exec (.lbu d a imm) s = .next t ∧ coreWrote d ((b 0).zeroExtend 32) (s.seq.pc + 4) s t) ∧
      (∃ t, exec (.lh d a imm) s = .next t ∧ coreWrote d ((b 1 ++ b 0).signExtend 32) (s.seq.pc + 4) s t) ∧
      (∃ t, exec (.lhu d a imm) s = .next t ∧ coreWrote d ((b 1 ++ b 0).zeroExtend 32) (s.seq.pc + 4) s t) ∧
      (∃ t, exec (.lw d a imm) s = .next t ∧ coreWrote d (b 3 ++ b 2 ++ b 1 ++ b 0) (s.seq.pc + 4) s t)) ∧
    (0x40000000 ≤ adr → adr < 0x41000000 → adr % 4 = 0 → s.seq.buffer = [] → groupClean s = true → (busRead seqOwner adr s).1 = true →
      let x := busRead seqOwner adr s
      ∃ t, exec (.lw d a imm) s = .next t ∧ gr d t = (if d = 0 then 0 else BitVec.ofNat 32 x.2.1) ∧ (∀ r, r ≠ d → gr r t = gr r x.2.2) ∧
        t.seq.pc = x.2.2.seq.pc + 4 ∧ t.mem = x.2.2.mem ∧ t = { x.2.2 with regs := t.regs, seq := t.seq }) ∧
    (s.seq.sys.lvl < 5 →
      (0x40000000 ≤ adr → adr + 4 ≤ 0x41000000 → ∀ c ∈ [Instr.lb d a imm, .lbu d a imm, .lh d a imm, .lhu d a imm],
        ∃ t, exec c s = .next t ∧ coreTrapped 3 0 adr s.seq.pc s t) ∧
      (0x20000000 ≤ adr → adr + 4 ≤ 0x40000000 → ∀ c ∈ [Instr.lb d a imm, .lbu d a imm, .lh d a imm, .lhu d a imm, .lw d a imm],
        ∃ t, exec c s = .next t ∧ coreTrapped 4 0 adr s.seq.pc s t)) ∧
    (0x60000000 ≤ adr → adr + 4 ≤ 0x62000000 → s.seq.buffer = [] →
      ∀ c ∈ [(Instr.lb d a imm, 1, true), (.lbu d a imm, 1, false), (.lh d a imm, 2, true), (.lhu d a imm, 2, false), (.lw d a imm, 4, false)],
        accessCovered adr c.2.1 false s = true →
        ∃ t, exec c.1 s = .next t ∧ (∀ r, gr r t = gr r s) ∧ t.seq.pc = s.seq.pc + 4 ∧ t.seq.sys = s.seq.sys ∧ t.mem = s.mem ∧
          t.seq.load = some ⟨s.seq.pc, adr, adr, c.2.1, c.2.2, d, (linesOf adr c.2.1).map (fun l => (l, none)), false, false⟩ ∧
          t.memory.acc = s.memory.acc ++ (linesOf adr c.2.1).map (fun l => ⟨seqOwner, l, .read, [], [], .load, s.now / 2 * 2 + 4⟩))) ∧
  (∀ (s : State) (l : LoadOut) (due : Nat) (data : List Nat), s.seq.load = some l →
    inSquare l.addr = true → l.size = 4 → l.addr % 64 ≤ 60 → l.lines = [(lineOf l.addr, none)] → l.bad = false → l.fenced = false →
    s.seq.group = none → s.seq.abortAt = none → data.length = 64 → due ≤ s.now →
    s.memory.flight = [⟨due, 0x24, lineOf l.addr, .load, data, false, false⟩] →
    ∃ t, exec .loadReturn s = .next t ∧ t.seq.load = none ∧
      gr l.d t = (if l.d = 0 then 0 else BitVec.ofNat 32 (ofLe (slice data (l.addr % 64) 4))) ∧
      (∀ r, r ≠ l.d → gr r t = gr r s) ∧ t.seq.pc = s.seq.pc ∧ t.seq.sys = s.seq.sys ∧ t.regs = s.regs ∧ t.mem = s.mem ∧ t.memory.flight = [])

/-- R328, R363: a store to ITCM or DTCM enters the store buffer, which holds up to 4, with the low bytes of d; no byte of memory changes yet.
R330: a byte or halfword store to the register space raises ACCESS. R347: a store to an unmapped address also enters the buffer; drained, it is
refused, waits to be reported as STORE_ERR, and changes no byte of memory. A second refused store before the report sets FLT.MULTI. R361, R363:
the head store drains into ITCM or DTCM when it may have the port, the bytes of one word at a time: they read back little-endian from their
address, every other byte of memory keeps its value, and the store leaves the buffer, or its rest stays the head. Into the register space it
drains 6 cycles after it became the head as a register write. -/
def Obligations.StoresAreBufferedAndDrained : Prop :=
  (∀ (s : State) (d a : Fin 16) (imm : BitVec 14) (adr : Nat), otherOk [a, d] s = true → adr = (gr a s + imm.signExtend 32).toNat →
    ((adr + 4 ≤ 0x40000 ∨ (0x100000 ≤ adr ∧ adr + 4 ≤ 0x120000) ∨ (0x20000000 ≤ adr ∧ adr + 4 ≤ 0x40000000)) → s.seq.buffer.length < 4 →
      ∀ c ∈ [(Instr.sb d a imm, 1), (.sh d a imm, 2), (.sw d a imm, 4)],
        ∃ t e, exec c.1 s = .next t ∧ t.seq.buffer = s.seq.buffer ++ [e] ∧ e.addr = adr ∧ e.raw = adr ∧ e.size = c.2 ∧
          e.data = (gr d s).toNat % 2 ^ (8 * c.2) ∧ t.seq.pc = s.seq.pc + 4 ∧ (∀ r, gr r t = gr r s) ∧ t.seq.sys = s.seq.sys ∧ t.mem = s.mem ∧
          keepsFields [SYS_SEQ_STAT.STATE, SYS_SEQ_PC.PC, SYS_SEQ_COV.WAIT] s t) ∧
    (0x40000000 ≤ adr → adr + 4 ≤ 0x41000000 → s.seq.sys.lvl < 5 → ∀ c ∈ [Instr.sb d a imm, .sh d a imm],
      ∃ t, exec c s = .next t ∧ coreTrapped 3 0 adr s.seq.pc s t)) ∧
  (∀ (s : State) (e : StoreEntry) (rest : List StoreEntry), s.seq.buffer = e :: rest → e.head ≤ s.now →
    (0x20000000 ≤ e.addr → e.addr < 0x40000000 →
      ∃ t, exec .storeDrain s = .next t ∧ t.mem = s.mem ∧ t.seq.buffer.length = rest.length ∧ (∀ r, gr r t = gr r s) ∧
        (s.seq.storeErr = none → t.seq.storeErr = some (e.raw, false) ∧ t.seq.sys = s.seq.sys) ∧
        (s.seq.storeErr ≠ none → t.seq.storeErr = s.seq.storeErr ∧ t.seq.sys = { s.seq.sys with multi := true })) ∧
    (∀ k, e.size ∈ [1, 2, 4] → (e.addr + e.size ≤ 0x40000 ∨ (0x100000 ≤ e.addr ∧ e.addr + e.size ≤ 0x120000)) → drainMay e s = true →
      k = Nat.min e.size (4 - e.addr % 4) →
      ∃ t, exec .storeDrain s = .next t ∧ (∀ i < k, readByte (e.addr + i) t = BitVec.ofNat 8 (e.data / 256 ^ i)) ∧
        keepsMemBut e.addr k s t ∧ (k = e.size → t.seq.buffer.length = rest.length) ∧
        (k < e.size → t.seq.buffer = { e with raw := e.raw + k, addr := e.addr + k, size := e.size - k, data := e.data / 2 ^ (8 * k) } :: rest) ∧
        (∀ r, gr r t = gr r s) ∧ t.seq.pc = s.seq.pc ∧ t.regs = s.regs) ∧
    (0x40000000 ≤ e.addr → e.addr < 0x41000000 → e.head + 12 ≤ s.now → groupClean s = true → (busWrite seqOwner e.addr e.data s).1 = true →
      exec .storeDrain s = .next (popStore (busWrite seqOwner e.addr e.data s).2)) ∧
    (0x40000000 ≤ e.addr → e.addr < 0x41000000 → s.now < e.head + 12 → exec .storeDrain s = .next s))

/-- R369, R391: a line read that was asked for starts when SP0 is free and XIP is not held, and its data takes at least 6 cycles; when it ends,
the line is in the line buffers, as it came where the window has no key, and no read is under way. -/
def Obligations.XipLinesAreReadAndKept : Prop :=
  ∀ (s : State) (w line flash : Nat) (data : List Nat),
    (s.seq.xipMiss = some ⟨w, line, flash, none⟩ → get SP0_XIP_CTRL.HOLD s = 0 → s.sp.p0.cur = none → s.sp.p0.sel = none →
      s.sp.p0.idleUntil ≤ s.now → spEnabled 0 s = true →
      ∃ t e, exec .xipLineRead s = .next t ∧ s.now + 12 ≤ e ∧ t = { s with seq.xipMiss := some ⟨w, line, flash, some e⟩ }) ∧
    (∀ e, s.seq.xipMiss = some ⟨w, line, flash, some e⟩ → e ≤ s.now → on (SP0_WIN_CFG.EN w) s = true → 3 < get (SP0_WIN_CFG.KEY w) s →
      s.seq.load = none → data.length = 64 →
      ∃ t x, exec (.xipLineFill data) s = .next t ∧ t.seq.xipMiss = none ∧ x ∈ t.seq.xip ∧ x.window = w ∧ x.addr = flash ∧ x.data = data ∧
        t.mem = s.mem ∧ t.regs = s.regs)

/-- R341, R342: at a boundary with a qualifying level n the core saves the address of the next unexecuted instruction to EPCn and STATUS to
ESTATn, sets LVL to n + 1 and pc to the vector 0x20 + 0x10n; IE is unchanged. R346, R347: STORE_ERR is taken with CAUSE 6 at a boundary below
level X. R339: the compare sets TCTRL.PEND. R349: a sequencer abort stops the issue of instructions; once loads and stores are done the core
writes EPCX and ESTATX and goes to VBASE + 0 at level X with CAUSE 15 and STATE RUN, and logs fault 0x0903; the general registers and every other
system register keep their values. -/
def Obligations.InterruptsStoreErrorsAndAbortsAreTaken : Prop :=
  (∀ (s : State),
    (∀ n : Fin 4, atBoundary s = true → irqNow s = some n.val → s.seq.div = none →
      ∃ t, exec .interruptEntry s = .next t ∧ t.seq.pc = s.seq.sys.vbase + BitVec.ofNat 32 (0x20 + 0x10 * n.val) ∧
        t.seq.sys = { s.seq.sys with epc := s.seq.sys.epc.set n s.seq.pc, estat := s.seq.sys.estat.set n (b2n s.seq.sys.ie + 2 * s.seq.sys.lvl),
                                     lvl := n.val + 1 } ∧
        (∀ r, gr r t = gr r s) ∧ keepsFields [SYS_SEQ_STAT.STATE, SYS_SEQ_COV.WAIT] s t ∧ t = { s with regs := t.regs, seq := t.seq }) ∧
    (∀ adr prot, s.seq.storeErr = some (adr, prot) → boundaryHere s = true → s.seq.sys.lvl < 5 → s.seq.div = none →
      ∃ t, exec .storeErr s = .next t ∧ coreTrapped 6 (b2n prot) adr s.seq.pc s t ∧ t.seq.storeErr = none) ∧
    (s.seq.released = true → s.pwr.seqStopped = false → s.seq.sys.tcEn = true → s.seq.sys.tcmp.toNat ≤ cycleNow s % 2 ^ 64 →
      ∃ t, exec .tcmpReached s = .next t ∧ t = { s with seq.sys.tcPend := true })) ∧
  (∀ (s : State),
    (s.seq.released = true → s.seq.abortAt = none → s.seq.div = none →
      ∃ t, exec .sequencerAbortRequest s = .next t ∧ t.seq.abortAt = some s.now ∧ get SYS_SEQ_STAT.STATE t = 4 ∧ mayIssue t = false ∧
        t.seq.pc = s.seq.pc ∧ t.seq.sys = s.seq.sys ∧ t.seq.buffer = s.seq.buffer ∧ (∀ r, gr r t = gr r s) ∧
        keepsFields [SYS_SEQ_STAT.STATE, SYS_SEQ_COV.WAIT] s t ∧ t = { s with regs := t.regs, seq := t.seq }) ∧
    (s.seq.abortAt ≠ none → s.seq.load = none → s.seq.buffer = [] →
      ∃ t, exec .sequencerAbort s = .next t ∧ t.seq.pc = s.seq.sys.vbase ∧ get SYS_SEQ_STAT.STATE t = 1 ∧ t.seq.abortAt = none ∧
        t.seq.sys = { s.seq.sys with causeCode := 15, causeInfo := 0, badaddr := 0, epc := s.seq.sys.epc.set 4 s.seq.pc,
                                     estat := s.seq.sys.estat.set 4 (b2n s.seq.sys.ie + 2 * s.seq.sys.lvl), lvl := 5 } ∧
        (get SYS_SEQ_STAT.ABORTS s < 255 → get SYS_SEQ_STAT.ABORTS t = get SYS_SEQ_STAT.ABORTS s + 1) ∧ logs 0x0903 0 0 0 s t ∧
        (∀ r, gr r t = gr r s) ∧ keepsFields [SYS_SEQ_STAT.STATE, SYS_SEQ_STAT.ABORTS, LOG_ESEQ.NEXT, LOG_STAT.LOST] s t ∧
        t = { s with regs := t.regs, seq := t.seq, log := t.log }))

/-! ## The core: encodings -/

/-- R326, R328: decode of encode is the instruction, for every instruction of the core with every operand its fields admit. -/
def Obligations.CoreDecodeInvertsEncode : Prop :=
  ∀ (i : Instr) (w : BitVec 32), encodeCore i = some w → decodeCore w = some i

/-! ## The queue and reset -/

/-- A step on a state with a command in front is exec of that command on the state with the queue's rest; on an empty queue the state stays as it
is (log entry 1). -/
def Obligations.StepRunsTheFrontCommand : Prop :=
  (∀ (s : State) (c : Instr) (rest : List Instr), step { s with pending := c :: rest } = exec c { s with pending := rest }) ∧
  ∀ s : State, s.pending = [] → step s = .next s

/-- R14: right after reset every register field reads its reset value, and the reset values of the field tables of R17, R58, R61 and R337 are
these; no plan runs, nothing is logged, the queue is empty, and every byte below the Boulevard reads zero (log entry 26). -/
def Obligations.ResetHoldsTheSpecifiedValues : Prop :=
  (∀ F : Fld, get F State.reset = F.reset) ∧ get SYS_MODE.MODE State.reset = 0 ∧ get SQ_PLAN_STAT.VALID State.reset = 0 ∧
  get SQ_SLOT.SLOT State.reset = 0 ∧ get SQ_PLAN_ID.ID State.reset = 0 ∧ State.reset.seq.sys.ie = false ∧ State.reset.plan.running = false ∧
  State.reset.log.hold = [] ∧ State.reset.pending = [] ∧
  (∀ a : Nat, a < 0x100000000 → readByte a State.reset = 0)

/-! ## Plans and modes -/

/-- R47, R60: WADDR and DATA reset to 0 and are not kept, and a write of SQ_PS_ADDR sets WADDR from bits 19 to 2. A write of SQ_PS_DATA to a slot
that is neither active nor pending nor under verification writes the store word at WADDR and clears that slot's VALID bit only; to one that is,
it is dropped and PS_REFUSED is set. A read returns the word in SQ_PS_DATA. Each advances WADDR by one word, wrapping after the last. -/
def Obligations.PlanStoreIsAccessedAtWaddr : Prop :=
  ∀ (s : State) (v : Nat),
    let w := get SQ_PS_ADDR.WADDR s
    (w < 262144 → slotLocked (w / 32768) s = false → ∃ t, exec (.psDataWrite v) s = .next t ∧ storeWord w t = v % 2 ^ 32 ∧
      (∀ x, x ≠ w → storeWord x t = storeWord x s) ∧ bit (get SQ_PLAN_STAT.VALID t) (w / 32768) = false ∧
      (∀ n < 8, n ≠ w / 32768 → bit (get SQ_PLAN_STAT.VALID t) n = bit (get SQ_PLAN_STAT.VALID s) n) ∧
      get SQ_PS_ADDR.WADDR t = (w + 1) % 262144 ∧ keepsFields [SQ_PS_ADDR.WADDR, SQ_PS_DATA.DATA, SQ_PLAN_STAT.VALID] s t ∧
      t = { s with regs := t.regs, plan.store := t.plan.store }) ∧
    (w < 262144 → slotLocked (w / 32768) s = true → ∃ t, exec (.psDataWrite v) s = .next t ∧ get SQ_PLAN_STAT.PS_REFUSED t = 1 ∧
      get SQ_PS_ADDR.WADDR t = (w + 1) % 262144 ∧ keepsFields [SQ_PS_ADDR.WADDR, SQ_PS_DATA.DATA, SQ_PLAN_STAT.PS_REFUSED] s t ∧
      t = { s with regs := t.regs }) ∧
    (∃ t, exec (.registerWrite SQ_PS_ADDR.addr v) s = .next t ∧ get SQ_PS_ADDR.WADDR t = v / 4 % 2 ^ 18 ∧
      keepsFields [SQ_PS_ADDR.WADDR] s t ∧ t = { s with regs := t.regs }) ∧
    (∀ F ∈ [SQ_PS_ADDR.WADDR, SQ_PS_DATA.DATA], get F State.reset = 0 ∧ keptKey F.key = false) ∧
    ∃ t, exec .psDataRead s = .next t ∧ get SQ_PS_DATA.DATA t = storeWord w s % 2 ^ 32 ∧ get SQ_PS_ADDR.WADDR t = (w + 1) % 262144 ∧
      keepsFields [SQ_PS_ADDR.WADDR, SQ_PS_DATA.DATA] s t ∧ t = { s with regs := t.regs }

/-- R48: VERIFY places its slot at the end of the verifications and clears its VALID bit, has no effect on a slot that is there, and is refused
with code 0x34 on the pending slot, which keeps its bit. When the oldest verification completes, it leaves the queue and VALID is set on
acceptance; on rejection SQ_PLAN_REJ takes the verdict, fault 0x0110 with its value is logged and PLAN_REJECTED raised. R49, R57: SWAP is refused
with 0x32, 0x30 or 0x31 in that order, and otherwise sets SWAP_PENDING and PENDING and replaces a pending swap; INVALIDATE clears a VALID bit, or
is refused with 0x33 for the active slot, the pending slot and a slot under verification. -/
def Obligations.VerifySwapAndInvalidateAreJudged : Prop :=
  (∀ (s : State) (n : Fin 8),
    (s.plan.queue.contains n.val = true → ∃ t, exec (.verify n) s = .next t ∧ t = s) ∧
    (∀ since, s.plan.queue.contains n.val = false → s.plan.swap = some (n.val, since) → ∃ t, exec (.verify n) s = .next t ∧
      get SQ_PLAN_REJ.CODE t = 0x34 ∧ get SQ_PLAN_REJ.STORE t = n ∧ get SQ_PLAN_REJ.NEW t = 1 ∧
      keepsFields [SQ_PLAN_REJ.CODE, SQ_PLAN_REJ.SLOT, SQ_PLAN_REJ.AUX, SQ_PLAN_REJ.STORE, SQ_PLAN_REJ.NEW] s t ∧ t = { s with regs := t.regs }) ∧
    (s.plan.queue.contains n.val = false → (∀ since, s.plan.swap ≠ some (n.val, since)) → ∃ t, exec (.verify n) s = .next t ∧
      t.plan.queue = s.plan.queue ++ [n.val] ∧ get SQ_PLAN_STAT.VERIFY_BUSY t = 1 ∧ bit (get SQ_PLAN_STAT.VALID t) n = false ∧
      (∀ k < 8, k ≠ n.val → bit (get SQ_PLAN_STAT.VALID t) k = bit (get SQ_PLAN_STAT.VALID s) k) ∧
      keepsFields [SQ_PLAN_STAT.VERIFY_BUSY, SQ_PLAN_STAT.VALID] s t ∧ t = { s with regs := t.regs, plan.queue := t.plan.queue }) ∧
    ∀ rest, s.plan.queue = n.val :: rest → ∃ t, exec .verifyComplete s = .next t ∧ t.plan.queue = rest ∧
      get SQ_PLAN_STAT.VERIFY_BUSY t = b2n (!rest.isEmpty) ∧
      match (storeImage n s).verdict (dispNeed s.dsp.applied) with
      | none => bit (get SQ_PLAN_STAT.VALID t) n = true ∧ keepsFields [SQ_PLAN_STAT.VERIFY_BUSY, SQ_PLAN_STAT.VALID] s t ∧
          t = { s with regs := t.regs, plan.queue := rest }
      | some r => get SQ_PLAN_REJ.CODE t = r.code % 256 ∧ get SQ_PLAN_REJ.SLOT t = r.slot % 4096 ∧ get SQ_PLAN_REJ.AUX t = r.aux % 64 ∧
          get SQ_PLAN_REJ.STORE t = n ∧ get SQ_PLAN_REJ.NEW t = 1 ∧ logs 0x0110 n (planRej t) 0 s t ∧ raises 0x25 s t ∧
          get SQ_PLAN_STAT.VALID t = get SQ_PLAN_STAT.VALID s ∧
          t = { s with regs := t.regs, plan.queue := rest, log := t.log, evt := t.evt }) ∧
  (∀ (s : State) (n : Fin 8),
    let bad := fun (code : Nat) (t : State) => get SQ_PLAN_REJ.CODE t = code ∧ get SQ_PLAN_REJ.STORE t = n ∧ get SQ_PLAN_REJ.NEW t = 1 ∧
      keepsFields [SQ_PLAN_REJ.CODE, SQ_PLAN_REJ.SLOT, SQ_PLAN_REJ.AUX, SQ_PLAN_REJ.STORE, SQ_PLAN_REJ.NEW] s t ∧ t = { s with regs := t.regs }
    (∃ t, exec (.swap n) s = .next t ∧
      (if s.plan.queue.contains n.val then bad 0x32 t
       else if bit (get SQ_PLAN_STAT.VALID s) n = false then bad 0x30 t
       else if storeMode n s ≠ s.plan.modeChange.getD (get SYS_MODE.ACTIVE s) then bad 0x31 t
       else get SQ_PLAN_STAT.SWAP_PENDING t = 1 ∧ get SQ_PLAN_STAT.PENDING t = n ∧ t.plan.swap = some (n.val, s.now) ∧
         t.plan.modeChange = s.plan.modeChange ∧ keepsFields [SQ_PLAN_STAT.SWAP_PENDING, SQ_PLAN_STAT.PENDING] s t ∧
         t = { s with regs := t.regs, plan.swap := t.plan.swap, ave.halve := none })) ∧
    ∃ t, exec (.invalidate n) s = .next t ∧
      (if slotLocked n s then bad 0x33 t
       else bit (get SQ_PLAN_STAT.VALID t) n = false ∧
         (∀ k < 8, k ≠ n.val → bit (get SQ_PLAN_STAT.VALID t) k = bit (get SQ_PLAN_STAT.VALID s) k) ∧
         keepsFields [SQ_PLAN_STAT.VALID] s t ∧ t = { s with regs := t.regs }))

/-- R8, R11, R17: a write of SYS_MODE with the MODE value that stands there requests nothing; with bit 16 set it clears MODE_REFUSED and its
cause. A request in the slot of a global abort is refused with cause 4, one outside IDLE and POISED with cause 1, one for a mode of which no
store slot holds a plan with cause 2, and with cause 3 when no such plan is valid: MODE, the mode in effect and a pending change keep their
values. An accepted one is pending: MODE reads the new mode, SWAP_PENDING is set, and the swap goes to a valid plan of that mode. -/
def Obligations.ModeRequestsAreJudged : Prop :=
  ∀ (s : State) (m : Fin 8),
    let rung := get PWR_STAT.RUNG s
    let refused := fun (cause : Nat) (t : State) => get SYS_MODE.MODE_REFUSED t = 1 ∧ get SYS_MODE.REFUSE_CAUSE t = cause ∧
      keepsFields [SYS_MODE.MODE_REFUSED, SYS_MODE.REFUSE_CAUSE] s t ∧ t = { s with regs := t.regs }
    (m.val = get SYS_MODE.MODE s → (∃ t, exec (.modeChangeRequest m) s = .next t ∧ t = s) ∧
      ∃ t, exec (.modeChangeRequest (65536 + m)) s = .next t ∧ get SYS_MODE.MODE_REFUSED t = 0 ∧ get SYS_MODE.REFUSE_CAUSE t = 0 ∧
        keepsFields [SYS_MODE.MODE_REFUSED, SYS_MODE.REFUSE_CAUSE] s t ∧ t = { s with regs := t.regs }) ∧
    (m.val ≠ get SYS_MODE.MODE s → s.abort.since = some s.now → ∃ t, exec (.modeChangeRequest m) s = .next t ∧ refused 4 t) ∧
    (m.val ≠ get SYS_MODE.MODE s → s.abort.since ≠ some s.now →
      (rung ≠ 1 → rung ≠ 2 → ∃ t, exec (.modeChangeRequest m) s = .next t ∧ refused 1 t) ∧
      (rung = 1 ∨ rung = 2 → (∀ n < 8, storeHolds n s = true → storeMode n s ≠ m) →
        ∃ t, exec (.modeChangeRequest m) s = .next t ∧ refused 2 t) ∧
      (rung = 1 ∨ rung = 2 → (∃ n < 8, storeHolds n s = true ∧ storeMode n s = m) →
        (∀ n < 8, storeHolds n s = true → storeMode n s = m → slotValid n s = false) →
        ∃ t, exec (.modeChangeRequest m) s = .next t ∧ refused 3 t) ∧
      (rung = 1 ∨ rung = 2 → (∃ n < 8, storeHolds n s = true ∧ storeMode n s = m ∧ slotValid n s = true) →
        ∃ t n, exec (.modeChangeRequest m) s = .next t ∧ get SYS_MODE.MODE t = m ∧ get SYS_MODE.SWAP_PENDING t = 1 ∧
          t.plan.modeChange = some m.val ∧ t.plan.swap = some (n, s.now) ∧ n < 8 ∧ storeMode n s = m ∧ slotValid n s = true ∧
          get SYS_MODE.ACTIVE t = get SYS_MODE.ACTIVE s ∧ t.plan.active = s.plan.active ∧ t.mem = s.mem))

/-- R50, R57, R58, R61: PLAN_SWAPPED in slot 4,095 takes a pending swap that was written at least 2 slots before the boundary when no record is
open: the plan is active and shown, nothing is pending, a pending mode change has taken effect, every Boulevard run is closed, and PLAN_SWAPPED
is raised at the boundary; when a record is open, the swap stays pending. R44: with no cause left the device leaves MARGIN_STOP and logs fault
0x0113. Log entry 25: PLAN_SLOT goes on to the next slot of a running plan, but for the first, which begins in the slot that stands; no slot runs
before the boot plan or while the fabric is stopped. -/
def Obligations.SwapsSlotsAndMarginStopTakeEffect : Prop :=
  (∀ (s : State) (n : Fin 8) (since : Nat), s.plan.swap = some (n.val, since) → s.plan.running = true → s.boot.phase = .done →
    s.now % 4096 = 4095 → since + 2 ≤ s.now + 1 →
    (recordOpen s = false → ∃ t, exec .planSwapped s = .next t ∧ t.plan.active = .slot n ∧ t.plan.swap = none ∧ t.plan.modeChange = none ∧
      (∀ m < 8, s.plan.modeChange = some m → get SYS_MODE.ACTIVE t = m) ∧ t.now = s.now ∧ t.plan.period0 = s.now + 1 ∧
      t.plan.runs = [] ∧ t.plan.store = s.plan.store ∧ get SQ_PLAN_STAT.ACTIVE t = n ∧ get SQ_PLAN_STAT.SWAP_PENDING t = 0 ∧
      get SQ_PLAN_ID.ID t = (storeImage n s).planId % 2 ^ 32 ∧
      (raisedNow 0x24 { s with now := s.now + 1 } = 0 → (s.now + 1, 0x24) ∈ t.evt.raised)) ∧
    (recordOpen s = true → ∃ t, exec .planSwapped s = .next t ∧ t = s)) ∧
  (∀ (s : State),
    (get SQ_PLAN_STAT.MARGIN_STOP s = 1 → get SQ_PLAN_STAT.MSTOP_CAUSE s = 0 → ∃ t, exec .marginStopLeave s = .next t ∧
      get SQ_PLAN_STAT.MARGIN_STOP t = 0 ∧ logs 0x0113 0 0 0 s t ∧ keepsFields [SQ_PLAN_STAT.MARGIN_STOP, LOG_ESEQ.NEXT, LOG_STAT.LOST] s t ∧
      t = { s with regs := t.regs, log := t.log }) ∧
    (∀ env, s.plan.running = true → s.pwr.fabricStopped = false → s.plan.begun = true →
      ∃ t, exec (.planSlot env) s = .next t ∧ t.now = s.now + 1) ∧
    (∀ env, s.plan.running = true → s.pwr.fabricStopped = false → s.plan.begun = false →
      ∃ t, exec (.planSlot env) s = .next t ∧ t.now = s.now ∧ t.plan.begun = true) ∧
    (∀ env, s.plan.running = false ∨ s.pwr.fabricStopped = true → ∃ t, exec (.planSlot env) s = .next t ∧ t = s))

/-! ## Waking up -/

/-- R63, R67, R101, R273: at reset release the straps give PATH, TRY_SLOT is taken and cleared, the identity and AUTH_EN come from the OTP, and
the Boulevard's cold start begins. R497: a candidate reference within 1 % is taken, with fault 0x0F08 when it is not REF_XO; otherwise the next
of the three is tried. R262, R491, R576: at the first lock the tick count starts with slot 0 of the boot plan and the Square reads zero; the boot
path goes on: the host download path waits with HOST_WAIT, the test path idles, the others read the headers. -/
def Obligations.WakingUpFindsReferenceAndLock : Prop :=
  (∀ (s : State),
    (∀ straps, s.boot.phase = .held → straps < 4 → ∃ t, exec (.resetRelease straps) s = .next t ∧ get SYS_BOOT_STAT.PATH t = straps ∧
      get SYS_BOOT_CTRL.TRY_SLOT t = 0 ∧ t.boot.trySlot = get SYS_BOOT_CTRL.TRY_SLOT s ∧
      get SYS_BOOT_STAT.AUTH_EN t = b2n (bit (otpWordNow 0x0A s) 0) ∧ get SYS_UID_LO.ID t = otpWordNow 0 s ∧
      get SYS_UID_HI.ID t = otpWordNow 1 s ∧ t.boot.phase = .refCheck ∧ t.boot.candidate = 0 ∧ t.boot.flashHeld = decide (straps < 2) ∧
      t.memory.training = true ∧ t.memory.trainDue = 5529600 ∧
      keepsFields [SYS_BOOT_STAT.PATH, SYS_BOOT_STAT.AUTH_EN, SYS_BOOT_CTRL.TRY_SLOT, SYS_UID_LO.ID, SYS_UID_HI.ID, PWR_STAT.PG] s t ∧
      t = { s with regs := t.regs, boot := t.boot, memory := t.memory, pwr := t.pwr }) ∧
    ∀ edges lo hi, s.boot.phase = .refCheck → (lo, hi) = (if s.boot.candidate = 1 then (1089, 1111) else (10890, 11110)) →
      (lo ≤ edges → edges ≤ hi → ∃ t, exec (.bootRefCheck edges) s = .next t ∧ t.boot = { s.boot with phase := .locking } ∧ t.mem = s.mem ∧
        (s.boot.candidate = 0 → get CLK_STAT.IN_USE t = 0 ∧ t.log = s.log) ∧
        (s.boot.candidate ≠ 0 → get CLK_STAT.IN_USE t = 1 ∧ logs 0x0F08 1 0 0 s t)) ∧
      (edges < lo ∨ hi < edges → ∃ t, exec (.bootRefCheck edges) s = .next t ∧
        t = { s with boot.candidate := (s.boot.candidate + 1) % 3 })) ∧
  (∀ (s : State) (elapsed : Nat), s.boot.phase = .locking → ∃ t, exec (.scsFirstLock elapsed) s = .next t ∧ t.now = 0 ∧ t.tickOn = true ∧
    tick t = 0 ∧ t.plan.active = .boot ∧ t.plan.running = true ∧ t.plan.begun = false ∧ get CLK_STAT.LOCK t = 1 ∧
    (∀ a : Nat, inSquare a = true → readByte a t = 0) ∧ t.boot.lockDelay = elapsed ∧
    t.boot.sp1Open = (!s.boot.presN && s.boot.presFall.isNone) ∧
    t.boot.phase = (if get SYS_BOOT_STAT.PATH s = 2 then .hostWait else if get SYS_BOOT_STAT.PATH s = 3 then .test else .headers) ∧
    (get SYS_BOOT_STAT.PATH s = 2 → get SYS_BOOT_STAT.HOST_WAIT t = 1))

/-- R64, R67, R68, R73: a header that was read is judged and kept; with both read and sound, the slot of the larger IMG_SEQ is read first, slot A
at equal ones. When both fail, each fails with its reason, the boot engine sets HOST_WAIT, logs fault 0x0104 last and waits. R65: an octal
re-read that agrees with the x1 read goes on in octal; one that differs sets OCT_FALLBACK, logs fault 0x0105 and goes on at x1. R69: GO has the
download area processed, once, while it is waited for. R67, R82, R83, R86: a streamed image whose sections pass has its plans verified, unless
AUTH_EN is set and it is not authentic: then its slot fails with reason 5 or 6 in FAIL_A, FALLBACK is set, and ITCM, DTCM and the plan store hold
nothing of it. R69: a download whose header fails waits for another, with the reason in FAIL_A and HOST_WAIT set, and fault 0x0101; before the
boot engine has read all of it nothing happens. -/
def Obligations.ImagesAreReadTriedAndJudged : Prop :=
  (∀ (s : State) (bytes : Image),
     let p := (bytes.map (·.toNat)).toArray
     let r := headerReason p
     let h := if r = 0 then some (headerOf p) else none
     (s.boot.phase = .headers → flashReady s = true →
       (s.boot.readA = false → s.boot.readB = false →
         (∃ t, exec (.headerRead 0 bytes) s = .next t ∧ t = { s with boot := { s.boot with readA := true, slotA := h, reasonA := r } }) ∧
         ∃ t, exec (.headerRead 1 bytes) s = .next t ∧ t = { s with boot := { s.boot with readB := true, slotB := h, reasonB := r } }) ∧
       (s.boot.readA = true → s.boot.readB = false → s.boot.tried = [] → s.boot.trySlot = 0 →
         (∀ a, s.boot.slotA = some a → s.boot.reasonA = 0 → r = 0 → ∃ t, exec (.headerRead 1 bytes) s = .next t ∧ t.boot.slotB = h ∧
           t.boot.current = (if a.seq < (headerOf p).seq then 1 else 0) ∧ t.boot.tried = [t.boot.current] ∧
           t.boot.phase = (if get SYS_BOOT_STAT.PATH s = 0 ∧ get SYS_BOOT_STAT.OCT_FALLBACK s ≠ 1 then .octal else .streaming) ∧
           t = { s with boot := t.boot }) ∧
         (s.boot.slotA = none → s.boot.reasonA ≠ 0 → r ≠ 0 → ∃ t, exec (.headerRead 1 bytes) s = .next t ∧ t.boot.reasonB = r ∧
           t.boot.phase = .hostWait ∧ get SYS_BOOT_STAT.HOST_WAIT t = 1 ∧ get SYS_BOOT_STAT.FALLBACK t = 1 ∧
           get SYS_BOOT_STAT.FAIL_A t = s.boot.reasonA % 256 ∧ get SYS_BOOT_STAT.FAIL_B t = r ∧ t.mem = s.mem ∧
           t.log = (fault 0x0104 0 0 0 (fault 0x0101 1 0 r (fault 0x0101 0 0 s.boot.reasonA s))).log))) ∧
     (∀ x, s.boot.phase = .octal → slotHeader s.boot.current s = some x → s.boot.octSince + 1024 * x.octCfgWait ≤ s.now →
       (bytes.map (·.toNat) = x.start → ∃ t, exec (.octalEntry bytes) s = .next t ∧ t = { s with boot.phase := .streaming }) ∧
       (bytes.map (·.toNat) ≠ x.start → ∃ t, exec (.octalEntry bytes) s = .next t ∧ get SYS_BOOT_STAT.OCT_FALLBACK t = 1 ∧
         logs 0x0105 s.boot.current 0 0 s t ∧ keepsFields [SYS_BOOT_STAT.OCT_FALLBACK, LOG_ESEQ.NEXT, LOG_STAT.LOST] s t ∧
         t = { s with regs := t.regs, log := t.log, boot := { s.boot with phase := .streaming, octal := false } })) ∧
     (s.boot.phase = .hostWait → ∃ t, exec .go s = .next t ∧
       t = { s with boot := { s.boot with phase := .streaming, current := 2, lines := [], want := 4 } }) ∧
     (s.boot.phase ≠ .hostWait → ∃ t, exec .go s = .next t ∧ t = s)) ∧
  (∀ (s : State) (image : Image), s.boot.phase = .streaming →
     let p := (image.map (·.toNat)).toArray
     (∀ h x, s.boot.current = 0 → s.boot.tried.contains 0 = true → s.boot.slotA = some h → parseImage p h.size = .ok x →
       (authReason p x.sigOfs (keyHash s) ≠ 0 → authEnabled s = true → ∃ t, exec (.imageStreamed image) s = .next t ∧
         get SYS_BOOT_STAT.FAIL_A t = authReason p x.sigOfs (keyHash s) ∧ get SYS_BOOT_STAT.FALLBACK t = 1 ∧ t.plan.store = [] ∧
         ∀ a : Nat, a < 0x120000 → readByte a t = 0) ∧
       (authReason p x.sigOfs (keyHash s) = 0 ∨ authEnabled s = false → ∃ t, exec (.imageStreamed image) s = .next t ∧ t.boot.phase = .verifying)) ∧
     (s.boot.current = 2 →
       let r := headerReason s.boot.lines.reverse.flatten.toArray
       (s.boot.want ≤ s.boot.lines.length → r ≠ 0 → ∃ t, exec (.imageStreamed image) s = .next t ∧ get SYS_BOOT_STAT.FAIL_A t = r ∧
         t.boot = { s.boot with phase := .hostWait } ∧ get SYS_BOOT_STAT.HOST_WAIT t = 1 ∧ t.plan.store = [] ∧ logs 0x0101 2 0 r s t ∧
         keepsFields [SYS_BOOT_STAT.FAIL_A, SYS_BOOT_STAT.HOST_WAIT, LOG_ESEQ.NEXT, LOG_STAT.LOST] s t ∧
         ∀ a : Nat, a < 0x120000 → readByte a t = 0) ∧
       (s.boot.lines.length < s.boot.want → ∃ t, exec (.imageStreamed image) s = .next t ∧ t = s)))

/-- R87: with no verified plan fault 0x0108 is logged and boot completes on the boot plan; otherwise the mode chosen is written to MODE and the
swap to its plan is pending, with fault 0x0108 when the mode is not the restored one. R95: boot completion, at the boundary at which the first
plan's swap takes effect or on the boot plan, sets DONE, clears HOST_WAIT, raises BOOT_DONE and starts the core at ENTRY. -/
def Obligations.BootEndsOnAPlan : Prop :=
  ∀ (s : State),
    (s.boot.phase = .verifying → s.plan.queue = [] →
      (firstMode s = none → ∃ t, exec .bootPlansVerified s = .next t ∧ t.boot = { s.boot with phase := .finishing } ∧
        logs 0x0108 s.boot.restoredMode 0 0 s t ∧ t.plan = s.plan ∧ t.mem = s.mem) ∧
      (∀ m n, m < 8 → n < 8 → firstMode s = some m → firstPlanOf m s = some n →
        ∃ t, exec .bootPlansVerified s = .next t ∧ get SYS_MODE.MODE t = m ∧ t.plan.swap = some (n, s.now) ∧ t.plan.modeChange = some m ∧
          get SQ_PLAN_STAT.PENDING t = n ∧ get SQ_PLAN_STAT.SWAP_PENDING t = 1 ∧ t.boot = { s.boot with phase := .swapping } ∧ t.mem = s.mem ∧
          (s.boot.restoredMode = m → t.log = s.log) ∧ (s.boot.restoredMode ≠ m → logs 0x0108 m 0 0 s t))) ∧
    (s.abort.held = 0 →
      let ended := fun (t : State) => t.boot.phase = .done ∧ get SYS_BOOT_STAT.DONE t = 1 ∧ get SYS_BOOT_STAT.HOST_WAIT t = 0 ∧
        t.seq.released = true ∧ t.seq.pc = BitVec.ofNat 32 s.boot.entry ∧ (∀ r, gr r t = 0) ∧ t.seq.sys.lvl = 0 ∧ get SYS_SEQ_STAT.STATE t = 1
      (s.boot.phase = .finishing → ∃ t, exec .bootDone s = .next t ∧ ended t ∧ raises 0x27 s t ∧ t.plan.active = s.plan.active) ∧
      (∀ n since, s.boot.phase = .swapping → s.plan.swap = some (n, since) → s.plan.running = true → s.now % 4096 = 4095 → since + 2 ≤ s.now + 1 →
        ∃ t, exec .bootDone s = .next t ∧ ended t ∧ t.plan.active = .slot n ∧ t.plan.swap = none ∧ t.now = s.now))

/-- R92, R105: a ledger write ends when its last line has been carried, with both copies as they stand; a newer generation that waited is written
next. CLEAR leaves both copies invalid and no write in progress (R93). R85, R106: PROG programs the word at SEC_OTP_ADDR in SERVICE mode, one at
a time, and is refused in every other mode and for a word that is not programmable; 100 µs later (±10 %) the word holds its old bits and those of
SEC_OTP_DATA, and no other word has changed. A 1 in bit 2 clears REFUSED. -/
def Obligations.LedgerAndOtpTakeTheirWrites : Prop :=
  (∀ (s : State),
    (∀ (w : LedgerWrite), s.boot.write = some w → w.lines = [] →
      ∃ t, exec .ledgerWriteDone s = .next t ∧ ledgerCopy 0 t = ledgerCopy 0 s ∧ ledgerCopy 1 t = ledgerCopy 1 s ∧ t.boot.newer = false ∧
        keepsFields [SYS_LEDGER.WRITING] s t ∧ t = { s with regs := t.regs, boot := t.boot } ∧
        (s.boot.newer = false → get SYS_LEDGER.WRITING t = 0 ∧ t.boot.write = none) ∧
        (s.boot.newer = true → get SYS_LEDGER.WRITING t = 1 ∧ ∃ w', t.boot.write = some w' ∧
          w'.copy = (match newestCopy s with | some k => 1 - k | none => 0) ∧ w'.bytes = (nextCopy s).bytes)) ∧
    ∃ t, exec .ledgerClear s = .next t ∧ ledgerCopy 0 t = none ∧ ledgerCopy 1 t = none ∧ t.boot.write = none ∧ t.boot.newer = false ∧
      get SYS_LEDGER.WRITING t = 0 ∧ keepsFields [SYS_LEDGER.WRITING] s t ∧ t = { s with regs := t.regs, boot := t.boot }) ∧
  (∀ (s : State),
    let w := get SEC_OTP_ADDR.WORD s
    (mode s = 7 → otpProgrammable w s = true → s.boot.otpBusy = none → ∃ t, exec (.otpProg 1) s = .next t ∧
      get SEC_OTP_CMD.BUSY t = 1 ∧ t.boot.otpBusy = some (w, get SEC_OTP_DATA.DATA s, s.now) ∧ keepsFields [SEC_OTP_CMD.BUSY] s t ∧
      t = { s with regs := t.regs, boot.otpBusy := t.boot.otpBusy }) ∧
    (mode s ≠ 7 ∨ otpProgrammable w s = false ∨ s.boot.otpBusy ≠ none → ∃ t, exec (.otpProg 1) s = .next t ∧
      get SEC_OTP_CMD.REFUSED t = 1 ∧ keepsFields [SEC_OTP_CMD.REFUSED] s t ∧ t = { s with regs := t.regs }) ∧
    (∃ t, exec (.otpProg 4) s = .next t ∧ get SEC_OTP_CMD.REFUSED t = 0 ∧ keepsFields [SEC_OTP_CMD.REFUSED] s t ∧ t = { s with regs := t.regs }) ∧
    (∀ w d since, s.boot.otpBusy = some (w, d, since) →
      (since + 92160 ≤ s.now → ∃ t, exec .otpProgDone s = .next t ∧
        otpWordNow w t = (otpWordNow w s ||| d) % 2 ^ 32 ∧ (∀ x, x ≠ w → otpWordNow x t = otpWordNow x s) ∧ get SEC_OTP_CMD.BUSY t = 0 ∧
        t.boot.otpBusy = none ∧ keepsFields [SEC_OTP_CMD.BUSY] s t ∧ t = { s with regs := t.regs, boot := t.boot }) ∧
      (s.now < since + 92160 → ∃ t, exec .otpProgDone s = .next t ∧ t = s)))

/-- R96, R97, R411, R543: presence ends when PRES_N rises and when SP1_CLK is silent for 10 ms, with fault 0x0B03 and the event HOST_ABSENT, and
the last executed frame is forgotten; ABSENT_POLICY IDLE and DOZE then wait for their rung. A host that is not present triggers nothing. A fall
of PRES_N starts the time after which SP1 is ungated. -/
def Obligations.PresenceFollowsItsPin : Prop :=
  ∀ (s : State),
    (s.boot.present = true →
      let ended := fun (cause : Nat) (t : State) => t.boot.present = false ∧ t.boot.synced = false ∧ get HFR_STAT.PRESENT t = 0 ∧
        logs 0x0B03 0 0 cause s t ∧ raises 0x3B s t ∧ t.hfr.last = none ∧ t.hfr.current = {} ∧ t.mem = s.mem
      (get SYS_BOOT_CFG.ABSENT_POLICY s = 0 →
        (∃ t, exec .presNRise s = .next t ∧ ended 1 t ∧ t.boot.presN = true ∧ t.boot.sp1Open = false ∧ t.pwr = s.pwr) ∧
        (s.sp.sp1Clock + 10240000 ≤ s.now → ∃ t, exec .hostAbsent s = .next t ∧ ended 0 t ∧ t.boot.sp1Open = s.boot.sp1Open ∧ t.pwr = s.pwr)) ∧
      (∀ p ∈ [1, 2], get SYS_BOOT_CFG.ABSENT_POLICY s = p →
        ∃ t, exec .presNRise s = .next t ∧ ended 1 t ∧ t.boot.presN = true ∧ t.pwr = { s.pwr with policy := some (p + 1) })) ∧
    (s.boot.present = false →
      (∃ t, exec .presNRise s = .next t ∧
        t = { s with boot := { s.boot with presN := true, presFall := none, sp1Open := false, synced := false } }) ∧
      ∃ t, exec .hostAbsent s = .next t ∧ t = s) ∧
    (s.pwr.fabricStopped = false → s.now < s.sp.sp1Clock + 10240000 → ∃ t, exec .hostAbsent s = .next t ∧ t = s) ∧
    (s.boot.presN = true → bit (get PWR_WAKE_EN.EN s) 2 = false → ∃ t, exec .presNFall s = .next t ∧
      t = { s with boot := { s.boot with presN := false, presFall := some s.now } }) ∧
    (s.boot.presN = false → ∃ t, exec .presNFall s = .next t ∧ t = s) ∧
    (∀ since, s.boot.presFall = some since → s.boot.presN = false → s.boot.sp1Open = false →
      (since + 921600 ≤ s.now → ∃ t, exec .sp1Ungate s = .next t ∧ t.boot = { s.boot with sp1Open := true, synced := false } ∧
        t.hfr.last = none ∧ t.regs = s.regs ∧ t.mem = s.mem) ∧
      (s.pwr.fabricStopped = false → s.now < since + 921600 → ∃ t, exec .sp1Ungate s = .next t ∧ t = s))

/-! ## The Avenue -/

/-- R110, R111: the Avenue sample of a raw code is the exact value ((x - 2048 - OFFSET / 16) × GAIN / 32768 + UTRIM / 16), rounded half away from
zero and clamped to -2048 to 2047; it is over-range when the code is 0 or 4095 or the clamp changed it. BEAT takes the beat whose slot this
is. -/
def Obligations.SamplesAreCorrectedAndBeatsTaken : Prop :=
  (∀ (s : State) (x sc input : Nat), x ≤ 4095 →
    let num : Int := (16 * ((x : Int) - 2048) - signed 16 (get (AVE_SC_OFFSET.OFFSET sc) s)) * (get (AVE_SC_GAIN.GAIN sc) s : Int) +
      signed 16 (app (AVE_CH_UTRIM.UTRIM input) s) * 32768
    let y := sampleOf x sc input s
    (-2048 ≤ y ∧ y ≤ 2047) ∧
    (overRange x sc input s = false → 0 ≤ num → 2 * num - 524288 < 2 * 524288 * y ∧ 2 * 524288 * y ≤ 2 * num + 524288) ∧
    (overRange x sc input s = false → num < 0 → 2 * num - 524288 ≤ 2 * 524288 * y ∧ 2 * 524288 * y < 2 * num + 524288) ∧
    (x = 0 ∨ x = 4095 → overRange x sc input s = true)) ∧
  ∀ (s : State) (codes ahead : List Nat),
    (s.tickOn = true → s.now % 2 = 0 → 40 ≤ s.now → s.ave.beat ≤ (s.now - 40) / 2 → converting s = true →
      isLate 1 0 s = false → ∃ t, exec (.beat codes ahead) s = .next t ∧ t.ave.beat = (s.now - 40) / 2 + 1) ∧
    (converting s = false ∨ s.now % 2 = 1 ∨ s.now < 40 ∨ s.tickOn = false ∨ (s.now - 40) / 2 < s.ave.beat →
      ∃ t, exec (.beat codes ahead) s = .next t ∧ t = s)

/-- R113, R114, R115: at its beat, in a NORMAL quarter with a ready spare and no hold, an attempt starts the overlap of the spare with the holder
of the target position. Sixteen beats later the spare holds that position, the other starts a calibration cycle and the target has moved on by
one; on a mismatch both keep their places, fault 0x0206 is logged and CANCELS counts. -/
def Obligations.HandoversOverlapThenSwitch : Prop :=
  ∀ (s : State) (q : Fin 4) (qt : Quarter), s.ave.quarters[q.val]? = some qt →
    (∀ inc out, qt.overlap = none → get (qState q) s = 0 → app AVE_ROT_CTRL.ROT_HOLD s = 0 →
      s.ave.beat % rotInterval s = q.val * rotInterval s / 4 →
      (spares q s).find? (fun sc => get (AVE_SC_STAT.STATE sc) s == 2) = some inc → qt.held.getD (targetPos q s) none = some out →
      ∃ t, exec (.handoverAttempt q) s = .next t ∧ get (AVE_SC_STAT.STATE inc) t = 3 ∧ get (AVE_SC_STAT.STATE out) t = 4 ∧
        t.ave.quarters[q.val]? = some { qt with overlap := some ⟨inc, out, targetPos q s, s.ave.beat, 0, 0⟩ } ∧
        (∀ p : Fin 4, p ≠ q → t.ave.quarters[p.val]? = s.ave.quarters[p.val]?) ∧
        keepsFields [AVE_SC_STAT.STATE inc, AVE_SC_STAT.STATE out] s t ∧ t = { s with regs := t.regs, ave.quarters := t.ave.quarters }) ∧
    ∀ o, qt.overlap = some o → o.start + 16 ≤ s.ave.beat → o.incoming / 17 = q → o.outgoing / 17 = q → o.incoming ≠ o.outgoing → o.pos < 16 →
      qt.held.length = 16 →
      let lim : Int := app AVE_FAIL_POLICY.MATCH_LIM s * o.count
      (o.sum ≤ lim → -lim ≤ o.sum → ∃ t, exec (.handoverSwitch q) s = .next t ∧ heldAt q o.pos t = some o.incoming ∧
        (∀ p, p ≠ o.pos → heldAt q p t = heldAt q p s) ∧ get (AVE_SC_STAT.STATE o.incoming) t = 0 ∧ get (AVE_SC_STAT.POS o.incoming) t = o.pos ∧
        get (AVE_SC_STAT.STATE o.outgoing) t = 1 ∧ targetPos q t = (o.pos + 1) % 16 ∧ t.log = s.log) ∧
      (lim < o.sum ∨ o.sum < -lim → get (AVE_SC_STAT.MISMATCH o.incoming) s < 2 → get (AVE_SC_STAT.MISMATCH o.outgoing) s < 2 →
        ∃ t, exec (.handoverSwitch q) s = .next t ∧ (∀ p, heldAt q p t = heldAt q p s) ∧ get (AVE_SC_STAT.STATE o.incoming) t = 2 ∧
        get (AVE_SC_STAT.STATE o.outgoing) t = 0 ∧ targetPos q t = (o.pos + 1) % 16 ∧
        get (AVE_SC_STAT.MISMATCH o.incoming) t = get (AVE_SC_STAT.MISMATCH o.incoming) s + 1 ∧
        get AVE_ROT_STAT.CANCELS t = Nat.min (get AVE_ROT_STAT.CANCELS s + 1) 65535 ∧ logs 0x0206 o.incoming 0 0 s t)

/-- R117: a calibration cycle that passes sets OFFSET, GAIN and SKEW from its means and the sub-converter is ready; a first cycle that fails
changes no trim, logs fault 0x0207 and is repeated. R118: a skew window of 2^20 samples stores the ratio of its sums in skew steps, valid from
the energy 2^30 up, and begins anew. R125, R126: FORCE_FAIL in SERVICE mode (cause 4) and the stuck-code watch (cause 1; another of its quarter
having changed its code) fail a sub-converter: MAPOUT and STATE FAILED are set, LANE_LOST is raised, and the quarter's spare holds its position
with its own trims. Outside SERVICE FORCE_FAIL changes nothing. -/
def Obligations.CalibrationAndFailureSetConverters : Prop :=
  (∀ (s : State) (sc : Fin 68) (sumLow sumHigh noiseLow noiseHigh : Nat) (c : Cal),
    let tr := calTrims sc sumLow sumHigh s
    let pass := -1024 ≤ tr.1 ∧ tr.1 ≤ 1024 ∧ 0x6000 ≤ tr.2.1 ∧ tr.2.1 ≤ 0xA000 ∧ noiseLow ≤ app AVE_FAIL_POLICY.NOISE_LIM s ∧
      noiseHigh ≤ app AVE_FAIL_POLICY.NOISE_LIM s ∧ -256 ≤ tr.2.2.1 ∧ tr.2.2.1 ≤ 255
    (∀ e, s.ave.cals.find? (fun c => c.1 == sc.val) = some (sc.val, c) → c.ends = some e → e ≤ s.ave.beat →
      (pass → c.reinstating = false → ∃ t, exec (.calibrationCycleEnd sc sumLow sumHigh noiseLow noiseHigh) s = .next t ∧
        get (AVE_SC_OFFSET.OFFSET sc) t = toBits 16 tr.1 ∧ get (AVE_SC_GAIN.GAIN sc) t = toBits 16 tr.2.1 ∧
        get (AVE_SC_SKEW.SKEW sc) t = toBits 10 tr.2.2.2 ∧ get (AVE_SC_STAT.STATE sc) t = 2 ∧
        get (AVE_SC_NOISE.NOISE sc) t = Nat.min (Nat.max noiseLow noiseHigh) 255 ∧ t.ave.cals.all (fun x => x.1 != sc.val) = true ∧
        t.log = s.log ∧
        keepsFields [AVE_SC_OFFSET.OFFSET sc, AVE_SC_GAIN.GAIN sc, AVE_SC_SKEW.SKEW sc, AVE_SC_STAT.STATE sc, AVE_SC_NOISE.NOISE sc] s t) ∧
      (¬ pass → c.second = false → ∃ t, exec (.calibrationCycleEnd sc sumLow sumHigh noiseLow noiseHigh) s = .next t ∧
        get (AVE_SC_OFFSET.OFFSET sc) t = get (AVE_SC_OFFSET.OFFSET sc) s ∧ get (AVE_SC_GAIN.GAIN sc) t = get (AVE_SC_GAIN.GAIN sc) s ∧
        get (AVE_SC_SKEW.SKEW sc) t = get (AVE_SC_SKEW.SKEW sc) s ∧ get (AVE_SC_STAT.STATE sc) t = 1 ∧
        (sc.val, (⟨none, true, c.reinstating⟩ : Cal)) ∈ t.ave.cals ∧ logs 0x0207 sc 0 0 s t)) ∧
    (∀ (n : Nat) (es : Int) (ss : Nat), s.ave.skew.find? (fun w => w.1 == sc.val) = some (sc.val, n, es, ss) →
      (2 ^ 20 ≤ n → ∃ t, exec (.skewWindowEnd sc) s = .next t ∧
        get (AVE_SC_SKEW_EST.EST sc) t = toBits 10 (clip (-512) 511 (Config.skewSteps (activeConfig s) es ss)) ∧
        get (AVE_SC_SKEW_EST.VALID sc) t = b2n (decide (2 ^ 30 ≤ ss)) ∧ t.ave.skew = s.ave.skew.filter (fun w => w.1 != sc.val) ∧
        keepsFields [AVE_SC_SKEW_EST.EST sc, AVE_SC_SKEW_EST.VALID sc] s t ∧ t = { s with regs := t.regs, ave.skew := t.ave.skew }) ∧
      (n < 2 ^ 20 → ∃ t, exec (.skewWindowEnd sc) s = .next t ∧ t = s))) ∧
  (∀ (s : State) (sc x p : Nat) (qt : Quarter), sc < 68 → posOf sc s = some p → s.ave.quarters[sc / 17]? = some qt → qt.overlap = none →
    (spares (sc / 17) s).head? = some x →
    let after := fun (cause : Nat) (t : State) => get (AVE_SC_CTRL.MAPOUT sc) t = 1 ∧ get (AVE_SC_STAT.STATE sc) t = 5 ∧
      get (AVE_SC_STAT.CAUSE sc) t = cause ∧ raises 0x28 s t ∧ heldAt (sc / 17) p t = some x ∧
      (∀ k, k ≠ p → heldAt (sc / 17) k t = heldAt (sc / 17) k s) ∧ get (AVE_SC_STAT.STATE x) t = 0 ∧ get (AVE_SC_STAT.POS x) t = p % 16 ∧
      get (AVE_SC_OFFSET.OFFSET x) t = get (AVE_SC_OFFSET.OFFSET x) s
    (get SYS_MODE.ACTIVE s = 7 → get (AVE_SC_STAT.STATE sc) s ≠ 5 → ∃ t, exec (.forceFail sc) s = .next t ∧ after 4 t) ∧
    (get SYS_MODE.ACTIVE s ≠ 7 → ∃ t, exec (.forceFail sc) s = .next t ∧ t = s) ∧
    (∀ code n f, s.ave.stuck.find? (fun w => w.1 == sc) = some (sc, code, n, f) → stuckLen s ≤ n → code ≠ 0 → code ≠ 4095 →
      s.ave.stuck.any (fun w => w.1 / 17 == sc / 17 && w.1 != sc && decide (w.2.2.1 < stuckLen s) && !w.2.2.2) = true →
      ∃ t, exec (.stuckWatch sc) s = .next t ∧ after 1 t))

/-- R131, R134, R135: a 1 written to MAPOUT in SERVICE mode is kept for the next beat; REINSTATE of a failed sub-converter clears MAPOUT and
starts its calibration cycle; a trim write reaches an off-duty sub-converter at once, and outside SERVICE is dropped with TRIM_REFUSED for one on
duty. R121: the phase advances by STEP when the record count asks for it, and settles for 32 slots. -/
def Obligations.AvenueCommandsAct : Prop :=
  ∀ (s : State) (sc : Fin 68),
    (get SYS_MODE.ACTIVE s = 7 → get (AVE_SC_STAT.STATE sc) s ≠ 5 → s.ave.mapouts.contains sc.val = false →
      ∃ t, exec (.mapoutWrite sc 1) s = .next t ∧ t = { s with ave.mapouts := s.ave.mapouts ++ [sc.val] }) ∧
    (get SYS_MODE.ACTIVE s ≠ 7 → ∃ t, exec (.mapoutWrite sc 1) s = .next t ∧ t = s) ∧
    (∃ t, exec (.mapoutWrite sc 0) s = .next t ∧ t = set (AVE_SC_CTRL.MAPOUT sc) 0 s) ∧
    (get (AVE_SC_STAT.STATE sc) s = 5 → ∃ t, exec (.reinstate sc) s = .next t ∧ get (AVE_SC_CTRL.MAPOUT sc) t = 0 ∧
      get (AVE_SC_STAT.STATE sc) t = 1 ∧ (sc.val, (⟨none, false, true⟩ : Cal)) ∈ t.ave.cals ∧
      keepsFields [AVE_SC_CTRL.MAPOUT sc, AVE_SC_STAT.STATE sc, AVE_SC_STAT.CAUSE sc, AVE_SC_STAT.MISMATCH sc] s t ∧
      t = { s with regs := t.regs, ave := t.ave }) ∧
    (∀ v : Nat, (posOf sc s).isNone = true →
      (∃ t, exec (.trimWrite (0x40100008 + 0x100 * sc) v) s = .next t ∧ t = set (AVE_SC_OFFSET.OFFSET sc) v s) ∧
      (∃ t, exec (.trimWrite (0x4010000C + 0x100 * sc) v) s = .next t ∧ t = set (AVE_SC_GAIN.GAIN sc) v s) ∧
      ∃ t, exec (.trimWrite (0x40100010 + 0x100 * sc) v) s = .next t ∧ t = set (AVE_SC_SKEW.SKEW sc) v s) ∧
    (∀ v : Nat, (posOf sc s).isSome = true → get SYS_MODE.ACTIVE s ≠ 7 → ∃ t, exec (.trimWrite (0x40100008 + 0x100 * sc) v) s = .next t ∧
      t = set AVE_STAT.TRIM_REFUSED 1 s) ∧
    (etDue s = true → sampling s = false →
      let p := (s.ave.phase + app AVE_ET_CTRL.STEP s) % phaseRange (activeConfig s)
      ∃ t, exec .etPhaseAdvance s = .next t ∧ t.ave.phase = p ∧ get AVE_ET_STAT.COUNT t = 0 ∧ t.ave.phaseRecs = 0 ∧
        (p ≠ s.ave.phase → t.ave.settling = s.now + 32) ∧ keepsFields [AVE_ET_STAT.COUNT] s t ∧
        t = { s with regs := t.regs, ave := t.ave }) ∧
    (etDue s = false ∨ sampling s = true → ∃ t, exec .etPhaseAdvance s = .next t ∧ t = s)

/-! ## The trigger -/

/-- R171: a write of TRG_SW gives an enabled SOFTWARE unit a condition at the first sample of the next beat to reach the Avenue, and nothing to
any other unit. R168: an edge of TRIG_IN in the SLOPE direction gives an EXTERNAL unit a condition at the edge's time less its deskew (corrected
times lie on the grid of R6). R166, R167, R187: a field result that is due counts a frame when it is a frame start, and is a condition of an
enabled SERIAL unit of that decoder which it matches. -/
def Obligations.ConditionsReachTheirUnits : Prop :=
  (∀ (s : State) (n : Fin 4),
    let b := (beatAfter s.now).toNat
    (unitOn n s = true → app (TRG_CTRL.TYPE n) s = 11 → ∃ t, exec (.trgSw (2 ^ n.val)) s = .next t ∧
      t = { s with trg.hits := s.trg.hits ++ [⟨n, 2 * b + 52, sampleTime b 0 s, onGrid (sampleTime b 0 s) s, .cond⟩] }) ∧
    (unitOn n s = false ∨ app (TRG_CTRL.TYPE n) s ≠ 11 → ∃ t, exec (.trgSw (2 ^ n.val)) s = .next t ∧ t = s) ∧
    ∀ (rising : Bool) (time : Int), unitOn n s = true → app (TRG_CTRL.TYPE n) s = 8 →
      app (TRG_CTRL.SLOPE n) s = 2 ∨ app (TRG_CTRL.SLOPE n) s = (if rising then 0 else 1) →
      ∃ t h, exec (.trigInEdge rising time) s = .next t ∧ h ∈ t.trg.hits ∧ h.unit = n ∧ h.raw = 1024 * time ∧
        h.time = onGrid (1024 * time - deskew 4 s) s ∧ h.kind = .cond ∧ t.trg.trigIn = rising ∧ t.regs = s.regs) ∧
  (∀ (s : State) (r : FieldResult), s.trg.results = [r] → r.due ≤ s.now → isLate 4 r.dec s = false → r.field = 0 → r.dec < 4 → s.trg.units.length = 4 →
    get (DEC_STAT.FRAMES r.dec) s < 1000 →
    (∃ t, exec .fieldResult s = .next t ∧ t.trg.results = [] ∧ get (DEC_STAT.FRAMES r.dec) t = get (DEC_STAT.FRAMES r.dec) s + 1) ∧
    ∀ n : Fin 4, unitOn n s = true → app (TRG_CTRL.TYPE n) s = 7 → app (TRG_CTRL.SRC n) s = r.dec → specOwn n s = false →
      serialMatch n r s = true →
      ∃ t, exec .fieldResult s = .next t ∧ ⟨n, s.now, r.time, onGrid r.time s, .cond⟩ ∈ t.trg.hits)

/-- R157, R161, R180: a time holdoff that has run out is cleared; a candidate older than the horizon is abandoned; an abort of a unit clears its
ENABLE, its holdoff, detection and sequence state, drops what it would have offered, sets ABORTED and logs fault 0x0302. R170, R440: a slot
without a timer instant raises the TIMER event of instants decided in it; an instant is decided 52 slots after its beat. R177: a pulse of
TRIG_OUT whose start lies in the slot ends WIDTH slots later, or extends the one that runs, and ends in the slot that holds its end. R178: a fire
or confirm that is due raises its unit's event. -/
def Obligations.UnitsTimersAndPulsesEndInTime : Prop :=
  (∀ (s : State) (n : Fin 4), s.trg.units.length = 4 →
    (∀ x, (unitOf n s).holdUntil = some x → x ≤ nowLsb s → ∃ t, exec (.holdoffEnd n) s = .next t ∧
      unitOf n t = { unitOf n s with holdUntil := none, holdFloor := some x } ∧ (∀ k : Fin 4, k ≠ n → unitOf k t = unitOf k s) ∧
      t = { s with trg.units := t.trg.units }) ∧
    (∀ c, (unitOf n s).cands = [c] → c < nowLsb s - (horizonBeats (activeConfig s) : Int) * 524288 → s.trg.hits = [] →
      ∃ t, exec (.candidateHorizon n) s = .next t ∧ unitOf n t = { unitOf n s with cands := [] } ∧
        (∀ r, provOf n c s = some r → get REC_PROV_ABANDONED.COUNT t = (get REC_PROV_ABANDONED.COUNT s + 1) % 2 ^ 32 ∧
          t.record.recs = s.record.recs.filter (fun x => x.id != r.id))) ∧
    ∃ t, exec (.trgAbort (2 ^ n.val)) s = .next t ∧ get (TRG_CTRL.ENABLE n) t = 0 ∧ com (TRG_CTRL.ENABLE n) t = 0 ∧
      app (TRG_CTRL.ENABLE n) t = 0 ∧ get (TRG_STAT.ABORTED n) t = 1 ∧ unitOf n t = {} ∧ t.trg.hits = s.trg.hits.filter (fun h => h.unit != n.val) ∧
      (∀ k : Fin 4, k ≠ n → unitOf k t = unitOf k s ∧ app (TRG_CTRL.ENABLE k) t = app (TRG_CTRL.ENABLE k) s) ∧ logs 0x0302 n 0 0 s t) ∧
  (∀ (s : State),
    (s.tickOn = true → s.pwr.fabricStopped = false → s.trg.timerSlot ≤ s.now → instantsNow s = [] →
      (∀ d ∈ s.trg.timerDue, d ≤ s.now) → s.trg.timerDue ≠ [] →
      ∃ t, exec .timerInstant s = .next t ∧ raises 0xD0 s t ∧ t.trg.timerDue = [] ∧ t.trg.timerSlot = s.now + 1 ∧ t.regs = s.regs) ∧
    (∀ i, s.tickOn = true → s.pwr.fabricStopped = false → s.trg.timerSlot ≤ s.now → instantsNow s = [i] → s.trg.timerDue = [] →
      ∃ t, exec .timerInstant s = .next t ∧ t.trg.timerDue = [2 * (s.now / 2) + 52] ∧ t.trg.timerSlot = s.now + 1) ∧
    (∀ x, s.trg.outStart = [x] → x < 4 * (s.now + 1) → ∃ t, exec .trigOutPulseStart s = .next t ∧ t.trg.outStart = [] ∧
      (let e := x + 4 * Nat.max 1 (app TRG_OUT_CFG.WIDTH s)
       t.trg.outEnd = some (match s.trg.outEnd with | some y => Nat.max y e | none => e)) ∧
      t = { s with trg.outStart := t.trg.outStart, trg.outEnd := t.trg.outEnd }) ∧
    (∀ e, s.trg.outEnd = some e → e < 4 * (s.now + 1) → ∃ t, exec .trigOutPulseEnd s = .next t ∧ t = { s with trg.outEnd := none }) ∧
    (∀ d, s.trg.deliveries = [d] → d.due ≤ s.now → (d.candidate = false ∨ d.confirm = true) → d.unit < 4 → ∃ t, exec .fireDelivery s = .next t ∧
      raises (1 + d.unit) s t ∧ t.trg.deliveries = []))

/-- R172, R176, R191: the one condition that is due, of a unit without holdoff, sequencing or candidates, is offered and counted; the armed
record takes it as its fire at the condition's time, and the fire is delivered 8 slots later; with no record armed it is discarded and
counted. -/
def Obligations.DecisionsFindTheirRecord : Prop :=
  ∀ (s : State) (n : Fin 4) (slot : Nat) (raw time : Int), s.trg.units.length = 4 →
    s.trg.hits = [⟨n, slot, raw, time, .cond⟩] → slot ≤ s.now → isLate 2 n s = false → isLate 3 n s = false → (∀ k < 4, app (TRG_SEQ.EN k) s = 0) → app (TRG_CTRL.ROLE n) s = 0 →
    (unitOf n s).holdUntil = none → (∀ x, (unitOf n s).holdFloor = some x → x ≤ time) → (unitOf n s).holdCount = 0 → app (TRG_HOLDOFF_HI.EN n) s = 0 → s.trg.cof = none → s.record.place = 0 →
    get SYS_MODE.ACTIVE s = 0 → awake s = true →
    (∀ r, s.record.recs = [r] → r.phase = .armed → heldFor 4 s = 0 → r.armBeat ≤ trigBeat time r.gen.offset - r.gen.pre →
      avenueBeat s.now < trigBeat time r.gen.offset - r.gen.pre + r.gen.length - 1 →
      ∃ t r', exec .triggerDecision s = .next t ∧ t.record.recs = [r'] ∧ r'.phase = .capturing ∧ r'.id = r.id ∧ r'.unit = n ∧ r'.time = time ∧
        r'.first = trigBeat time r.gen.offset - r.gen.pre ∧ r'.last = r'.first + r.gen.length - 1 ∧ t.trg.hits = [] ∧
        t.trg.deliveries = s.trg.deliveries ++ [⟨n, s.now + 8, time, false, false, s.now⟩]) ∧
    (s.record.recs = [] → get (TRG_COUNT.OFFERED n) s < 1000 → get (TRG_COUNT.DISCARDED n) s < 1000 →
      ∃ t, exec .triggerDecision s = .next t ∧ t.record.recs = [] ∧ t.trg.hits = [] ∧ t.trg.deliveries = s.trg.deliveries ∧
        get (TRG_COUNT.OFFERED n) t = get (TRG_COUNT.OFFERED n) s + 1 ∧ get (TRG_COUNT.DISCARDED n) t = get (TRG_COUNT.DISCARDED n) s + 1)

/-! ## Records -/

/-- R188, R216, R260: START in SLOT placement makes the engine run from this slot with sequence numbers from 0; in CONTINUOUS placement its
streams start with the first beat after the slot, or at the next period boundary when a ring lies in the Square. STOP stops at once with no
record open, else when the open ones are done. R217: REARM drops an armed record and arms anew, unless a hold keeps it. R197: REC_RELEASE frees
the ring slots up to its number. R206: POP moves the oldest descriptor to REC_CQ_OUT, or zeros. -/
def Obligations.EngineRunsReleasesAndPops : Prop :=
  (∀ (s : State), com ERL_NET.ARM_EN s = 0 → get SYS_MODE.ACTIVE s = 0 →
    (s.record.running = false → blvHold s = false →
      (com REC_CFG.PLACE s = 0 → ∃ t, exec .start s = .next t ∧ t.record.running = true ∧ t.record.stopping = false ∧ t.record.place = 0 ∧
        t.record.startDue = some s.now ∧ t.record.recs = s.record.recs ∧ get REC_SEQ.NEXT t = 0 ∧ t.mem = s.mem) ∧
      (com REC_CFG.PLACE s = 1 → awake s = true →
        let sq := (List.range 8).any (fun i => bit (com REC_CFG.STREAMS s) i &&
          inSquare (com (REC_RING_BASE_LO.ADDR i) s * 64 + com (REC_RING_BASE_HI.ADDR i) s * 2 ^ 32))
        ∃ t, exec .start s = .next t ∧ t.record.running = true ∧ t.record.place = 1 ∧ t.applied = s.committed ∧
          t.record.startDue = some (if sq then boundaryAfter s 2 else s.now) ∧ t.record.recs = s.record.recs ∧ t.mem = s.mem)) ∧
    (s.record.running = true → ∃ t, exec .start s = .next t ∧ t = s) ∧
    (s.record.running = true → s.record.startWaits = false → s.record.place = 0 → s.record.recs = [] →
      ∃ t, exec .stop s = .next t ∧ t.record.running = false ∧ t.record.startDue = none ∧ t.regs = s.regs ∧ t.mem = s.mem) ∧
    (∀ r, s.record.running = true → s.record.startWaits = false → s.record.place = 0 → s.record.recs = [r] → r.phase ≠ .armed →
      ∃ t, exec .stop s = .next t ∧ t.record.running = true ∧ t.record.stopping = true ∧ t.record.recs = [r] ∧ t.mem = s.mem) ∧
    (∀ r, s.record.place = 0 → armed s = some r → get SQ_PLAN_STAT.MARGIN_STOP s = 1 → ∃ t, exec .rearm s = .next t ∧
      t.record.recs = s.record.recs.filter (fun x => x.id != r.id) ∧ t = { s with record := t.record }) ∧
    (∀ r, s.record.place = 0 → s.record.recs = [r] → r.phase = .armed → heldFor 4 { s with record.recs := [] } = 0 → awake s = true →
      s.record.startDue.getD 0 ≤ s.now → com REC_CFG.PLACE s = 0 → etDue s = false → com AVE_ET_CTRL.PHASE s = s.ave.phaseBase →
      s.ave.settling ≤ s.now → ∃ t r', exec .rearm s = .next t ∧ t.record.recs = [r'] ∧ r'.phase = .armed ∧ r'.id = s.record.nextId ∧
        r'.armBeat = beatAfter s.now ∧ t.mem = s.mem)) ∧
  (∀ (s : State),
    (∀ v < 2 ^ 32, ∃ t, exec (.recRelease v) s = .next t ∧ get REC_RELEASE.SEQ t = v ∧
      (∀ x ∈ s.record.slots, if (v + 2 ^ 32 - x.seq) % 2 ^ 32 < 2 ^ 31 then { x with released := true } ∈ t.record.slots else x ∈ t.record.slots) ∧
      t.record.slots.length = s.record.slots.length ∧ keepsFields [REC_RELEASE.SEQ] s t ∧
      t = { s with regs := t.regs, record.slots := t.record.slots }) ∧
    (∀ a b c d rest, s.record.queue = [a, b, c, d] :: rest → ∃ t, exec .pop s = .next t ∧ t.record.queue = rest ∧
      get (REC_CQ_OUT.WORD 0) t = a % 2 ^ 32 ∧ get (REC_CQ_OUT.WORD 1) t = b % 2 ^ 32 ∧ get (REC_CQ_OUT.WORD 2) t = c % 2 ^ 32 ∧
      get (REC_CQ_OUT.WORD 3) t = d % 2 ^ 32 ∧ t = { s with regs := t.regs, record.queue := rest }) ∧
    (s.record.queue = [] → ∃ t, exec .pop s = .next t ∧ (∀ i < 4, get (REC_CQ_OUT.WORD i) t = 0) ∧ t = { s with regs := t.regs }))

/-- R190, R195, R196: windows whose last beat is on the Avenue are complete; a record whose header is ready takes the next sequence number; a
numbered record whose header and lines an earlier slot has written commits: its descriptor joins the queue and REC_COMMIT is raised. -/
def Obligations.RecordsEndAreNumberedAndCommit : Prop :=
  ∀ (s : State),
    (∀ r ∈ s.record.recs, ∃ t, exec .recordEnd s = .next t ∧
      (r.phase = .capturing → r.ended = false → 2 * r.last + 40 ≤ (s.now : Int) → { r with ended := true, queued := r.confirmed } ∈ t.record.recs) ∧
      (r.phase ≠ .capturing ∨ r.ended = true ∨ (s.now : Int) < 2 * r.last + 40 → r ∈ t.record.recs) ∧ t = { s with record := t.record }) ∧
    (∀ r, s.record.recs = [r] → wantsNumber s.now r = true → r.mu ≠ [] → ∃ t r', exec .headerReady s = .next t ∧ t.record.recs = [r'] ∧
      r'.phase = .numbered ∧ r'.seq = get REC_SEQ.NEXT s ∧ r'.time = r.time ∧ get REC_SEQ.NEXT t = (get REC_SEQ.NEXT s + 1) % 2 ^ 32 ∧
      keepsFields [REC_SEQ.NEXT] s t ∧ t.mem = s.mem) ∧
    (∀ r, s.record.recs = [r] → r.phase = .numbered → r.complete = true → r.segLast = false → bit r.flags 4 = false →
      ∃ t, exec .recordCommit s = .next t ∧ t.record.recs = [] ∧ t.record.queue = s.record.queue ++ [descriptorOf r] ∧ raises 0x08 s t ∧
        t.mem = s.mem)

/-- R211, R214: a commit takes every staged Kept field and advances GEN, and EPOCH without CARRY; one whose settings fail a check changes no
committed field and sets REFUSED with cause 2, and a CARRY of an epoch-breaking change with cause 1. R191, R212, R213: an arm in SLOT placement
takes the newest committed generation into force and the ring slot that is next, and is armed from the next beat to reach the Avenue. -/
def Obligations.CommitsAndArmsTakeSettings : Prop :=
  (∀ (s : State),
    (commitInvalid (keptPart s.regs) s = false → ∃ t, exec (.commit 1) s = .next t ∧ t.committed = keptPart s.regs ∧
      get REC_GEN.GEN t = (get REC_GEN.GEN s + 1) % 2 ^ 16 ∧ get REC_EPOCH.EPOCH t = (get REC_EPOCH.EPOCH s + 1) % 2 ^ 16 ∧
      t.applied = s.applied ∧ t.mem = s.mem) ∧
    (commitInvalid (keptPart s.regs) s = true → ∃ t, exec (.commit 1) s = .next t ∧ t.committed = s.committed ∧
      get REC_EPOCH.REFUSED t = 1 ∧ get REC_EPOCH.CAUSE t = 2 ∧ get REC_GEN.GEN t = get REC_GEN.GEN s ∧ t.applied = s.applied ∧ t.mem = s.mem) ∧
    (carryBreaks s = true → ∃ t, exec (.commit 3) s = .next t ∧ t.committed = s.committed ∧ get REC_EPOCH.REFUSED t = 1 ∧
      get REC_EPOCH.CAUSE t = 1 ∧ get REC_GEN.GEN t = get REC_GEN.GEN s ∧ logs 0x0403 0 0 1 s t)) ∧
  (∀ (s : State), s.record.place = 0 → s.record.armDue ≤ s.now → s.record.recs = [] → heldFor 4 s = 0 → com REC_CFG.PLACE s = 0 → awake s = true →
    get SYS_MODE.ACTIVE s = 0 → etDue s = false → s.record.startDue.getD 0 ≤ s.now → com AVE_ET_CTRL.PHASE s = s.ave.phaseBase →
    s.ave.settling ≤ s.now →
    ∃ t r, exec .recordArm s = .next t ∧ t.record.recs = [r] ∧ r.phase = .armed ∧ r.gen.gen = get REC_GEN.GEN s ∧
      r.gen.epoch = get REC_EPOCH.EPOCH s ∧ r.gen.length = com REC_LEN.LENGTH s ∧ r.gen.pre = com REC_PRE.PRE s ∧
      r.gen.streams = com REC_CFG.STREAMS s ∧ r.pos = s.record.nextPos % Nat.max 1 (com REC_RING_LEN.LEN s) ∧ r.armBeat = ((s.now : Int) - 40) / 2 + 1 ∧
      t.applied = s.committed ∧ get REC_GEN.APPLIED t = get REC_GEN.GEN s % 2 ^ 16 ∧ t.committed = s.committed ∧ t.mem = s.mem)

/-! ## Reduction and measurement -/

/-- R233: RESTART asks the unit to restart its array. R224: reduction values that are due have left their delay. R239: a pass starts when none
runs and its claims exist, shows itself in PASS, and ends when no line is left. R250: TAKE copies the statistics of all units to their
registers. -/
def Obligations.ReductionCommandsAct : Prop :=
  ∀ (s : State),
    (∀ n < s.red.aus.length, ∃ t, exec (.restart n) s = .next t ∧ auOf n t = { auOf n s with restartAsked := true } ∧
      (∀ k, k ≠ n → auOf k t = auOf k s) ∧ t = { s with red.aus := t.red.aus }) ∧
    (∀ n < s.red.outs.length, ∃ t, exec (.reductionValueDelivery n) s = .next t ∧
      (outOf n t).due = (outOf n s).due.filter (fun d => s.now < d.slot)) ∧
    (∀ k rest, s.red.per.pass = none → s.red.per.waiting = k :: rest → s.red.per.noClaims = false → ∃ t, exec .persistencePassStart s = .next t ∧
      t.red.per.pass = some (k, (passLines k).length) ∧ t.red.per.waiting = rest ∧ get RED_PER_STAT.PASS t ≠ 0 ∧
      keepsFields [RED_PER_STAT.PASS] s t ∧ t.mem = s.mem) ∧
    (∀ k, s.red.per.pass = some (k, 0) → ∃ t, exec .persistencePassEnd s = .next t ∧ t.red.per.pass = none ∧ get RED_PER_STAT.PASS t = 0 ∧
      keepsFields [RED_PER_STAT.PASS] s t ∧ t.mem = s.mem) ∧
    ∃ t, exec .take s = .next t ∧ (∀ n : Fin 16, get (MU_ST_N.N n) t = (nth s.red.stats n {}).n % 2 ^ 32 ∧
      get (MU_ST_MIN.VALUE n) t = (nth s.red.stats n {}).mn % 2 ^ 32 ∧ get (MU_ST_MAX.VALUE n) t = (nth s.red.stats n {}).mx % 2 ^ 32 ∧
      get (MU_ST_MEAN.VALUE n) t = (nth s.red.stats n {}).mean % 2 ^ 32 ∧ get (MU_ST_SD.VALUE n) t = statSd (nth s.red.stats n {}) % 2 ^ 32 ∧
      get (MU_ST_NAN.NANS n) t = (nth s.red.stats n {}).nans % 2 ^ 32 ∧ get (MU_ST_EPOCH.EPOCH n) t = (nth s.red.stats n {}).epoch % 2 ^ 16) ∧
      t = { s with regs := t.regs }

/-! ## The Boulevard and the Roundabout -/

/-- R273, R274: training ends 5.400 ms after reset release, and its repeat 2.680 ms later. The first one reports the smaller DENSITY, with fault
0x0607 when the channels differ. One that ends well sets UP; one that fails is repeated once, and then sets INIT_FAIL with fault 0x0608. -/
def Obligations.TrainingEndsUpOrFails : Prop :=
  ∀ (s : State) (ok : Bool) (a b : Nat), a < 8 → b < 8 →
    (s.memory.training = true → trainingDue s = true →
      let reported := fun (t : State) => get BLV_STAT.DENSITY t = Nat.min a b ∧ (a ≠ b → get BLV_STAT.DENS_MISMATCH t = 1)
      (s.record.startWaits = false → s.memory.blvTries = 0 → ∃ t, exec (.boulevardTrainingEnd true [a, b]) s = .next t ∧ get BLV_STAT.UP t = 1 ∧
        get BLV_STAT.INIT_FAIL t = 0 ∧ reported t ∧ t.memory.training = false ∧ t.mem = s.mem ∧ (a = b → t.log = s.log) ∧
        (a ≠ b → logs 0x0607 0 0 0 s t)) ∧
      (s.record.startWaits = false → s.memory.blvTries ≠ 0 → ∃ t, exec (.boulevardTrainingEnd true [a, b]) s = .next t ∧
        get BLV_STAT.UP t = 1 ∧ get BLV_STAT.INIT_FAIL t = 0 ∧ get BLV_STAT.DENSITY t = get BLV_STAT.DENSITY s ∧ t.log = s.log ∧
        t.memory.training = false ∧ t.mem = s.mem) ∧
      (s.memory.blvTries = 0 → ∃ t, exec (.boulevardTrainingEnd false [a, b]) s = .next t ∧ reported t ∧ t.memory.training = true ∧
        t.memory.trainDue = s.memory.trainDue + 2744320 ∧ t.memory.blvTries = 1 ∧ get BLV_STAT.UP t = get BLV_STAT.UP s ∧ t.mem = s.mem) ∧
      (s.memory.blvTries ≠ 0 → ∃ t, exec (.boulevardTrainingEnd false [a, b]) s = .next t ∧ get BLV_STAT.INIT_FAIL t = 1 ∧
        get BLV_STAT.UP t = get BLV_STAT.UP s ∧ t.memory.training = false ∧ logs 0x0608 0 0 0 s t ∧ t.mem = s.mem)) ∧
    (s.memory.training = false ∨ trainingDue s = false → ∃ t, exec (.boulevardTrainingEnd ok [a, b]) s = .next t ∧ t = s)

/-- R290, R307: START makes an idle channel fetch the descriptor at DMA_CH_DESC and is dropped with BUSY_WR on an active one; a descriptor that
keeps the rules of R290 is taken up, and one that does not halts the channel with ERR 1 and fault 0x0701. -/
def Obligations.ChannelsStartAndLoadDescriptors : Prop :=
  ∀ (s : State) (n : Fin 32), s.dma.chans.length = 32 →
    ((chOf n s).active = false → get (DMA_CH_PACE.MODE n) s ≠ 2 → get (DMA_CH_CTRL.DSRC n) s = 0 → memLine (descAddr n s) s = true →
      ∃ t, exec (.dmaStart n) s = .next t ∧ chOf n t = { active := true, fetch := some (descAddr n s) } ∧
        (∀ k : Fin 32, k ≠ n → chOf k t = chOf k s) ∧ get (DMA_CH_STAT.STATE n) t = 1 ∧ get (DMA_CH_STAT.ERR n) t = 0 ∧
        t = { s with regs := t.regs, dma := t.dma }) ∧
    ((chOf n s).active = true → ∃ t, exec (.dmaStart n) s = .next t ∧ t = set (DMA_CH_STAT.BUSY_WR n) 1 s) ∧
    ∀ f, dueFlights n s = [f] → f.fenced = false → f.bad = false → (chOf n s).active = true → (chOf n s).fetchIssued = true →
      (chOf n s).aborting = none → get (DMA_CH_CTRL.DSRC n) s = 0 →
      (descOk f.data (descOf f.data) s = true → (descOf f.data).skind ≠ 1 → ∃ t, exec (.descriptorLoaded n) s = .next t ∧
        (chOf n t).desc = some (descOf f.data) ∧ (chOf n t).fetch = none ∧ (chOf n t).reads = 0 ∧ (chOf n t).writes = 0 ∧
        (chOf n t).total = (descOf f.data).slen * (descOf f.data).scnt / 64 ∧ (∀ k : Fin 32, k ≠ n → chOf k t = chOf k s) ∧ t.mem = s.mem) ∧
      (descOk f.data (descOf f.data) s = false → ∃ t, exec (.descriptorLoaded n) s = .next t ∧ (chOf n t).active = false ∧
        get (DMA_CH_STAT.STATE n) t = 4 ∧ get (DMA_CH_STAT.ERR n) t = 1 ∧ logs 0x0701 n 0 0 s t ∧ (∀ k : Fin 32, k ≠ n → chOf k t = chOf k s) ∧
        t.mem = s.mem)

/-- R282, R285: a line that is due enters its channel's staging; a staged line of four slots leaves for the SP1 FIFO while that has room. R291,
R305, R307: the last descriptor of a chain ends its channel with TAG; another one has its successor fetched. An abort stops the channel's
accesses, and once no read is on its way discards its staging with fault 0x0702. A write to a channel register of an idle channel waits for the
next slot, and to that of an active one is dropped with BUSY_WR. -/
def Obligations.ChannelsMoveLinesEndAndAbort : Prop :=
  (∀ (s : State) (n : Fin 32), s.dma.chans.length = 32 →
    (∀ f, (chOf n s).fetchIssued = false → dueFlights n s = [f] → f.fenced = false → f.bad = false →
      ∃ t, exec (.dmaLineArrival n) s = .next t ∧ (chOf n t).staged = (chOf n s).staged ++ [⟨s.now, f.data⟩] ∧
        (chOf n t).inFlight = (chOf n s).inFlight - 1 ∧ (∀ k : Fin 32, k ≠ n → chOf k t = chOf k s) ∧ dueFlights n t = [] ∧ t.mem = s.mem) ∧
    ∀ l rest, (chOf n s).staged = l :: rest → (chOf n s).active = true → (chOf n s).aborting = none → l.arrived + 4 ≤ s.now →
      (chDest (chOf n s)).1 = 1 → s.dma.fifo.length < 64 → ∃ t, exec (.dmaPortLineOut n) s = .next t ∧ t.dma.fifo = s.dma.fifo ++ [l.data] ∧
        (chOf n t).staged = rest ∧ (chOf n t).writes = (chOf n s).writes + 1 ∧ (∀ k : Fin 32, k ≠ n → chOf k t = chOf k s) ∧ t.mem = s.mem) ∧
  (∀ (s : State) (n : Fin 32), s.dma.chans.length = 32 →
    (∀ d, (chOf n s).active = true → (chOf n s).aborting = none → (chOf n s).desc = some d → d.skind < 3 → d.dkind < 3 →
      (chOf n s).total ≤ (chOf n s).writes → (chOf n s).staged = [] → (chOf n s).haltAtEnd = false → d.cnt = false →
      (d.last = true → ∃ t, exec (.dmaDescriptorComplete n) s = .next t ∧ (chOf n t).active = false ∧ get (DMA_CH_STAT.STATE n) t = 0 ∧
        get (DMA_CH_TAG.TAG n) t = d.tag % 2 ^ 32 ∧ (d.pulse = true → raises (0x40 + n) s t) ∧ t.mem = s.mem) ∧
      (d.last = false → ∃ t, exec (.dmaDescriptorComplete n) s = .next t ∧ (chOf n t).active = true ∧ (chOf n t).desc = none ∧
        (chOf n t).fetch = some d.next ∧ get (DMA_CH_TAG.TAG n) t = d.tag % 2 ^ 32 ∧ t.mem = s.mem)) ∧
    ((chOf n s).active = true → (chOf n s).aborting = none → ∃ t, exec (.dmaAbort n) s = .next t ∧
      chOf n t = { chOf n s with aborting := some s.now } ∧ (∀ k : Fin 32, k ≠ n → chOf k t = chOf k s) ∧ t = { s with dma := t.dma }) ∧
    ((chOf n s).aborting ≠ none → s.memory.flight = [] → s.memory.reading = [] → ∃ t, exec (.dmaAbortComplete n) s = .next t ∧ (chOf n t).active = false ∧
      (chOf n t).staged = [] ∧ get (DMA_CH_STAT.STATE n) t = 5 ∧ logs 0x0702 n 0 0 s t ∧ t.mem = s.mem) ∧
    ∀ v : Nat, ((chOf n s).active = true → ∃ t, exec (.dmaChRegWrite (0x40700010 + 0x40 * n) v) s = .next t ∧
        t = set (DMA_CH_STAT.BUSY_WR n) 1 s) ∧
      ((chOf n s).active = false → s.plan.running = true → ∃ t, exec (.dmaChRegWrite (0x40700010 + 0x40 * n) v) s = .next t ∧
        t = { s with evt.later := s.evt.later ++ [(0x40700010 + 0x40 * n.val, v)] }) ∧
      ((chOf n s).active = false → s.plan.running = false → ∃ t, exec (.dmaChRegWrite (0x40700010 + 0x40 * n) v) s = .next t ∧
        t = set (DMA_CH_COUNT.COUNT n) v s))

/-! ## The Tramlines -/

/-- R310, R313, R314, R323: the events of a slot are delivered in a later one: they arrive at every stop whose mask holds their line, and the
line is seen; at the end of the slot a stop's counter is its count with the arrivals and less what its task used, at most 15, beyond which
OVERRUN is set. A task of the host stop uses one count in a slot and sets its attention; a paced channel takes a count of its own stop. -/
def Obligations.EventsReachTheirStops : Prop :=
  ∀ (s : State),
    (∀ r src n, s.evt.raised = [(r, src)] → s.evt.lines = [(r, n)] → r < s.now → n < 32 →
      ∃ t, exec .eventDelivery s = .next t ∧ t.evt.raised = [] ∧ t.evt.lines = [] ∧
        (∀ st < 57, look t.evt.fresh st 0 = look s.evt.fresh st 0 + b2n (inMask st n s)) ∧
        get EVT_SEEN_LO.SEEN t = (get EVT_SEEN_LO.SEEN s ||| 2 ^ n) % 2 ^ 32 ∧ keepsFields [EVT_SEEN_LO.SEEN] s t ∧
        t = { s with regs := t.regs, evt := t.evt }) ∧
    (∀ st < 57,
      let c := get (EVT_STOP_CNT.COUNT st) s + look s.evt.fresh st 0 - b2n (hasRun st s)
      get (EVT_STOP_CNT.COUNT st) (evalStop st s) = Nat.min 15 c ∧ (15 < c → get (EVT_STOP_CNT.OVERRUN st) (evalStop st s) = 1) ∧
      (15 < c → get (EVT_STOP_CNT.OVERRUN st) s = 0 → logs 0x0801 st 0 0 s (evalStop st s))) ∧
    (canRun 56 s = true → ∃ t, exec (.stopTask 56) s = .next t ∧ get HFR_ATTN.STOP t = 1 ∧ hasRun 56 t = true ∧
      keepsFields [HFR_ATTN.STOP] s t ∧ canRun 56 t = false ∧ t = { s with regs := t.regs, evt := t.evt }) ∧
    (canRun 56 s = false → ∃ t, exec (.stopTask 56) s = .next t ∧ t = s) ∧
    ∀ n : Fin 32, s.dma.chans.length = 32 → (chOf n s).active = true → frameCh (chOf n s) = false → get (DMA_CH_PACE.MODE n) s = 1 →
      (chOf n s).granted = false → canRun n s = true → get (DMA_CH_CTRL.DSRC n) s = 0 → (chOf n s).fetch.isSome = true →
      (chOf n s).fetchIssued = false →
      ∃ t, exec (.stopTask n) s = .next t ∧ chOf n t = { chOf n s with granted := true } ∧ hasRun n t = true ∧
        (∀ k : Fin 32, k ≠ n → chOf k t = chOf k s) ∧ t = { s with dma := t.dma, evt := t.evt }

/-- R311, R312, R316, R323: a source code that the table does not hold sets BAD and logs fault 0x0802. While slots run, a write of EVT_LINE_SRC
or EVT_SW waits for the next slot and CLR for the end of its slot; at once otherwise. R317: an edge that EDGE selects on an input pin is an event
three slots later; a due pulse of an output pin starts with its WIDTH, at least one slot, and ends when it has passed. -/
def Obligations.EventRegistersAndPinsAct : Prop :=
  (∀ (s : State) (n : Fin 64) (v : Nat),
    (sourceKnown (v % 256) = true → s.plan.running = false → ∃ t, exec (.evtLineSrcWrite n v) s = .next t ∧
      get (EVT_LINE_SRC.SRC n) t = v % 256 ∧ get (EVT_LINE_SRC.BAD n) t = 0 ∧ keepsFields [EVT_LINE_SRC.SRC n, EVT_LINE_SRC.BAD n] s t ∧
      t = { s with regs := t.regs }) ∧
    (sourceKnown (v % 256) = false → s.plan.running = true → ∃ t, exec (.evtLineSrcWrite n v) s = .next t ∧ get (EVT_LINE_SRC.BAD n) t = 1 ∧
      logs 0x0802 n 0 0 s t ∧ t.evt.later = s.evt.later ++ [(0x40780000 + 4 * n.val, v)]) ∧
    (s.plan.running = true → ∃ t, exec (.evtSw v) s = .next t ∧ t = { s with evt.later := s.evt.later ++ [(EVT_SW.addr, v)] }) ∧
    (s.plan.running = false → ∃ t, exec (.evtSw v) s = .next t ∧ (∀ i < 16, bit v i = true → raises (0xC0 + i) s t) ∧ t.regs = s.regs) ∧
    (s.plan.running = true → ∃ t, exec (.clr n) s = .next t ∧ t = { s with evt.clears := n.val :: s.evt.clears }) ∧
    (s.plan.running = false → ∃ t, exec (.clr n) s = .next t ∧ get (EVT_STOP_CNT.COUNT n) t = 0 ∧ keepsFields [EVT_STOP_CNT.COUNT n] s t)) ∧
  (∀ (s : State) (p : Fin 4) (rising : Bool),
    (get (EVT_PIN.DIR p) s = 0 → get (EVT_PIN.EDGE p) s = 2 ∨ get (EVT_PIN.EDGE p) s = (if rising then 0 else 1) → s.pwr.fabricStopped = false →
      ∃ t, exec (.evtPinInputEdge p rising) s = .next t ∧ t = { s with evt.pinDue := s.evt.pinDue ++ [(4 + p.val, s.now + 3)] }) ∧
    (get (EVT_PIN.DIR p) s = 1 → (p.val, s.now) ∈ s.evt.pinDue → ∃ t, exec (.evtPinPulseStart p) s = .next t ∧
      look t.evt.pinOn p 0 = s.now + Nat.max 1 (get (EVT_PIN.WIDTH p) s) ∧ (∀ d ≤ s.now, (p.val, d) ∉ t.evt.pinDue) ∧
      t = { s with evt.pinDue := t.evt.pinDue, evt.pinOn := t.evt.pinOn }) ∧
    ∀ e, s.evt.pinOn = [(p.val, e)] → e ≤ s.now → ∃ t, exec (.evtPinPulseEnd p) s = .next t ∧ t = { s with evt.pinOn := [] })

/-! ## The serial ports -/

/-- R379, R380, R383: a push that no rule refuses queues its entry with the value of SPn_TXD; one with a kind above 3 is refused with cause 1 and
one onto a full queue with cause 2, each with fault 0x0A01; a read of SPn_RXD pops the oldest word, or reads zero. R381, R382, R383: an entry of
an enabled master port starts with its select when none is asserted, and lasts; at its end with CONT clear the select is released and the
received bytes make one word of the receive queue. R384: in slave role a select that falls takes the first entry, or sets TX_UND with fault
0x0A04 when none is queued, and one that rises in an entry ends it with SHORT. R402: an abort of a port discards its entries and sets ABORTED
with fault 0x0A02. -/
def Obligations.SerialPortsQueueAndTransfer : Prop :=
  (∀ (s : State) (v : Nat), v < 2 ^ 32 →
    (pushCause 0 ⟨v, get SP0_TXD.DATA s⟩ s = 0 → s.sp.p0.abortAt ≠ some s.now → ∃ t, exec (.spnCmd 0 v) s = .next t ∧
      t = { s with sp.p0.queue := s.sp.p0.queue ++ [⟨v, get SP0_TXD.DATA s⟩] }) ∧
    (4 ≤ v % 8 → ∃ t, exec (.spnCmd 0 v) s = .next t ∧ get SP0_STAT.REFUSED t = 1 ∧ get SP0_STAT.ERR_CAUSE t = 1 ∧ logs 0x0A01 0 0 1 s t ∧
      t.sp = s.sp ∧ t.mem = s.mem) ∧
    (v = 0x40 → s.sp.p0.queue.length = 16 → ∃ t, exec (.spnCmd 0 v) s = .next t ∧ get SP0_STAT.REFUSED t = 1 ∧ get SP0_STAT.ERR_CAUSE t = 2 ∧
      logs 0x0A01 0 0 2 s t ∧ t.sp = s.sp) ∧
    (∀ w rest, s.sp.p0.rx = w :: rest → ∃ t, exec (.spnRxd 0) s = .next t ∧ get SP0_RXD.DATA t = w % 2 ^ 32 ∧ t.sp.p0.rx = rest ∧
      keepsFields [SP0_RXD.DATA] s t ∧ t = { s with regs := t.regs, sp.p0.rx := rest }) ∧
    (s.sp.p2.rx = [] → ∃ t, exec (.spnRxd 2) s = .next t ∧ get SP2_RXD.DATA t = 0 ∧ t = { s with regs := t.regs })) ∧
  (∀ (s : State) (e : SpEntry),
    (∀ rest, s.sp.p0.queue = e :: rest → get SP0_CTRL.ENABLE s = 1 → s.sp.p0.cur = none → s.sp.p0.sel = none → s.sp.p0.idleUntil ≤ s.now →
      rxDepth 0 s < 16 → s.seq.xipMiss = none → ∃ t ends, exec (.serialEntryStart 0) s = .next t ∧ s.now ≤ ends ∧
      t.sp.p0.queue = rest ∧ t.sp.p0.cur = some (e, ends) ∧ t.sp.p0.sel = some e.sel ∧ t = { s with sp.p0 := t.sp.p0 }) ∧
    (∀ ends rx, s.sp.p0.cur = some (e, ends) → ends ≤ s.now → e.cont = false → e.receives = true → s.sp.p0.rx.length < 16 →
      ∃ t, exec (.serialEntryEnd 0 rx) s = .next t ∧ t.sp.p0.rx = s.sp.p0.rx ++ [ofLe (rx.take e.bytes) % 2 ^ 32] ∧ t.sp.p0.cur = none ∧
        t.sp.p0.sel = none ∧ ends ≤ t.sp.p0.idleUntil ∧ t = { s with sp.p0 := t.sp.p0 })) ∧
  (∀ (s : State),
    (get SP2_CTRL.ROLE s = 1 → get SP2_CTRL.ENABLE s = 1 → s.sp.p2.sel = none → s.sp.p2.cur = none →
      (∀ e rest, s.sp.p2.queue = e :: rest → ∃ t, exec .sp2Sel0Fall s = .next t ∧ t.sp.p2.cur = some (e, 0) ∧ t.sp.p2.queue = rest ∧
        t.sp.p2.sel = some 0 ∧ t.regs = s.regs ∧ t.log = s.log) ∧
      (s.sp.p2.queue = [] → ∃ t, exec .sp2Sel0Fall s = .next t ∧ get SP2_STAT.TX_UND t = 1 ∧ logs 0x0A04 0 0 2 s t ∧ t.sp.p2.sel = some 0)) ∧
    (∀ e ends, get SP2_CTRL.ROLE s = 1 → s.sp.p2.sel.isSome = true → s.sp.p2.cur = some (e, ends) →
      ∃ t, exec (.sp2SelectRise []) s = .next t ∧ get SP2_STAT.SHORT t = 1 ∧ t.sp.p2.cur = none ∧ t.sp.p2.sel = none ∧ t.sp.p2.rx = s.sp.p2.rx ∧
        keepsFields [SP2_STAT.SHORT] s t) ∧
    (∃ t, exec (.serialAbort 0) s = .next t ∧ t.sp.p0.queue = [] ∧ t.sp.p0.cur = none ∧ t.sp.p0.sel = none ∧ get SP0_STAT.ABORTED t = 1 ∧
      logs 0x0A02 0 0 0 s t ∧ t.sp.p2 = s.sp.p2 ∧ t.mem = s.mem) ∧
    ∃ t, exec (.serialAbort 1) s = .next t ∧ get SP1_STAT.ABORTED t = 1 ∧ logs 0x0A02 1 0 0 s t ∧ t.sp = { s.sp with sp1Abort := some s.now })

/-- R386, R387, R390: enabling a window that keeps the rules sets EN, one of length 0 is refused with WIN_REFUSED and fault 0x0A05, and disabling
drops the window's lines from the buffers; a template is taken whole or refused. R400, R402: a malformed transaction is counted in MALFORMED and
BAD, unless the port was aborted in it. -/
def Obligations.WindowsAndTemplateAreJudged : Prop :=
  ∀ (s : State) (n : Fin 4) (key : Nat),
    (get (SP0_WIN_CFG.EN n) s = 0 → key < 256 → winInvalid n (set (SP0_WIN_CFG.KEY n) key s) = false →
      ∃ t, exec (.windowEnable n (256 + key)) s = .next t ∧ get (SP0_WIN_CFG.EN n) t = 1 ∧ get (SP0_WIN_CFG.KEY n) t = key ∧
        keepsFields [SP0_WIN_CFG.EN n, SP0_WIN_CFG.KEY n] s t ∧ t = { s with regs := t.regs }) ∧
    (get (SP0_WIN_CFG.EN n) s = 0 → key < 256 → get (SP0_WIN_LEN.LENGTH n) s = 0 → ∃ t, exec (.windowEnable n (256 + key)) s = .next t ∧
      get (SP0_WIN_CFG.EN n) t = 0 ∧ get SP0_XIP_CTRL.WIN_REFUSED t = 1 ∧ logs 0x0A05 n 0 0 s t) ∧
    (get (SP0_WIN_CFG.EN n) s = 1 → ∃ t, exec (.windowEnable n 0) s = .next t ∧ get (SP0_WIN_CFG.EN n) t = 0 ∧
      t.seq.xip = s.seq.xip.filter (fun l => l.window != n.val) ∧ keepsFields [SP0_WIN_CFG.EN n] s t) ∧
    (∀ v, tmplInvalid v (get SP0_XIP_FREQ.FREQ s) = false → ∃ t, exec (.templateWrite v) s = .next t ∧
      get SP0_XIP_TMPL.CMD t = bits v 0 16 ∧ get SP0_XIP_TMPL.DUMMY t = bits v 24 5 ∧ get SP0_XIP_TMPL.DTR t = bits v 23 1 ∧
      get SP0_XIP_TMPL.DATA_LANES t = bits v 21 2 ∧ get SP0_XIP_TMPL.ADDR_LANES t = bits v 19 2 ∧ get SP0_XIP_TMPL.CMD_LANES t = bits v 17 2 ∧
      t = { s with regs := t.regs }) ∧
    (∀ v, tmplInvalid v (get SP0_XIP_FREQ.FREQ s) = true → ∃ t, exec (.templateWrite v) s = .next t ∧ get SP0_XIP_CTRL.WIN_REFUSED t = 1 ∧
      get SP0_XIP_TMPL.CMD t = get SP0_XIP_TMPL.CMD s ∧ logs 0x0A05 4 0 0 s t) ∧
    (∀ since, sp1Receives s = true → sp1Aborted since s = false → get SP1_CNT.MALFORMED s < 1000 → get HFR_CNT.BAD s < 1000 →
      ∃ t, exec (.sp1TransactionMalformed since) s = .next t ∧ get SP1_CNT.MALFORMED t = get SP1_CNT.MALFORMED s + 1 ∧
        get HFR_CNT.BAD t = get HFR_CNT.BAD s + 1 ∧ t.hfr.flight = s.hfr.flight ∧ t.hfr.last = s.hfr.last ∧ t.mem = s.mem) ∧
    (∀ since, sp1Receives s = false ∨ sp1Aborted since s = true → ∃ t, exec (.sp1TransactionMalformed since) s = .next t ∧ t = s)

/-! ## Host frames -/

/-- R410, R415: an intact frame of any executed type, that is not the duplicate of the last executed one and finds none in flight, is executed in
a synchronised session after boot: it is in flight, it is the last executed frame, and the current reply says PENDING. A bad frame of any type is
only counted in BAD, and one that the port does not receive has no effect. R96, R406, R411, R413, R418: an executed SYNC makes the host present,
and completes with SYS_ID, SYS_UID and SYS_BOOT_STAT as its payload; an executed REQ sets PENDING and shows its code, and DONE completes it with
RESULT 0 and no words. -/
def Obligations.FramesAreExecutedOnceAndComplete : Prop :=
  (∀ (s : State) (f : FrameIn), sp1Receives s = true → sp1Aborted f.since s = false → frameShort f = false →
    (f.crcOk = true → s.boot.synced = true → bootEnded s = true → s.hfr.flight = [] →
      s.abort.since = none →
      ∀ c ∈ [(Instr.sync f, 1), (.frameRead f, 2), (.frameWrite f, 3), (.rmw f, 4), (.bulk f, 5), (.req f, 6), (.abortFrame f, 7),
          (.reservedFrameType 1 f, 9)],
        s.hfr.last ≠ some (f.alive % 256, (frameOf c.2 f).crc) →
        ∃ t, exec c.1 s = .next t ∧ t.hfr.last = some (f.alive % 256, (frameOf c.2 f).crc) ∧ get HFR_STAT.LAST_ALIVE t = f.alive % 256 ∧
          get HFR_STAT.LAST_TYPE t = c.2 ∧ t.mem = s.mem ∧
          ((frameOf c.2 f).memory = false → t.hfr.current.result = 1 ∧ t.hfr.current.alive = f.alive % 256 ∧
            t.hfr.flight.map (fun x => (x.frame, x.done)) = [(frameOf c.2 f, (frameOf c.2 f).formatBad)])) ∧
    (f.crcOk = true → ∃ t, exec (.frameNop f) s = .next t ∧ t.hfr.flight = s.hfr.flight ∧
      t.hfr.last = s.hfr.last ∧ t.hfr.current = s.hfr.current ∧ t.mem = s.mem) ∧
    (f.crcOk = false → get HFR_CNT.BAD s < 1000 →
      ∀ c ∈ [Instr.frameNop f, .sync f, .frameRead f, .frameWrite f, .rmw f, .bulk f, .req f, .abortFrame f, .reservedFrameType 1 f],
        ∃ t, exec c s = .next t ∧ get HFR_CNT.BAD t = get HFR_CNT.BAD s + 1 ∧ t.hfr.flight = s.hfr.flight ∧ t.hfr.last = s.hfr.last ∧
          t.hfr.current = s.hfr.current ∧ t.mem = s.mem)) ∧
  (∀ (s : State) (f : FrameIn), sp1Receives s = false ∨ sp1Aborted f.since s = true →
    ∀ c ∈ [Instr.frameNop f, .sync f, .frameRead f, .frameWrite f, .rmw f, .bulk f, .req f, .abortFrame f, .reservedFrameType 1 f],
      ∃ t, exec c s = .next t ∧ t = s) ∧
  (∀ (s : State) (x : InFlight), s.hfr.flight = [x] → x.discard = false → s.hfr.serial = x.serial → s.hfr.currentOf = some x.serial →
    (x.frame.type = 1 → x.frame.cls < 4 → x.done = false → x.next = 0 → s.hfr.dmaFrame = none → s.pwr.fabricStopped = false → ∃ t, exec .frameComplete s = .next t ∧
      t.hfr.flight = [] ∧ t.hfr.current.payload = [regValue 0x40000000 s, regValue 0x40000004 s, regValue 0x40000008 s, regValue 0x40000020 s] ∧
      t.hfr.current.result = x.result ∧ t.hfr.stored = t.hfr.current ∧ get HFR_ATTN.REPLY t = 1 ∧ t.mem = s.mem) ∧
    (x.frame.type = 6 → x.done = false → get HFR_REQ_STAT.PENDING s = 1 → ∃ t, exec (.done 1) s = .next t ∧ t.hfr.flight = [] ∧
      t.hfr.current.result = 0 ∧ t.hfr.current.payload = [] ∧ get HFR_REQ_STAT.PENDING t = 0 ∧ get HFR_ATTN.REPLY t = 1 ∧ t.mem = s.mem))

/-! ## Display -/

/-- R423, R425, R428, R431, R434, R438: the frame that is due starts with its first line to be sent, the cursor at the place that stands in its
register and the event of a frame start; while a command-mode transfer runs, a TE edge is only counted, and between frames it starts one, as does
the timeout, which is counted in TE_MISS. A line whose slot is reached is sent as composed, shown in LINE, and one that did not arrive whole is
counted and logged once in its frame. -/
def Obligations.FramesStartAndLinesAreSent : Prop :=
  ∀ (s : State), dspAwake s = true → s.pwr.entry = none →
    let starts := fun (t : State) => t.dsp.inFrame = true ∧ t.dsp.line = 0 ∧ t.dsp.firstDue = none ∧ t.dsp.teWait = false ∧
      t.dsp.frameStart = s.now * dget DSP_CLK.N s ∧ t.dsp.applied = s.dsp.applied ∧
      t.dsp.nextStart = t.dsp.frameStart + vTotal s.dsp.applied * hTotal s.dsp.applied * 65536 ∧
      t.dsp.curPos = (get DSP_CUR_POS.CUR_X s, get DSP_CUR_POS.CUR_Y s) ∧ raises 0x30 s t ∧ t.mem = s.mem
    (∀ d, dget DSP_CTRL.EN s = 1 → dget DSP_CTRL.IF s ≠ 2 → s.dsp.pending = none → s.dsp.firstDue = some d → d ≤ s.now →
      ∃ t, exec .dspFrame s = .next t ∧ starts t) ∧
    (dget DSP_CTRL.EN s = 1 → dget DSP_CTRL.IF s = 2 → on DSP_TE.EN s = true → s.dsp.pending = none →
      (transferRuns s = true → get DSP_CNT.TE_SKIP s < 255 → ∃ t, exec .teEdge s = .next t ∧
        get DSP_CNT.TE_SKIP t = get DSP_CNT.TE_SKIP s + 1 ∧ keepsFields [DSP_CNT.TE_SKIP] s t ∧ t = { s with regs := t.regs }) ∧
      (transferRuns s = false → firstReady s = true → s.dsp.cmd = none →
        (∃ t, exec .teEdge s = .next t ∧ starts t) ∧
        (s.dsp.teWait = false → teFrom s + 1024000 * Nat.max 1 (get DSP_TE.TIMEOUT s) ≤ s.now → s.dsp.teLogged = false →
          get DSP_CNT.TE_MISS s < 255 → ∃ t, exec .teTimeout s = .next t ∧ starts t ∧ get DSP_CNT.TE_MISS t = get DSP_CNT.TE_MISS s + 1 ∧
            logs 0x0C05 0 0 0 s t ∧ t.dsp.teLogged = true))) ∧
    ∀ v, s.dsp.inFrame = true → s.dsp.line = v → v < dget DSP_VTIM0.VACT s → lineSlot v s ≤ s.now →
      ∃ t, exec .displayLine s = .next t ∧ t.dsp.line = v + 1 ∧ get DSP_STAT.LINE t = v % 1024 ∧ t.dsp.lastLine = (composeLine v s).1 ∧
        t.dsp.lastHead = lineHead v s ∧ (lineCmpOf v s = v → raises 0x31 s t) ∧ t.mem = s.mem ∧
        ((composeLine v s).2 = true → t.log = s.log ∧ get DSP_CNT.UNDERRUN t = get DSP_CNT.UNDERRUN s) ∧
        ((composeLine v s).2 = false → s.dsp.lateLogged = false → get DSP_CNT.UNDERRUN s < 65535 →
          get DSP_CNT.UNDERRUN t = get DSP_CNT.UNDERRUN s + 1 ∧ logs 0x0C02 0 (get DSP_CNT.UNDERRUN s + 1) 0 s t ∧ t.dsp.lateLogged = true)

/-- R427, R428, R436, R437: an APPLY written while slots run is judged in the next slot, and otherwise at once: settings that keep the rules take
effect while scan-out is stopped, and an interface of 3 is refused with cause 1 and fault 0x0C01. A panel command of DSP_CMD waits for its window
and is then sent with its packet code; one of length 0 is refused. An init entry that is due is sent and its DELAY starts; an acknowledge that is
bad, or does not come within 1 ms (±10 %), sets ACK_ERR. -/
def Obligations.SettingsAndPanelCommandsAreJudged : Prop :=
  ∀ (s : State),
    (∀ v, bit v 8 = true → bit v 10 = false →
      let s1 := set DSP_CTRL.EN v (set DSP_CTRL.IF (v / 2) (set DSP_CTRL.LANES (v / 8) (set DSP_CTRL.FMT (v / 32) s)))
      (s.plan.running = false → get DSP_STAT.RUN s = 0 → bit v 0 = false → limitsBroken (stagedPart s1.regs) = false →
        ∃ t, exec (.apply v) s = .next t ∧ t.dsp.applied = stagedPart s1.regs ∧ get DSP_CTRL.APPLY_PEND t = 0 ∧ get DSP_CTRL.EN t = 0 ∧
          get DSP_STAT.RUN t = 0 ∧ t.log = s.log ∧ t.mem = s.mem) ∧
      (s.plan.running = true → s.pwr.fabricStopped = false → ∃ t, exec (.apply v) s = .next t ∧ t = { s1 with dsp.asked := true })) ∧
    (s.plan.running = false → ∃ t, exec (.apply 0x106) s = .next t ∧ get DSP_CTRL.REFUSED t = 1 ∧ get DSP_CTRL.CAUSE t = 1 ∧
      logs 0x0C01 0 0 1 s t ∧ t.dsp = s.dsp) ∧
    (get DSP_CMD_DATA.DATA s = 0x29 → dget DSP_CTRL.IF s = 2 → get DSP_STAT.RUN s = 1 → s.dsp.cmd = none →
      ∃ t, exec (.dspCmdGo 0x101) s = .next t ∧ t.dsp.cmd = some ([0x29], s.now) ∧ get DSP_STAT.CMD_PEND t = 1 ∧ t.log = s.log ∧ t.mem = s.mem) ∧
    (∃ t, exec (.dspCmdGo 0x100) s = .next t ∧ get DSP_STAT.CMD_REFUSED t = 1 ∧ t.dsp = s.dsp ∧ logs 0x0C06 0 0 0 s t ∧ t.mem = s.mem) ∧
    (∀ b w, s.dsp.cmd = some (b, w) → dspAwake s = true → dget DSP_CTRL.IF s = 2 → transferRuns s = false →
      s.dsp.teWait = false → ∃ t, exec .dspCmdSend s = .next t ∧ t.dsp.cmd = none ∧ get DSP_STAT.CMD_PEND t = 0 ∧
      t.dsp.sent = (match b.length with | 1 => 0x05 | 2 => 0x15 | _ => 0x39) :: b ∧ keepsFields [DSP_STAT.CMD_PEND] s t ∧ t.log = s.log) ∧
    (∀ k due e, s.dsp.initNext = some (k, due) → due ≤ s.now → s.dsp.ackDue = none → s.dsp.initList[k]? = some e →
      ∃ t, exec .panelInitEntry s = .next t ∧ t.dsp.sent = (match e.bytes.length with | 1 => 0x05 | 2 => 0x15 | _ => 0x39) :: e.bytes ∧
        t.dsp.initNext = some (k + 1, s.now + 1024000 * e.delay) ∧
        t.dsp.ackDue = (if get DSP_DSI.ACK s = 1 then some (s.now + 921600) else none) ∧ t = { s with dsp := t.dsp }) ∧
    ∀ d, s.dsp.ackDue = some d →
      (∃ t, exec (.panelAck false) s = .next t ∧ t = { s with dsp.ackDue := none }) ∧
      (∃ t, exec (.panelAck true) s = .next t ∧ t.dsp.ackDue = none ∧ get DSP_STAT.ACK_ERR t = 1 ∧ logs 0x0C04 0 0 0 s t ∧ t.mem = s.mem) ∧
      (d ≤ s.now → ∃ t, exec .ackTimeout s = .next t ∧ t.dsp.ackDue = none ∧ get DSP_STAT.ACK_ERR t = 1 ∧ logs 0x0C04 0 0 0 s t ∧ t.mem = s.mem)

/-! ## The line side -/

/-- R448 to R452: a sample of more than 0.1 V in size that no override masks trips the kerb check while a stimulus runs: TRIPPED is set, the
pulses end, the tick of the trip is kept, TRIPS counts and KERB_TRIP is raised. A judgement of samples of zero with light checking and monitor
failure clear finds nothing. R450: a self-check outside 1 % sets MON_FAIL with fault 0x0D02, and the third good one after it clears it. R452:
CLEAR clears TRIPPED only when nothing is violated. R443: a pulse ends in the slot that holds its end. R454, R579: in SERVICE mode KRB_UNLOCK
with 0x5AFE opens the override for 64 slots, and KRB_OVR with the key 0xA5 in that time sets the mask, which OVR shows, with fault 0x0D03; zero
ends it. Outside SERVICE neither has an effect, each is logged, and a write of a protected register is dropped with WR_REFUSED. LIGHT_EN can be
set, and not cleared. -/
def Obligations.KerbCheckTripsAndIsProtected : Prop :=
  (∀ (s : State), get PWR_STAT.RUNG s ≤ 2 →
    (∀ x : Int, 3200 < x → x ≤ 32767 → s.line.replaced = false → stimulusRuns s = true → get KRB_STAT.OVR s = 0 → mode s ≠ 2 → mode s ≠ 3 →
      get KRB_CNT.TRIPS s < 65535 → ∃ t, exec (.kerbJudgement x) s = .next t ∧ get KRB_STAT.TRIPPED t = 1 ∧ bit (get KRB_STAT.VIOL t) 2 = true ∧
        t.line.tdrPulse = none ∧ t.line.lasPulse = none ∧ get KRB_TRIP_LO.TICK t = tick s % 2 ^ 32 ∧
        get KRB_TRIP_HI.TICK t = tick s / 2 ^ 32 % 2 ^ 32 ∧ get KRB_CNT.TRIPS t = get KRB_CNT.TRIPS s + 1 ∧ raises 0x35 s t ∧ t.mem = s.mem) ∧
    (∀ n, n < 100 → s.line.samples = List.replicate n 0 → s.line.replaced = false → get KRB_STAT.LIGHT_EN s = 0 → get KRB_STAT.MON_FAIL s = 0 →
      ∃ t, exec (.kerbJudgement 0) s = .next t ∧ get KRB_STAT.VIOL t = 0 ∧ get KRB_DC.DC t = 0 ∧ get KRB_AC.AC t = 0 ∧
        t.line.samples = List.replicate (n + 1) 0 ∧ (99 ≤ s.line.judged → get KRB_STAT.READY t = 1) ∧
        get KRB_STAT.TRIPPED t = get KRB_STAT.TRIPPED s ∧ t.log = s.log ∧ t.evt = s.evt) ∧
    (∀ z r : Int, z < -160 ∨ 160 < z ∨ r < 15840 ∨ 16160 < r → ∃ t, exec (.kerbSelfCheck z r) s = .next t ∧ get KRB_STAT.MON_FAIL t = 1 ∧
      logs 0x0D02 0 0 0 s t ∧ t.line.selfPass = 0) ∧
    (∀ z r : Int, -160 ≤ z → z ≤ 160 → 15840 ≤ r → r ≤ 16160 → ∃ t, exec (.kerbSelfCheck z r) s = .next t ∧
      t.line.selfPass = s.line.selfPass + 1 ∧ get KRB_STAT.MON_FAIL t = (if 2 ≤ s.line.selfPass then 0 else get KRB_STAT.MON_FAIL s) ∧
      t.log = s.log ∧ keepsFields [KRB_STAT.MON_FAIL] s t) ∧
    (∃ t, exec .kerbClear s = .next t ∧ get KRB_STAT.TRIPPED t = (if get KRB_STAT.VIOL s = 0 then 0 else get KRB_STAT.TRIPPED s) ∧
      keepsFields [KRB_STAT.TRIPPED] s t ∧ t = { s with regs := t.regs }) ∧
    ∀ p q : Pulse, s.line.tdrPulse = some p → s.line.lasPulse = some q → p.fall < 32 * ((s.now : Int) + 1) → 32 * ((s.now : Int) + 1) ≤ q.fall →
      ∃ t, exec .stimulusPulseEnd s = .next t ∧ t = { s with line.tdrPulse := none }) ∧
  (∀ (s : State) (v : Nat),
    (mode s = 7 → v % 65536 = 0x5AFE → ∃ t, exec (.krbUnlock v) s = .next t ∧ t = { s with line.unlockedAt := some s.now }) ∧
    (mode s ≠ 7 ∨ v % 65536 ≠ 0x5AFE → ∃ t, exec (.krbUnlock v) s = .next t ∧ t.line = { s.line with unlockedAt := none } ∧
      logs 0x0D03 0 0 0 s t ∧ keepsFields [LOG_ESEQ.NEXT, LOG_STAT.LOST] s t ∧ t.mem = s.mem) ∧
    (∀ w, mode s = 7 → s.line.unlockedAt = some w → s.now ≤ w + 64 → v < 16 → ∃ t, exec (.krbOvr (0xA500 + v)) s = .next t ∧
      get KRB_STAT.OVR t = v ∧ get KRB_OVR.MASK t = v ∧ t.line = { s.line with unlockedAt := none } ∧ logs 0x0D03 0 0 v s t ∧ t.mem = s.mem) ∧
    (mode s = 7 → ∃ t, exec (.krbOvr 0) s = .next t ∧ get KRB_STAT.OVR t = 0 ∧ get KRB_OVR.MASK t = 0 ∧
      keepsFields [KRB_STAT.OVR, KRB_OVR.MASK] s t ∧ t.log = s.log) ∧
    (mode s ≠ 7 → ∃ t, exec (.krbOvr v) s = .next t ∧ get KRB_STAT.OVR t = get KRB_STAT.OVR s ∧ get KRB_OVR.MASK t = get KRB_OVR.MASK s ∧
      logs 0x0D03 0 0 0 s t) ∧
    (∀ a ∈ [(KRB_LIGHT_THR.addr, KRB_LIGHT_THR.THR), (KRB_QUIET.addr, KRB_QUIET.QUIET)],
      (mode s = 7 → ∃ t, exec (.kerbProtectedWrite a.1 v) s = .next t ∧ t = set a.2 v s) ∧
      (mode s ≠ 7 → ∃ t, exec (.kerbProtectedWrite a.1 v) s = .next t ∧ get a.2 t = get a.2 s ∧ get KRB_STAT.WR_REFUSED t = 1 ∧
        t.log = (faultAddr 0x0D03 0 a.1 s).log ∧ t.mem = s.mem)) ∧
    (∃ t, exec (.kerbProtectedWrite KRB_STAT.addr 0x1000) s = .next t ∧ t = set KRB_STAT.LIGHT_EN 1 s) ∧
    (get KRB_STAT.LIGHT_EN s = 1 → ∃ t, exec (.kerbProtectedWrite KRB_STAT.addr 0) s = .next t ∧ get KRB_STAT.LIGHT_EN t = 1 ∧
      get KRB_STAT.WR_REFUSED t = 1))

/-- R456, R457, R459, R463: a push feeds a stream whose SRC is PUSH and is dropped and counted at a depth of 64; a pair push feeds TONE with its
low and SPK with its high half. A table-fed stream takes its next sample. An audio tick of a running engine pops both streams. TONE may not
follow MONITOR; TONE_EN outside TONE and SERVICE mode is refused with CAUSE 2. R462: an abort clears the enables and ends the pulses. -/
def Obligations.AudioStreamsAndStimulusAbort : Prop :=
  ∀ (s : State) (v : Nat),
    (get STM_AUDIO_SRC.TONE_SRC s = 0 → get STM_AUDIO_SRC.SPK_SRC s = 0 → s.line.toneFifo.length < 64 → s.line.spkFifo.length < 64 →
      (∃ t, exec (.stmTonePush v) s = .next t ∧ t = { s with line.toneFifo := s.line.toneFifo ++ [v % 65536] }) ∧
      (∃ t, exec (.stmSpkPush v) s = .next t ∧ t = { s with line.spkFifo := s.line.spkFifo ++ [v % 65536] }) ∧
      ∃ t, exec (.stmPairPush v) s = .next t ∧ t = { s with line.toneFifo := s.line.toneFifo ++ [v % 65536],
                                                            line.spkFifo := s.line.spkFifo ++ [v / 65536 % 65536] }) ∧
    (get STM_AUDIO_SRC.TONE_SRC s = 0 → s.line.toneFifo.length = 64 → get STM_AUDIO_STAT.DROPS s < 255 →
      ∃ t, exec (.stmTonePush v) s = .next t ∧ get STM_AUDIO_STAT.DROPS t = get STM_AUDIO_STAT.DROPS s + 1 ∧
        keepsFields [STM_AUDIO_STAT.DROPS] s t ∧ t.line = s.line) ∧
    (∃ t, exec (.stmAudioSrcWrite 3) s = .next t ∧ get STM_STAT.CAUSE t = 1 ∧ logs 0x0D04 0 0 1 s t ∧ t.line = s.line) ∧
    (∃ t, exec (.stmAudioSrcWrite 12) s = .next t ∧ get STM_AUDIO_SRC.TONE_SRC t = 0 ∧ get STM_AUDIO_SRC.SPK_SRC t = 3 ∧
      get STM_AUDIO_SRC.TONE_ID t = 0 ∧ get STM_AUDIO_SRC.SPK_ID t = 0 ∧ t.log = s.log ∧
      keepsFields [STM_AUDIO_SRC.TONE_SRC, STM_AUDIO_SRC.SPK_SRC, STM_AUDIO_SRC.TONE_ID, STM_AUDIO_SRC.SPK_ID] s t) ∧
    (∀ tb lo hi, get STM_AUDIO_SRC.TONE_SRC s = 1 → get STM_AUDIO_SRC.SPK_SRC s = 0 → s.line.toneFifo.length < 64 →
      stimTable (get STM_AUDIO_SRC.TONE_ID s) s = some tb → tb.data = [lo, hi] → lo < 256 → hi < 256 →
      ∃ t, exec .audioTableFeed s = .next t ∧
        t = { s with line.toneFifo := s.line.toneFifo ++ [lo + 256 * hi], line.tonePos := s.line.tonePos + 1 }) ∧
    (∀ a as b bs, s.line.ticks < audioIndex s.now → get PWR_STAT.RUNG s = 0 → get STM_AUDIO_CTRL.RUN s = 1 → get STM_AUDIO_STAT.RUNNING s = 1 →
      get STM_AUDIO_SRC.SPK_SRC s ≠ 3 → s.line.toneFifo = a :: as → s.line.spkFifo = b :: bs → 0 < audioDepth 13 s → 0 < audioDepth 14 s →
      on AMP_CTRL.EN s = s.line.ampEn → ∃ t, exec .audioTick s = .next t ∧ t.line.toneFifo = as ∧ t.line.spkFifo = bs ∧ t.line.toneLast = a ∧
        t.line.spkLast = b ∧ t.line.ticks = audioIndex s.now ∧ t.line.vol = get AMP_CTRL.VOL s ∧ t.regs = s.regs ∧ t.mem = s.mem) ∧
    (bit v 1 = true → mode s ≠ 6 → mode s ≠ 7 → ∃ t, exec (.toneEnWrite v) s = .next t ∧ get STM_STAT.CAUSE t = 2 ∧ logs 0x0D04 0 0 2 s t ∧
      get STM_AUDIO_CTRL.TONE_EN t = get STM_AUDIO_CTRL.TONE_EN s ∧ get STM_AUDIO_CTRL.RUN t = get STM_AUDIO_CTRL.RUN s) ∧
    (mode s = 6 ∨ mode s = 7 → kerbClear s = true → ∃ t, exec (.toneEnWrite 0x2003) s = .next t ∧ get STM_AUDIO_CTRL.RUN t = 1 ∧
      get STM_AUDIO_CTRL.TONE_EN t = 1 ∧ get STM_AUDIO_CTRL.START_LVL t = 32 ∧ t.log = s.log ∧
      keepsFields [STM_AUDIO_CTRL.RUN, STM_AUDIO_CTRL.TONE_EN, STM_AUDIO_CTRL.START_LVL] s t) ∧
    ∃ t, exec (.stimulusAbort 0x100) s = .next t ∧ (∀ F ∈ [STM_CTRL.TDR_EN, STM_CTRL.LAS_EN], get F t = 0 ∧ com F t = 0 ∧ app F t = 0) ∧
      get STM_AUDIO_CTRL.TONE_EN t = 0 ∧ t.line.toneEn = false ∧ tdrOn t = false ∧ lasOn t = false ∧ t.line.tdrPulse = none ∧
      t.line.lasPulse = none ∧ get STM_STAT.ABORTED t = 1 ∧ logs 0x0D05 0 0 0 s t ∧ t.mem = s.mem

/-- R460, R461, R560: the speaker bridge: a trip in SOFT or PLAY waits and is tried again, the 8th failed retry latches; SOFT lasts 20 ms and
PLAY that has lasted 1 s clears the retry count; CLEAR leaves LATCHED; a hot junction stops the bridge until it cools; a low supply is shown and
ends in a soft start. AMP_CTRL takes its fields. VDDA_1V8 lost ends the pulses. -/
def Obligations.SpeakerBridgeStates : Prop :=
  ∀ (s : State),
    let st := get AMP_STAT.STATE s
    (∀ v, v % 4 < 2 → ∃ t, exec (.ampEnableWrite v) s = .next t ∧ get AMP_CTRL.EN t = v % 2 ∧ get AMP_CTRL.VOL t = v / 256 % 256 ∧
      get AMP_CTRL.RETRY t = v / 65536 % 64 ∧ keepsFields [AMP_CTRL.EN, AMP_CTRL.VOL, AMP_CTRL.RETRY] s t ∧ t = { s with regs := t.regs }) ∧
    (st = 1 ∨ st = 2 → get AMP_STAT.UVLO s = 0 → s.line.retry = false → get AMP_STAT.RETRIES s < 8 → get AMP_CNT.TRIPS s < 65535 →
      ∃ t, exec .ampTrip s = .next t ∧ get AMP_STAT.STATE t = 3 ∧ get AMP_STAT.AMP_FAULT t = 1 ∧ get AMP_CNT.TRIPS t = get AMP_CNT.TRIPS s + 1 ∧
        t.line.ampDue = s.now + 25600000 * Nat.max 1 s.line.ampRetry ∧ raises 0x34 s t ∧ logs 0x0D07 0 0 0 s t) ∧
    (st = 1 ∨ st = 2 → get AMP_STAT.UVLO s = 0 → s.line.retry = true → s.now ≤ s.line.softAt + 1024000000 → get AMP_STAT.RETRIES s = 7 →
      ∃ t, exec .ampTrip s = .next t ∧ get AMP_STAT.STATE t = 4 ∧ get AMP_STAT.RETRIES t = 8) ∧
    (st = 3 → s.line.ampDue ≤ s.now → ∃ t, exec .ampRetry s = .next t ∧ get AMP_STAT.STATE t = 1 ∧ t.line.softAt = s.now ∧ t.line.retry = true ∧
      keepsFields [AMP_STAT.STATE] s t) ∧
    (st = 1 → s.line.softAt + 20480000 ≤ s.now → get AMP_STAT.UVLO s = 0 → ∃ t, exec .ampSoftEnd s = .next t ∧ get AMP_STAT.STATE t = 2 ∧
      t.line.playAt = s.now ∧ keepsFields [AMP_STAT.STATE] s t) ∧
    (st = 2 → s.line.playAt + 1024000000 ≤ s.now → ∃ t, exec .ampPlayStable s = .next t ∧ get AMP_STAT.RETRIES t = 0 ∧ t.line.retry = false ∧
      keepsFields [AMP_STAT.RETRIES] s t) ∧
    (st = 4 → ∃ t, exec .ampClear s = .next t ∧ get AMP_STAT.STATE t = 1 ∧ get AMP_STAT.RETRIES t = 0 ∧ t.line.softAt = s.now ∧
      keepsFields [AMP_STAT.STATE, AMP_STAT.RETRIES] s t) ∧
    (st = 1 ∨ st = 2 ∨ st = 3 → ∃ t, exec .thermal s = .next t ∧ get AMP_STAT.STATE t = 5 ∧ get AMP_STAT.THERM t = 1 ∧ logs 0x0D09 0 0 0 s t) ∧
    (st = 5 → ∃ t, exec .thermalClear s = .next t ∧ get AMP_STAT.STATE t = 1 ∧ get AMP_STAT.THERM t = 0 ∧ t.line.softAt = s.now) ∧
    (∃ t, exec .uvlo s = .next t ∧ get AMP_STAT.UVLO t = 1 ∧ ampDriven t = false ∧ keepsFields [AMP_STAT.UVLO] s t) ∧
    (st = 1 ∨ st = 2 → get AMP_STAT.UVLO s = 1 → ∃ t, exec .uvloClear s = .next t ∧ get AMP_STAT.UVLO t = 0 ∧ get AMP_STAT.STATE t = 1 ∧
      t.line.softAt = s.now ∧ ampDriven t = true ∧ keepsFields [AMP_STAT.STATE, AMP_STAT.UVLO] s t) ∧
    ∃ t, exec .vdda1v8Loss s = .next t ∧ t = { s with line.tdrPulse := none, line.lasPulse := none, line.vdda18Lost := true }

/-! ## The Erost link -/

/-- R465, R466, R487: EN starts the training of a port; one whose delay is at most 15.0 ns comes UP with full credits, a longer one fails with
TOO_LONG; training that lasts too long fails and is tried again. CRC errors are counted, and more than 16 in an interval, a lost lock or an abort
take an UP port down with their cause; its last beacon is kept. R472, R473, R474: an UP port sends its beacon and keeps the one it receives until
it is 30 µs old. The smallest ID on the network is the master: a unit that hears of a smaller one is a slave of its port, one hop further, and
one that hears of none is the master. Its own ID in a beacon is a conflict (fault 0x0E03), in which a master is not aligned; a restart of the
election clears it. -/
def Obligations.ErostPortsTrainAndElect : Prop :=
  (∀ (s : State) (p q : Nat), (p = 0 ∧ q = 1) ∨ (p = 1 ∧ q = 0) →
    (get (ERL_PORT_CTRL.EN p) s = 0 → get PWR_STAT.RUNG s ≤ 2 → ∃ t, exec (.erostPortEnable p 1) s = .next t ∧ get (ERL_PORT_CTRL.EN p) t = 1 ∧
      get (ERL_PORT_STAT.STATE p) t = 1 ∧ (erlPort p t) = { erlPort p s with trainFrom := s.now, retryAt := none } ∧ erlPort q t = erlPort q s ∧
      keepsFields [ERL_PORT_CTRL.EN p, ERL_PORT_STAT.STATE p] s t) ∧
    (∀ id d, get (ERL_PORT_STAT.STATE p) s = 1 →
      (d ≤ 3932 → ∃ t, exec (.erostUp p id d) s = .next t ∧ get (ERL_PORT_STAT.STATE p) t = 2 ∧ get (ERL_PORT_DELAY.DELAY p) t = d ∧
        (erlPort p t).partner = id ∧ (∀ vc, creditsOf vc (erlPort p t) = 16) ∧ (erlPort p t).replay = [] ∧ raises (0x64 + p) s t ∧
        erlPort q t = erlPort q s ∧ t.mem = s.mem) ∧
      (3932 < d → ∃ t, exec (.erostUp p id d) s = .next t ∧ get (ERL_PORT_STAT.STATE p) t = 0 ∧ get (ERL_PORT_STAT.CAUSE p) t = 2 ∧
        logs 0x0E0B p 0 0 s t ∧ (erlPort p t).retryAt = some (s.now + 10240000) ∧ t.mem = s.mem)) ∧
    (get (ERL_PORT_STAT.STATE p) s = 1 → (erlPort p s).trainFrom + 921600 ≤ s.now → (erlPort p s).trainLogged = false →
      ∃ t, exec (.trainingTimeout p) s = .next t ∧ get (ERL_PORT_STAT.STATE p) t = 0 ∧ get (ERL_PORT_STAT.CAUSE p) t = 1 ∧
        logs 0x0E01 p 0 1 s t ∧ (erlPort p t).retryAt = some (s.now + 10240000)) ∧
    (∀ d, (erlPort p s).retryAt = some d → d ≤ s.now → get (ERL_PORT_CTRL.EN p) s = 1 → get (ERL_PORT_STAT.STATE p) s = 0 →
      get PWR_STAT.RUNG s ≤ 2 → ∃ t, exec (.erostRetry p) s = .next t ∧ get (ERL_PORT_STAT.STATE p) t = 1 ∧
        (erlPort p t).trainFrom = s.now ∧ keepsFields [ERL_PORT_STAT.STATE p] s t) ∧
    (∀ e, e ≤ 16 → ∃ t, exec (.crcIntervalEnd p e 0) s = .next t ∧
      get (ERL_PORT_CNT.CRC p) t = Nat.min 255 (get (ERL_PORT_CNT.CRC p) s + e) ∧ keepsFields [ERL_PORT_CNT.CRC p] s t ∧ t = { s with regs := t.regs }) ∧
    (get (ERL_PORT_STAT.STATE p) s = 2 → (erlPort p s).reads = [] →
      let down := fun (cause : Nat) (t : State) => get (ERL_PORT_STAT.STATE p) t = 0 ∧ get (ERL_PORT_STAT.CAUSE p) t = cause ∧
        (erlPort p t).replay = [] ∧ (erlPort p t).waiting = [] ∧ (erlPort p t).beacon = (erlPort p s).beacon ∧
        (erlPort p t).tx = (erlPort p s).tx ∧ (erlPort p t).retryAt = some (s.now + 10240000) ∧ erlPort q t = erlPort q s ∧
        get ERL_STAT.ROLE t = get ERL_STAT.ROLE s ∧ raises (0x66 + p) s t ∧ t.mem = s.mem
      (∃ t, exec (.crcIntervalEnd p 17 0) s = .next t ∧ down 3 t ∧ logs 0x0E02 p 0 3 s t) ∧
      (∃ t, exec (.lockLost p) s = .next t ∧ down 4 t ∧ logs 0x0E02 p 0 4 s t) ∧
      ∃ t, exec (.erostPortAbort p) s = .next t ∧ down 5 t ∧ logs 0x0E0A p 0 0 s t)) ∧
  (∀ (s : State) (p q : Nat), (p = 0 ∧ q = 1) ∨ (p = 1 ∧ q = 0) → get (ERL_PORT_STAT.STATE p) s = 2 → get (ERL_PORT_STAT.STATE q) s = 0 →
    (erlPort q s).beacon = none →
    (∀ b : BeaconIn, b.id ≠ ownId s → b.conflict = false → b.upstream ≠ ownId s → b.hops < 7 →
      let kept := fun (t : State) => (erlPort p t).beacon = some (⟨b.id, b.master, b.hops, b.upstream, b.conflict⟩, s.now) ∧
        get ERL_STAT.CONFLICT t = get ERL_STAT.CONFLICT s ∧ t.mem = s.mem
      (b.master < ownId s → ∃ t, exec (.beaconReceive p b) s = .next t ∧ kept t ∧ get ERL_STAT.ROLE t = 2 ∧ get ERL_STAT.HOPS t = 1 + b.hops ∧
        get ERL_STAT.UPSTREAM t = p ∧ get ERL_MASTER_LO.ID t = b.master % 2 ^ 32 ∧ get ERL_MASTER_HI.ID t = b.master / 2 ^ 32 % 2 ^ 32) ∧
      (ownId s ≤ b.master → ∃ t, exec (.beaconReceive p b) s = .next t ∧ kept t ∧ get ERL_STAT.ROLE t = 1 ∧ get ERL_STAT.HOPS t = 0 ∧
        get ERL_MASTER_LO.ID t = ownId s % 2 ^ 32 ∧ get ERL_MASTER_HI.ID t = ownId s / 2 ^ 32 % 2 ^ 32)) ∧
    (∀ b : BeaconIn, b.id = ownId s → b.upstream = ownId s → get ERL_STAT.CONFLICT s = 0 → get ERL_STAT.ROLE s = 1 → (erlPort p s).reads = [] →
      (erlPort q s).reads = [] → ∃ t, exec (.beaconReceive p b) s = .next t ∧ get ERL_STAT.CONFLICT t = 1 ∧ get ERL_STAT.ALIGNED t = 0 ∧
      get ERL_STAT.ROLE t = 1 ∧ logs 0x0E03 p (ownId s) (ownId s / 2 ^ 32) s t ∧ t.mem = s.mem) ∧
    (∀ b w, (erlPort p s).beacon = some (b, w) → w + 30720 ≤ s.now → ∃ t, exec (.beaconForget p) s = .next t ∧ (erlPort p t).beacon = none ∧
      get ERL_STAT.ROLE t = 1 ∧ t.mem = s.mem) ∧
    ((erlPort p s).sentBeacon = none → get ERL_STAT.ROLE s ≠ 2 → ∃ t, exec .beaconSend s = .next t ∧
      erlPort p t = { erlPort p s with sentBeacon := some (beaconOf s, s.now) } ∧ erlPort q t = erlPort q s ∧ t.regs = s.regs) ∧
    ∃ t, exec .erostRestart s = .next t ∧ get ERL_STAT.CONFLICT t = 0 ∧ (erlPort p t).beacon = none ∧ (erlPort q t).beacon = none ∧
      get ERL_STAT.ROLE t = 1 ∧ t.mem = s.mem)

/-- R475, R476, R478, R480: ARM and DISARM of an aligned unit with ARM_EN schedule START and STOP at the tick they name, ARM raising its event; a
tick already past is logged as 0x0E09. STOP acts in the slot of its tick. FIRE reaches the EROST units of an aligned unit and is counted in
NOTIME otherwise. TREQ is answered by a TRSP with the instant of its arrival, and a TRSP yields the offset of its exchange. -/
def Obligations.TimingMessagesAct : Prop :=
  ∀ (s : State) (p q : Nat) (m : TimingIn), (p = 0 ∧ q = 1) ∨ (p = 1 ∧ q = 0) → get (ERL_PORT_STAT.STATE p) s = 2 → get (ERL_PORT_STAT.STATE q) s = 0 →
    timingOk s = true →
    (∀ a, get ERL_STAT.ALIGNED s = 1 → com ERL_NET.ARM_EN s = 1 → armTickOf m s = some a →
      (∃ t, exec (.arm p m) s = .next t ∧ t.erl.armAt = s.erl.armAt ++ [(a, true)] ∧ raises 0x68 s t ∧ t.regs = s.regs) ∧
      ∃ t, exec (.disarm p m) s = .next t ∧ t = { s with erl.armAt := s.erl.armAt ++ [(a, false)] }) ∧
    (armTickOf m s = none → (∃ t, exec (.arm p m) s = .next t ∧ logs 0x0E09 0 0 2 s t ∧ raises 0x68 s t ∧ t.erl = s.erl) ∧
      ∃ t, exec (.disarm p m) s = .next t ∧ logs 0x0E09 0 0 2 s t ∧ t.erl = s.erl) ∧
    (∀ a, s.erl.armAt = [(a, false)] → a < tick s + 4 → s.record.running = true → s.record.startWaits = false → s.record.place = 0 →
      s.record.recs = [] → mode s ≠ 4 → ∃ t, exec .armTick s = .next t ∧ t.record.running = false ∧ t.erl.armAt = [] ∧ t.mem = s.mem) ∧
    (get ERL_STAT.ALIGNED s = 0 → get ERL_STAT.NOTIME s < 255 → ∃ t, exec (.fire p m) s = .next t ∧
      get ERL_STAT.NOTIME t = get ERL_STAT.NOTIME s + 1 ∧ keepsFields [ERL_STAT.NOTIME] s t ∧ t = { s with regs := t.regs }) ∧
    (∀ n : Fin 4, get ERL_STAT.ALIGNED s = 1 → unitOn n s = true → app (TRG_CTRL.TYPE n) s = 9 → app (TRG_CTRL.SRC n) s = 0 →
      ∃ t h, exec (.fire p m) s = .next t ∧ h ∈ t.trg.hits ∧ h.unit = n ∧ h.slot = s.now + 1 ∧ h.time = onGrid (unstepped (fireTime m s) s) s ∧ t.regs = s.regs) ∧
    ((erlPort p s).vc0Free ≤ 4 * s.now → ∃ t frac, exec (.treq p m) s = .next t ∧ frac < 66 ∧
      (erlPort p t).vc0.head? = some ⟨5, 0, s.now % 256, toBits 32 m.stamp, frac⟩ ∧ t.regs = s.regs ∧ t.mem = s.mem) ∧
    ∀ t1, (erlPort p s).treq = some t1 → s.erl.lastUpstream = some p → onUpstream s = false →
      let t2 := t1 + signed 32 (toBits 32 ((m.tick : Int) - t1))
      ∃ t, exec (.trsp p m) s = .next t ∧ (erlPort p t).treq = none ∧
        t.erl.thetas = (((t2 - t1) - (m.stamp - (t2 + 256 * m.frac))) :: s.erl.thetas).take 16 ∧ t.mem = s.mem

/-- R469, R470, R482 to R486: a write or read of an UP port with the number expected, whose line an open window of that port holds and permits
and whose budget is not spent, becomes an access of the port, a write 6 slots after its receipt; with no such window it is refused and counted,
and a read is answered with the error status. A completion brings its line to its channel. Acknowledges return credits; a NAK and a silence of 2
µs start a replay; a read without a completion for 100 µs ends with fault 0x0E06. A new interval renews the budgets. -/
def Obligations.RemotePacketsAreJudged : Prop :=
  ∀ (s : State) (p : Nat) (k : PacketIn), p < 2 → get (ERL_PORT_STAT.STATE p) s = 2 → timingOk s = true → (erlPort p s).waiting = [] →
    (∀ w, k.seq = look (erlPort p s).expect 1 0 → rxFill p 1 s < 16 → windowFor p (lineOf k.addr) true s = some w →
      mayWrite (0x2C + p) (lineOf k.addr - sqBase) s = true → (erlPort p s).rateFrom = rateIndex s →
      (∀ v, s.erl.windows[w]? = some v → look (erlPort p s).admitted w 0 < v.rate) →
      ∃ t, exec (.postedWrite p k) s = .next t ∧
        t.memory.acc = s.memory.acc ++ [⟨0x2C + p, lineOf k.addr, .write, k.data, allOn, .remote p, s.now + 6⟩] ∧
        look (erlPort p t).expect 1 0 = (k.seq + 1) % 4096 ∧ look (erlPort p t).admitted w 0 = look (erlPort p s).admitted w 0 + 1 ∧
        t.regs = s.regs ∧ t.mem = s.mem) ∧
    (∀ w, k.seq = look (erlPort p s).expect 2 0 → rxFill p 2 s < 16 → windowFor p (lineOf k.addr) false s = some w →
      reserved (erlPort p s) < 8 → (erlPort p s).rateFrom = rateIndex s →
      (∀ v, s.erl.windows[w]? = some v → look (erlPort p s).admitted w 0 < v.rate) →
      ∃ t x, exec (.readRequest p k) s = .next t ∧
        t.memory.acc = s.memory.acc ++ [⟨0x2C + p, lineOf k.addr, .read, [], [], .remote p, s.now⟩] ∧
        (erlPort p t).held = (erlPort p s).held ++ [x] ∧ x.tag = k.tag ∧ x.vc = 3 ∧ t.regs = s.regs ∧ t.mem = s.mem) ∧
    (s.erl.windows = [] → (erlPort p s).refusedLogged = false → get (ERL_PORT_CNT.REFUSED p) s < 255 →
      (k.seq = look (erlPort p s).expect 1 0 → rxFill p 1 s < 16 → ∃ t, exec (.postedWrite p k) s = .next t ∧
        get (ERL_PORT_CNT.REFUSED p) t = get (ERL_PORT_CNT.REFUSED p) s + 1 ∧ logs 0x0E07 p 0 0 s t ∧ t.memory = s.memory ∧ t.mem = s.mem) ∧
      (k.seq = look (erlPort p s).expect 2 0 → rxFill p 2 s < 16 → reserved (erlPort p s) < 8 → ∃ t, exec (.readRequest p k) s = .next t ∧
        get (ERL_PORT_CNT.REFUSED p) t = get (ERL_PORT_CNT.REFUSED p) s + 1 ∧ logs 0x0E07 p 0 0 s t ∧
        (erlPort p t).tx = (erlPort p s).tx ++ [⟨3, 0, 0, k.tag, 1, List.replicate 64 0, 0⟩] ∧ t.memory = s.memory ∧ t.mem = s.mem)) ∧
    (∀ (n : Fin 32) w, k.seq = look (erlPort p s).expect 3 0 → (erlPort p s).reads = [⟨k.tag, n, w⟩] → k.status = 0 → s.dma.chans.length = 32 →
      (chOf n s).active = true → (chOf n s).aborting = none → ∃ t, exec (.completion p k) s = .next t ∧ (erlPort p t).reads = [] ∧
        chOf n t = { chOf n s with inFlight := (chOf n s).inFlight - 1, staged := (chOf n s).staged ++ [⟨s.now, k.data.take 64⟩] } ∧ t.mem = s.mem) ∧
    (∀ vc seq c, ∃ t, exec (.linkAck p vc seq c) s = .next t ∧ creditsOf vc (erlPort p t) = Nat.min 16 (creditsOf vc (erlPort p s) + c) ∧
      (∀ x, x ∈ (erlPort p t).replay ↔ x ∈ (erlPort p s).replay ∧ ¬ (x.vc = vc ∧ (seq + 4096 - x.seq) % 4096 < 2048)) ∧ t.regs = s.regs ∧
      t.mem = s.mem) ∧
    (∀ x, (erlPort p s).replay = [x] → get (ERL_PORT_CNT.REPLAY p) s < 255 →
      (∃ t, exec (.nak p x.vc x.seq) s = .next t ∧ get (ERL_PORT_CNT.REPLAY p) t = get (ERL_PORT_CNT.REPLAY p) s + 1 ∧
        (erlPort p t).sentAt = s.now ∧ (erlPort p t).replay = [x] ∧ keepsFields [ERL_PORT_CNT.REPLAY p] s t) ∧
      ((erlPort p s).sentAt + 2048 ≤ s.now → ∃ t, exec (.replayTimeout p) s = .next t ∧
        get (ERL_PORT_CNT.REPLAY p) t = get (ERL_PORT_CNT.REPLAY p) s + 1 ∧ (erlPort p t).sentAt = s.now ∧ (erlPort p t).replay = [x])) ∧
    (∀ r, (erlPort p s).reads = [r] → r.since + 101376 ≤ s.now → (chOf r.chan s).active = false → ∃ t, exec (.remoteReadTimeout p) s = .next t ∧
      (erlPort p t).reads = [] ∧ logs 0x0E06 r.chan 0 0 s t ∧ t.mem = s.mem) ∧
    ((erlPort 0 s).waiting = [] → (erlPort 1 s).waiting = [] → ∃ t, exec .rateInterval s = .next t ∧ (erlPort p t).rateFrom = rateIndex s ∧
      ((erlPort p s).rateFrom ≠ rateIndex s → (erlPort p t).admitted = []) ∧ t.regs = s.regs ∧ t.mem = s.mem)

/-! ## Clocks and references -/

/-- R490, R491: CLK_TIME_CMD asks for a step of the tick count, which applies in the first slot of a plan period, and is refused while the engine
runs and on a timing slave. A loss of lock clears LOCK, logs 0x0F05 and requests a global abort; LOCK returns after 1 ms. R502, R503, R506: a
forced switch takes a GOOD reference and is refused for another; a glide ends in its time. R496, R498, R500, R505, R507: the edges of a complete
window join the history of each present, enabled reference and of the crystal; a lost reference is LOST and raises its event. The first PPS edge
is accepted and raises its event, and one too far from its second is counted and logged. -/
def Obligations.ClocksStepLockSwitchAndMonitor : Prop :=
  (∀ (s : State),
    (s.record.running = false → get ERL_STAT.ROLE s ≠ 2 → ∃ t, exec (.clkTimeGo 1) s = .next t ∧
      t = { s with clk.step := s.clk.step ++ [(s.now, .load (get CLK_TIME_SET_LO.TICK s + 2 ^ 32 * get CLK_TIME_SET_HI.TICK s))] }) ∧
    (s.record.running = true ∨ get ERL_STAT.ROLE s = 2 → ∃ t, exec (.clkTimeGo 1) s = .next t ∧ get CLK_STAT.TIME_REFUSED t = 1 ∧
      keepsFields [CLK_STAT.TIME_REFUSED] s t ∧ t = { s with regs := t.regs }) ∧
    (∀ w v, s.tickOn = true → s.now % 4096 = 0 → s.clk.step = [(w, .load v)] → w < s.now → ∃ t, exec .tickStep s = .next t ∧ tick t = v ∧
      t.clk.step = [] ∧ t.now = s.now ∧ t.regs = s.regs ∧ t.mem = s.mem) ∧
    (s.now % 4096 ≠ 0 → ∃ t, exec .tickStep s = .next t ∧ t = s) ∧
    (get CLK_STAT.LOCK s = 1 → s.boot.phase = .done → s.pwr.fabricStopped = false → s.abort.since = none → get LOG_ABORT_STAT.COUNT s < 255 →
      ∃ t, exec .scsUnlock s = .next t ∧ get CLK_STAT.LOCK t = 0 ∧ logs 0x0F05 0 0 0 s t ∧ t.clk.relockFrom = s.now ∧
        t.abort.since = some s.now ∧ get LOG_ABORT_STAT.SRC t = 8 ∧ get LOG_ABORT_STAT.BUSY t = 1 ∧
        get LOG_ABORT_STAT.COUNT t = get LOG_ABORT_STAT.COUNT s + 1 ∧ t.mem = s.mem) ∧
    (s.tickOn = true → get CLK_STAT.LOCK s = 0 → s.clk.relockFrom + 1024000 ≤ s.now → ∃ t, exec .scsRelock s = .next t ∧ t = set CLK_STAT.LOCK 1 s) ∧
    (∀ v, bits v 0 5 = get CLK_REF_CTRL.EN s → bits v 12 3 = 1 → bit v 15 = true → get CLK_STAT.IN_USE s = 0 →
      (refClass 1 s = 1 → get CLK_STAT.SWITCHES s < 65535 → get ERL_STAT.ROLE s ≠ 2 → ∃ t, exec (.forceGo v) s = .next t ∧
        get CLK_STAT.IN_USE t = 1 ∧ get CLK_STAT.GLIDE t = 1 ∧ get CLK_STAT.HOLDOVER t = 0 ∧
        get CLK_STAT.SWITCHES t = get CLK_STAT.SWITCHES s + 1 ∧ logs 0x0F03 1 0 0 s t ∧ raises 0x38 s t ∧
        t.clk.switches = s.clk.switches ++ [nowLsb s] ∧ t.mem = s.mem) ∧
      (refClass 1 s ≠ 1 → ∃ t, exec (.forceGo v) s = .next t ∧ get CLK_STAT.IN_USE t = 0 ∧ get CLK_REF_CTRL.FORCE_REFUSED t = 1 ∧ t.log = s.log ∧
        t.clk = s.clk)) ∧
    (get CLK_STAT.GLIDE s = 1 → s.clk.glideUntil ≤ s.now → ∃ t, exec .glideEnd s = .next t ∧ t = set CLK_STAT.GLIDE 0 s)) ∧
  (∀ (s : State),
    (∀ counts : List Nat, s.clk.refs.length = 5 → windowEndNow s = true → get PWR_STAT.RUNG s < 3 →
      s.clk.windowFrom + ticks1s - 3 ≤ 4 * (s.now : Int) + s.tickAdj →
      ∃ t, exec (.refWindowEnd counts) s = .next t ∧ t.clk.xtal = (nth counts 4 0 :: s.clk.xtal).take 10 ∧ t.mem = s.mem ∧
        (∀ i < 2, refEnabled i s = true → (refOf i s).present = true → 0 < nth counts i 0 →
          (refOf i t).edges = (nth counts i 0 :: (refOf i s).edges).take 10 ∧ (refOf i t).windows = (refOf i s).windows + 1)) ∧
    (∀ counts : List Nat, windowEndNow s = false → ∃ t, exec (.refWindowEnd counts) s = .next t ∧ t = s) ∧
    (∀ i < 2, s.tickOn = true → refClass i s ≠ 4 → ∃ t, exec (.refLoss i) s = .next t ∧ refClass i t = 4 ∧ (refOf i t).present = false ∧
      raises 0x39 s t ∧ t.mem = s.mem) ∧
    (∀ x : Int, s.tickOn = true → s.clk.ppsEdges = [] → get CLK_PPS_CTRL.DISC s = 0 → get CLK_PPS_CNT.ACCEPT s < 65535 →
      ∃ t, exec (.ppsEdge x) s = .next t ∧ t.clk = { s.clk with ppsEdges := [x] } ∧ get CLK_PPS_CNT.ACCEPT t = get CLK_PPS_CNT.ACCEPT s + 1 ∧
        raises 0xD1 s t ∧ keepsFields [CLK_PPS_CNT.ACCEPT] s t) ∧
    (∀ x : Int, s.tickOn = true → ppsAccepted x s = false → s.clk.ppsLogged = false → get CLK_PPS_CNT.REJECT s < 65535 →
      ∃ t, exec (.ppsEdge x) s = .next t ∧ get CLK_PPS_CNT.REJECT t = get CLK_PPS_CNT.REJECT s + 1 ∧ logs 0x0F07 0 0 1 s t ∧
        t.clk = { s.clk with ppsLogged := true } ∧ t.evt = s.evt))

/-! ## The power ladder and the adaptive supply -/

/-- R515, R516, R517, R518, R522: a RUN demand takes the device to RUN, and its end to REST. A move is refused with cause 1 while RUN is
demanded, with cause 2 to DOZE while work is under way, and to RUN or a reserved rung with cause 3; each refusal logs 0x1003. An entry is
complete when the fabric may stop; a wake that is enabled, and a RUN demand, starts the exit, which PWR_GOOD lets end in IDLE or RUN at the next
period, the periods that passed counted in SQ_SLOT. -/
def Obligations.RungsFollowDemandsAndWakes : Prop :=
  ∀ (s : State),
    let rung := get PWR_STAT.RUNG s
    let refused := fun (c : Nat) (t : State) => get PWR_STAT.REFUSED t = 1 ∧ get PWR_STAT.CAUSE t = c ∧ logs 0x1003 0 0 c s t ∧ t.pwr = s.pwr ∧
      get PWR_STAT.RUNG t = rung
    (runWanted s = true → s.pwr.fabricStopped = false → rung ≠ 0 → get PWR_CNT.MOVES s < 65535 → ∃ t, exec .runDemand s = .next t ∧
      get PWR_STAT.RUNG t = 0 ∧ get PWR_STAT.MOVING t = 1 ∧ t.pwr.exit = some ⟨rung, false, s.now⟩ ∧ t.pwr.entry = none ∧
      get PWR_CNT.MOVES t = get PWR_CNT.MOVES s + 1 ∧ keepsFields [PWR_STAT.RUNG, PWR_STAT.MOVING, PWR_CNT.MOVES] s t) ∧
    (runWanted s = true → s.pwr.fabricStopped = true → s.pwr.exit = none → rung ≠ 0 → get PWR_CNT.MOVES s < 65535 → ∃ t, exec .runDemand s = .next t ∧
      t.pwr = { s.pwr with exit := some ⟨rung, false, s.now⟩, lateLogged := false, good := s.pwr.good && rung == 3 } ∧ get PWR_STAT.RUNG t = 0 ∧
      get PWR_STAT.MOVING t = 1 ∧ get PWR_CNT.MOVES t = get PWR_CNT.MOVES s + 1 ∧
      keepsFields [PWR_STAT.RUNG, PWR_STAT.MOVING, PWR_CNT.MOVES] s t ∧ t.mem = s.mem) ∧
    (runWanted s = false → s.pwr.fabricStopped = false → s.pwr.policy = none → rung = 0 → ∃ t, exec .restDrop s = .next t ∧
      get PWR_STAT.RUNG t = (if get PWR_CTRL.REST s = 2 then 2 else 1) ∧ get AMP_STAT.STATE t = 0 ∧ t.line.tdrPulse = none ∧ t.line.lasPulse = none ∧
      get STM_AUDIO_STAT.RUNNING t = 0 ∧ t.log = s.log) ∧
    (∀ v, bits v 4 3 = get PWR_CTRL.REST s → bits v 8 1 = get PWR_CTRL.HOLD_RUN s → s.pwr.fabricStopped = false →
      (runWanted s = true → ∃ t, exec (.target v) s = .next t ∧ refused 1 t) ∧
      (runWanted s = false → bits v 0 3 = 0 ∨ bits v 0 3 = 6 ∨ bits v 0 3 = 7 → ∃ t, exec (.target v) s = .next t ∧ refused 3 t) ∧
      (runWanted s = false → 3 ≤ bits v 0 3 → bits v 0 3 ≤ 5 → busyForDoze s = true → ∃ t, exec (.target v) s = .next t ∧ refused 2 t) ∧
      (runWanted s = false → 3 ≤ bits v 0 3 → bits v 0 3 ≤ 5 → busyForDoze s = false → ∃ t, exec (.target v) s = .next t ∧
        t.pwr = { s.pwr with entry := some (bits v 0 3) } ∧ get PWR_STAT.MOVING t = 1 ∧ get PWR_STAT.RUNG t = rung ∧ t.log = s.log) ∧
      (runWanted s = false → bits v 0 3 = 1 ∨ bits v 0 3 = 2 → ∃ t, exec (.target v) s = .next t ∧ get PWR_STAT.RUNG t = bits v 0 3 ∧
        t.pwr.entry = none ∧ t.log = s.log)) ∧
    (∀ r, s.pwr.entry = some r → 3 ≤ r → r ≤ 5 → entryReady s = true → runWanted s = false → ∃ t, exec .ladderEntryComplete s = .next t ∧
      get PWR_STAT.RUNG t = r ∧ get PWR_STAT.MOVING t = 0 ∧ t.pwr.entry = none ∧ t.pwr.fabricStopped = true ∧ get KRB_STAT.READY t = 0 ∧
      (4 ≤ r → get CLK_STAT.LOCK t = 0) ∧ (r = 5 → get BLV_STAT.UP t = 0) ∧ (r ≠ 5 → t.mem = s.mem)) ∧
    (s.pwr.fabricStopped = true → s.pwr.exit = none → ∀ c ∈ [(Instr.wakeN, 0, 1), (.sp1CsWake, 1, 2), (.wakeTimer, 7, 5)],
      bit (get PWR_WAKE_EN.EN s) c.2.1 = true → s.boot.presN = false → get PWR_WAKE_TMR.CYCLES s ≠ 0 → ∃ t, exec c.1 s = .next t ∧
      t.pwr.exit = some ⟨rung, false, s.now⟩ ∧ get PWR_STAT.WAKE_CAUSE t = c.2.2 ∧ get PWR_STAT.MOVING t = 1 ∧ t.pwr.good = (s.pwr.good && rung == 3)) ∧
    (bit (get PWR_WAKE_EN.EN s) 0 = false → ∃ t, exec .wakeN s = .next t ∧ t = s) ∧
    (∀ x, s.pwr.exit = some x → x.from_ ≤ 2 → s.record.startWaits = false → ∀ p c, ∃ t, exec (.ladderExitComplete p c) s = .next t ∧
      t.pwr = { s.pwr with exit := none } ∧ get PWR_STAT.MOVING t = 0 ∧ keepsFields [PWR_STAT.MOVING] s t ∧ t.mem = s.mem) ∧
    (∀ x p c, s.pwr.exit = some x → x.from_ = 3 → x.idle = true → s.pwr.good = true → s.abort.held = 0 → s.record.startWaits = false →
      ∃ t, exec (.ladderExitComplete p c) s = .next t ∧ get PWR_STAT.RUNG t = 2 ∧ get PWR_STAT.MOVING t = 0 ∧ t.pwr.exit = none ∧
        t.pwr.fabricStopped = false ∧ t.now = s.now / 4096 * 4096 + 4096 * (p + 1) ∧ t.tickAdj = s.tickAdj ∧ get SQ_SLOT.SLOT t = 0 ∧
        get SQ_SLOT.PERIODS t = (s.now / 4096 + p + 1) % 2 ^ SQ_SLOT.PERIODS.width ∧ t.plan.active = s.plan.active ∧ t.mem = s.mem)

/-- R521, R524 to R526, R44: PWR_GOOD that rises in an exit from NAP powers the Square up with zeros and restores LOCK; one that comes late is
logged, and a rail lost in RUN logs 0x1005 and requests a global abort. An evaluation moves VID by one code toward the target margin, is pinned
at CEIL, and a negative margin enters MARGIN_STOP. Limits with FLOOR above CEIL are refused. -/
def Obligations.SupplyIsWatchedAndAdapts : Prop :=
  ∀ (s : State),
    let vid := get PWR_AVS_STAT.VID s
    (∀ x, s.pwr.good = false → s.pwr.exit = some x → x.from_ = 4 → ∃ t, exec .pwrGoodRise s = .next t ∧ t.pwr.good = true ∧ get PWR_STAT.PG t = 1 ∧
      get CLK_STAT.LOCK t = 1 ∧ (∀ a : Nat, inSquare a = true → readByte a t = 0)) ∧
    (s.pwr.exit.isSome = true → s.pwr.good = false → s.pwr.lateLogged = false → ∃ t, exec .pwrGoodLate s = .next t ∧ logs 0x1004 0 0 0 s t ∧
      t.pwr = { s.pwr with lateLogged := true } ∧ t.mem = s.mem) ∧
    (s.pwr.good = true → s.boot.phase = .done → s.pwr.fabricStopped = false → s.abort.since = none → ∃ t, exec .pwrGoodLoss s = .next t ∧
      get PWR_STAT.PG t = 0 ∧ t.pwr.good = false ∧ logs 0x1005 0 0 0 s t ∧ t.abort.since = some s.now ∧ get LOG_ABORT_STAT.SRC t = 8) ∧
    (∀ m : Int, s.tickOn = true → s.pwr.fabricStopped = false → s.pwr.lastEval = none →
      (0 ≤ m → m < get PWR_AVS_CFG.TGT s → get PWR_AVS_LIM.FLOOR s ≤ vid → vid < get PWR_AVS_LIM.CEIL s → vid < 40 →
        ∃ t, exec (.avsEvaluation [m]) s = .next t ∧ get PWR_AVS_STAT.VID t = vid + 1 ∧ get PWR_AVS_STAT.PINNED t = 0 ∧
          get PWR_AVS_STAT.MARGIN t = toBits 16 m ∧ t.pwr.lastEval = some s.now ∧ t.log = s.log) ∧
      (0 ≤ m → m < get PWR_AVS_CFG.TGT s → vid = get PWR_AVS_LIM.CEIL s → vid ≤ 40 → get PWR_AVS_STAT.PINNED s = 0 → get PWR_CNT.PINS s < 65535 →
        ∃ t, exec (.avsEvaluation [m]) s = .next t ∧ get PWR_AVS_STAT.VID t = vid ∧ get PWR_AVS_STAT.PINNED t = 1 ∧
          get PWR_CNT.PINS t = get PWR_CNT.PINS s + 1 ∧ logs 0x1001 0 0 0 s t ∧ raises 0x3C s t) ∧
      (m < 0 → get PWR_AVS_LIM.FLOOR s ≤ vid → vid < get PWR_AVS_LIM.CEIL s → vid < 40 → bit (get SQ_PLAN_STAT.MSTOP_CAUSE s) 1 = false →
        get SQ_PLAN_STAT.MARGIN_STOP s = 0 → ∃ t, exec (.avsEvaluation [m]) s = .next t ∧ get PWR_AVS_STAT.VID t = vid + 1 ∧
          get PWR_AVS_STAT.NEG t = 1 ∧ get SQ_PLAN_STAT.MARGIN_STOP t = 1 ∧ bit (get SQ_PLAN_STAT.MSTOP_CAUSE t) 1 = true ∧ logs 0x1002 0 0 0 s t ∧
          raises 0x26 s t)) ∧
    (∀ v, bits v 0 6 ≤ bits v 8 6 → ∃ t, exec (.avsLimWrite v) s = .next t ∧ get PWR_AVS_LIM.FLOOR t = bits v 0 6 ∧
      get PWR_AVS_LIM.CEIL t = bits v 8 6 ∧ keepsFields [PWR_AVS_LIM.FLOOR, PWR_AVS_LIM.CEIL] s t ∧ t = { s with regs := t.regs }) ∧
    (∀ v, bits v 8 6 < bits v 0 6 → ∃ t, exec (.avsLimWrite v) s = .next t ∧ get PWR_STAT.REFUSED t = 1 ∧ get PWR_STAT.CAUSE t = 3 ∧
      keepsFields [PWR_STAT.REFUSED, PWR_STAT.CAUSE] s t ∧ t = { s with regs := t.regs })

/-! ## The error log, the global abort and supply loss -/

/-- R528, R530, R531: the Alley's turn writes the oldest waiting entry into the ring at WR, which moves on; LOG_POP takes the oldest entry of the
ring, and CLEAR all. R94, R544, R545: a rail loss resets all but the always-on domain: the ledger, TRY_SLOT and the retained log survive,
LOG_RST_CAUSE tells the rung and the cause; a reset of VDD_AO resets these as well. R559: the monitors of rails that DORMANT has off are masked.
Memory lists nothing and no plan runs after either. -/
def Obligations.LogRingAndSupplyLossKeepTheRecord : Prop :=
  (∀ (s : State),
    (∀ e rest, s.memory.logTurn = some s.now → s.log.hold = e :: rest → get LOG_IDX.WR s < 256 → get LOG_STAT.DEPTH s < 256 → s.memory.upsets = [] →
      let a := 0x60000000 + 0x1880000 + 32 * get LOG_IDX.WR s
      ∃ t, exec .logEntryWrite s = .next t ∧ (∀ i < 32, readByte (a + i) t = BitVec.ofNat 8 (nth (entryBytes e) i 0)) ∧ keepsMemBut a 32 s t ∧
        get LOG_IDX.WR t = (get LOG_IDX.WR s + 1) % 256 ∧ get LOG_STAT.DEPTH t = get LOG_STAT.DEPTH s + 1 ∧ t.log.hold = rest ∧ raises 0x3D s t ∧
        keepsFields [LOG_IDX.WR, LOG_STAT.DEPTH] s t) ∧
    (0 < get LOG_STAT.DEPTH s → get LOG_STAT.DEPTH s ≤ 256 → ∃ t, exec .logPop s = .next t ∧ get LOG_STAT.DEPTH t = get LOG_STAT.DEPTH s - 1 ∧
      get LOG_IDX.RD t = (get LOG_IDX.RD s + 1) % 256 ∧ keepsFields [LOG_STAT.DEPTH, LOG_IDX.RD] s t ∧ t = { s with regs := t.regs }) ∧
    (get LOG_STAT.DEPTH s = 0 → ∃ t, exec .logPop s = .next t ∧ t = s) ∧
    ∃ t, exec .logClear s = .next t ∧ get LOG_STAT.DEPTH t = 0 ∧ get LOG_IDX.RD t = get LOG_IDX.WR s % 256 ∧
      keepsFields [LOG_STAT.DEPTH, LOG_IDX.RD] s t ∧ t = { s with regs := t.regs }) ∧
  (∀ (s : State),
    let reset := fun (t : State) => t.mem = [] ∧ t.plan = State.reset.plan ∧ t.seq = State.reset.seq ∧ t.record = State.reset.record ∧
      t.dma = State.reset.dma ∧ t.log.hold = [] ∧ t.tickOn = false ∧ t.boot.phase = .held ∧ t.boot.presN = s.boot.presN ∧ t.pending = s.pending
    (∀ rail, rail < 3 →
      (2 ≤ rail ∨ railsMasked s = false → ∃ t, exec (.railLoss rail) s = .next t ∧ reset t ∧ t.boot.ledger = s.boot.ledger ∧
        t.log.retained = s.log.retained ∧ get SYS_BOOT_CTRL.TRY_SLOT t = get SYS_BOOT_CTRL.TRY_SLOT s % 4 ∧ get LOG_RST_CAUSE.CAUSE t = 1 ∧
        get LOG_RST_CAUSE.LAST_RUNG t = get PWR_STAT.RUNG s % 8 ∧ get LOG_RST_CAUSE.WRITING t = b2n s.boot.write.isSome ∧
        get PWR_STAT.RUNG t = 2 ∧ get SYS_MODE.MODE t = 0) ∧
      (rail < 2 → railsMasked s = true → ∃ t, exec (.railLoss rail) s = .next t ∧ t = s)) ∧
    ∃ t, exec .vddAoReset s = .next t ∧ reset t ∧ (∀ F : Fld, get F t = F.reset) ∧ t.boot.ledger = State.reset.boot.ledger ∧
      t.log.retained = [])

/-- R537 to R541: a request for a global abort starts one, joins one in progress, or is held during boot; ABORT_N counts only with the host's
pins in place. In the next slot the abort drops every record, clears every trigger unit's state, ends the pulses and empties the serial queues;
when all has stopped the device is in IDLE, and 0x1101 records the time and the sources. -/
def Obligations.GlobalAbortsStopTheUnits : Prop :=
  ∀ (s : State),
    let starts := fun (src : Nat) (t : State) => t.abort = { s.abort with since := some s.now, acted := false } ∧ get LOG_ABORT_STAT.SRC t = src ∧
      get LOG_ABORT_STAT.BUSY t = 1 ∧ get LOG_ABORT_STAT.COUNT t = get LOG_ABORT_STAT.COUNT s + 1 ∧
      keepsFields [LOG_ABORT_STAT.SRC, LOG_ABORT_STAT.BUSY, LOG_ABORT_STAT.COUNT] s t ∧ t.mem = s.mem
    (s.boot.phase = .done → s.pwr.fabricStopped = false → s.abort.since = none → get LOG_ABORT_STAT.COUNT s < 255 →
      (∃ t, exec .reqGlobalAbort s = .next t ∧ starts 4 t) ∧
      (s.boot.presN = false → s.boot.sp1Open = true → s.pwr.entry = none → ∃ t, exec .abortN s = .next t ∧ starts 1 t)) ∧
    (s.boot.presN = true → ∃ t, exec .abortN s = .next t ∧ t = s) ∧
    (s.boot.phase = .done → s.pwr.fabricStopped = false → s.abort.since.isSome = true → get LOG_ABORT_STAT.MERGED s < 255 →
      ∃ t, exec .reqGlobalAbort s = .next t ∧ get LOG_ABORT_STAT.MERGED t = get LOG_ABORT_STAT.MERGED s + 1 ∧
        get LOG_ABORT_STAT.SRC t = (get LOG_ABORT_STAT.SRC s ||| 4) % 16 ∧ t.abort = s.abort) ∧
    (s.boot.phase = .streaming → bit s.abort.held 2 = false → ∃ t, exec .reqGlobalAbort s = .next t ∧ t = { s with abort.held := s.abort.held ||| 4 }) ∧
    (∀ w, s.abort.since = some w → s.abort.acted = false → w < s.now → s.pwr.fabricStopped = false → ∃ t, exec .globalAbort s = .next t ∧
      t.abort = { s.abort with acted := true } ∧ t.record.recs = [] ∧ t.record.running = false ∧
      (∀ n < 4, unitOf n t = {} ∧ app (TRG_CTRL.ENABLE n) t = app (TRG_CTRL.ENABLE n) s) ∧
      t.line.tdrPulse = none ∧ t.line.lasPulse = none ∧ t.sp.p0.queue = [] ∧ t.sp.p2.queue = [] ∧ get PWR_CTRL.HOLD_RUN t = 0 ∧ t.pwr = s.pwr) ∧
    (∀ w, s.abort.since = some w → s.abort.acted = true → abortDone s = true → ∃ t, exec .globalAbortComplete s = .next t ∧
      t.abort = { s.abort with since := none, acted := false } ∧ get PWR_STAT.RUNG t = 2 ∧ get LOG_ABORT_STAT.BUSY t = 0 ∧
      get LOG_ABORT_TIME.LAST t = Nat.min 65535 (s.now - w) ∧ logs 0x1101 0 (s.now - w) (get LOG_ABORT_STAT.SRC s) s t ∧ t.mem = s.mem)

/-! ## The register bus and the test port -/

/-- R257, R549, R575: a write of a mapped register sets its RW fields and leaves the RO ones, one of an unmapped address is dropped and logged as
0x0605. R550, R551: a broadcast write is a write of each selected unit, and a broadcast read of units that differ sets the mismatch flag. R572,
R573: the test port loads its instructions, codes not listed as BYPASS, and REGACC reads and writes registers on the test path only. -/
def Obligations.RegistersAreReachedByTheirAddresses : Prop :=
  ∀ (s : State) (v : Nat),
    (∃ t, exec (.registerWrite REC_LEN.addr v) s = .next t ∧ get REC_LEN.LENGTH t = v % 2 ^ 25 ∧ keepsFields [REC_LEN.LENGTH] s t ∧
      t = { s with regs := t.regs }) ∧
    (∃ t, exec (.registerWrite SYS_ID.addr v) s = .next t ∧ t = s) ∧
    (∀ a, busMapped a = false → ∃ t, exec (.registerWrite a v) s = .next t ∧ t.log = (faultAddr 0x0605 0 a s).log ∧
      keepsFields [LOG_ESEQ.NEXT, LOG_STAT.LOST] s t ∧ t = { s with regs := t.regs, log := t.log }) ∧
    busMapped 0x40000004 = true ∧ busMapped 0x40F00000 = false ∧
    (get TRG_BCAST_GROUP.MASK s = 5 → ∃ t, exec (.broadcastWrite (0x4020F000 + 4) v) s = .next t ∧
      (∀ n ∈ [0, 2], get (TRG_LEVEL.LVL_A n) t = v % 2 ^ 12 ∧ get (TRG_LEVEL.LVL_B n) t = v / 2 ^ 16 % 2 ^ 12) ∧
      keepsFields [TRG_LEVEL.LVL_A 0, TRG_LEVEL.LVL_B 0, TRG_LEVEL.LVL_A 2, TRG_LEVEL.LVL_B 2] s t ∧ t = { s with regs := t.regs }) ∧
    (get TRG_BCAST_GROUP.MASK s = 3 → get (TRG_LEVEL.LVL_B 0) s = get (TRG_LEVEL.LVL_B 1) s → ∃ t, exec (.broadcastRead (0x4020F000 + 4)) s = .next t ∧
      get TRG_GSTAT.BCAST_MISMATCH t = (if get (TRG_LEVEL.LVL_A 0) s = get (TRG_LEVEL.LVL_A 1) s then get TRG_GSTAT.BCAST_MISMATCH s else 1) ∧
      (∀ n < 4, get (TRG_LEVEL.LVL_A n) t = get (TRG_LEVEL.LVL_A n) s) ∧ t.mem = s.mem) ∧
    (∃ t, exec (.testInstruction v) s = .next t ∧ t = { s with jtag.instruction := if v % 16 ∈ [0, 1, 2, 3, 4, 8] then v % 16 else 15 }) ∧
    (s.boot.phase = .test →
      (∃ t, exec (.regacc REC_LEN.addr true v) s = .next t ∧ get REC_LEN.LENGTH t = v % 2 ^ 25 ∧ keepsFields [REC_LEN.LENGTH] s t ∧
        t.jtag = ⟨8, v % 2 ^ 32, true⟩ ∧ t.mem = s.mem) ∧
      ∃ t, exec (.regacc SYS_ID.addr false 0) s = .next t ∧ t.jtag = ⟨8, regValue SYS_ID.addr s % 2 ^ 32, true⟩ ∧ t.mem = s.mem) ∧
    (s.boot.phase ≠ .test → ∀ a w, ∃ t, exec (.regacc a w v) s = .next t ∧ t = { s with jtag.instruction := 8 })

/-! ## The memory's form -/

/-- Memory is kept in one form: addresses rise strictly and no entry equals what an unlisted address reads as. Every step that answers a next
state keeps it, whatever the command in front. The form is the model's own, not a rule of the spec (log entry 26). -/
def Obligations.EveryStepKeepsTheMemoryForm : Prop :=
  ∀ s t : State, Memory.wf (lossOf s) s.mem = true → step s = .next t → Memory.wf (lossOf t) t.mem = true

/-- At reset memory lists nothing, which is its form, and every byte below the Boulevard reads zero (log entry 26). -/
def Obligations.ResetHasTheMemoryForm : Prop :=
  State.reset.mem = [] ∧ Memory.wf (lossOf State.reset) State.reset.mem = true ∧ ∀ a : Nat, a < 0x100000000 → readByte a State.reset = 0
end

