-- ==== Sys2Proof/Laws/State.lean ====
section
/-! SUPPORT. One lemma for each field of the state and each named update: what the update leaves as it is. -/

namespace Sys2Proof.Machine

/-! ## Register fields -/

@[simp] theorem set_now (F : Fld) (v : Nat) (s : State) : (set F v s).now = s.now := rfl
@[simp] theorem set_tickOn (F : Fld) (v : Nat) (s : State) : (set F v s).tickOn = s.tickOn := rfl
@[simp] theorem set_tickAdj (F : Fld) (v : Nat) (s : State) : (set F v s).tickAdj = s.tickAdj := rfl
@[simp] theorem set_committed (F : Fld) (v : Nat) (s : State) : (set F v s).committed = s.committed := rfl
@[simp] theorem set_applied (F : Fld) (v : Nat) (s : State) : (set F v s).applied = s.applied := rfl
@[simp] theorem set_mem (F : Fld) (v : Nat) (s : State) : (set F v s).mem = s.mem := rfl
@[simp] theorem set_plan (F : Fld) (v : Nat) (s : State) : (set F v s).plan = s.plan := rfl
@[simp] theorem set_boot (F : Fld) (v : Nat) (s : State) : (set F v s).boot = s.boot := rfl
@[simp] theorem set_log (F : Fld) (v : Nat) (s : State) : (set F v s).log = s.log := rfl
@[simp] theorem set_evt (F : Fld) (v : Nat) (s : State) : (set F v s).evt = s.evt := rfl
@[simp] theorem set_abort (F : Fld) (v : Nat) (s : State) : (set F v s).abort = s.abort := rfl
@[simp] theorem set_ave (F : Fld) (v : Nat) (s : State) : (set F v s).ave = s.ave := rfl
@[simp] theorem set_trg (F : Fld) (v : Nat) (s : State) : (set F v s).trg = s.trg := rfl
@[simp] theorem set_record (F : Fld) (v : Nat) (s : State) : (set F v s).record = s.record := rfl
@[simp] theorem set_red (F : Fld) (v : Nat) (s : State) : (set F v s).red = s.red := rfl
@[simp] theorem set_memory (F : Fld) (v : Nat) (s : State) : (set F v s).memory = s.memory := rfl
@[simp] theorem set_dma (F : Fld) (v : Nat) (s : State) : (set F v s).dma = s.dma := rfl
@[simp] theorem set_seq (F : Fld) (v : Nat) (s : State) : (set F v s).seq = s.seq := rfl
@[simp] theorem set_sp (F : Fld) (v : Nat) (s : State) : (set F v s).sp = s.sp := rfl
@[simp] theorem set_hfr (F : Fld) (v : Nat) (s : State) : (set F v s).hfr = s.hfr := rfl
@[simp] theorem set_dsp (F : Fld) (v : Nat) (s : State) : (set F v s).dsp = s.dsp := rfl
@[simp] theorem set_line (F : Fld) (v : Nat) (s : State) : (set F v s).line = s.line := rfl
@[simp] theorem set_erl (F : Fld) (v : Nat) (s : State) : (set F v s).erl = s.erl := rfl
@[simp] theorem set_clk (F : Fld) (v : Nat) (s : State) : (set F v s).clk = s.clk := rfl
@[simp] theorem set_pwr (F : Fld) (v : Nat) (s : State) : (set F v s).pwr = s.pwr := rfl
@[simp] theorem set_jtag (F : Fld) (v : Nat) (s : State) : (set F v s).jtag = s.jtag := rfl
@[simp] theorem set_freeCtr (F : Fld) (v : Nat) (s : State) : (set F v s).freeCtr = s.freeCtr := rfl
@[simp] theorem set_pending (F : Fld) (v : Nat) (s : State) : (set F v s).pending = s.pending := rfl
@[simp] theorem setB_now (F : Fld) (b : Bool) (s : State) : (setB F b s).now = s.now := rfl
@[simp] theorem setB_tickOn (F : Fld) (b : Bool) (s : State) : (setB F b s).tickOn = s.tickOn := rfl
@[simp] theorem setB_tickAdj (F : Fld) (b : Bool) (s : State) : (setB F b s).tickAdj = s.tickAdj := rfl
@[simp] theorem setB_committed (F : Fld) (b : Bool) (s : State) : (setB F b s).committed = s.committed := rfl
@[simp] theorem setB_applied (F : Fld) (b : Bool) (s : State) : (setB F b s).applied = s.applied := rfl
@[simp] theorem setB_mem (F : Fld) (b : Bool) (s : State) : (setB F b s).mem = s.mem := rfl
@[simp] theorem setB_plan (F : Fld) (b : Bool) (s : State) : (setB F b s).plan = s.plan := rfl
@[simp] theorem setB_boot (F : Fld) (b : Bool) (s : State) : (setB F b s).boot = s.boot := rfl
@[simp] theorem setB_log (F : Fld) (b : Bool) (s : State) : (setB F b s).log = s.log := rfl
@[simp] theorem setB_evt (F : Fld) (b : Bool) (s : State) : (setB F b s).evt = s.evt := rfl
@[simp] theorem setB_abort (F : Fld) (b : Bool) (s : State) : (setB F b s).abort = s.abort := rfl
@[simp] theorem setB_ave (F : Fld) (b : Bool) (s : State) : (setB F b s).ave = s.ave := rfl
@[simp] theorem setB_trg (F : Fld) (b : Bool) (s : State) : (setB F b s).trg = s.trg := rfl
@[simp] theorem setB_record (F : Fld) (b : Bool) (s : State) : (setB F b s).record = s.record := rfl
@[simp] theorem setB_red (F : Fld) (b : Bool) (s : State) : (setB F b s).red = s.red := rfl
@[simp] theorem setB_memory (F : Fld) (b : Bool) (s : State) : (setB F b s).memory = s.memory := rfl
@[simp] theorem setB_dma (F : Fld) (b : Bool) (s : State) : (setB F b s).dma = s.dma := rfl
@[simp] theorem setB_seq (F : Fld) (b : Bool) (s : State) : (setB F b s).seq = s.seq := rfl
@[simp] theorem setB_sp (F : Fld) (b : Bool) (s : State) : (setB F b s).sp = s.sp := rfl
@[simp] theorem setB_hfr (F : Fld) (b : Bool) (s : State) : (setB F b s).hfr = s.hfr := rfl
@[simp] theorem setB_dsp (F : Fld) (b : Bool) (s : State) : (setB F b s).dsp = s.dsp := rfl
@[simp] theorem setB_line (F : Fld) (b : Bool) (s : State) : (setB F b s).line = s.line := rfl
@[simp] theorem setB_erl (F : Fld) (b : Bool) (s : State) : (setB F b s).erl = s.erl := rfl
@[simp] theorem setB_clk (F : Fld) (b : Bool) (s : State) : (setB F b s).clk = s.clk := rfl
@[simp] theorem setB_pwr (F : Fld) (b : Bool) (s : State) : (setB F b s).pwr = s.pwr := rfl
@[simp] theorem setB_jtag (F : Fld) (b : Bool) (s : State) : (setB F b s).jtag = s.jtag := rfl
@[simp] theorem setB_freeCtr (F : Fld) (b : Bool) (s : State) : (setB F b s).freeCtr = s.freeCtr := rfl
@[simp] theorem setB_pending (F : Fld) (b : Bool) (s : State) : (setB F b s).pending = s.pending := rfl
@[simp] theorem bump_now (F : Fld) (s : State) : (bump F s).now = s.now := rfl
@[simp] theorem bump_tickOn (F : Fld) (s : State) : (bump F s).tickOn = s.tickOn := rfl
@[simp] theorem bump_tickAdj (F : Fld) (s : State) : (bump F s).tickAdj = s.tickAdj := rfl
@[simp] theorem bump_committed (F : Fld) (s : State) : (bump F s).committed = s.committed := rfl
@[simp] theorem bump_applied (F : Fld) (s : State) : (bump F s).applied = s.applied := rfl
@[simp] theorem bump_mem (F : Fld) (s : State) : (bump F s).mem = s.mem := rfl
@[simp] theorem bump_plan (F : Fld) (s : State) : (bump F s).plan = s.plan := rfl
@[simp] theorem bump_boot (F : Fld) (s : State) : (bump F s).boot = s.boot := rfl
@[simp] theorem bump_log (F : Fld) (s : State) : (bump F s).log = s.log := rfl
@[simp] theorem bump_evt (F : Fld) (s : State) : (bump F s).evt = s.evt := rfl
@[simp] theorem bump_abort (F : Fld) (s : State) : (bump F s).abort = s.abort := rfl
@[simp] theorem bump_ave (F : Fld) (s : State) : (bump F s).ave = s.ave := rfl
@[simp] theorem bump_trg (F : Fld) (s : State) : (bump F s).trg = s.trg := rfl
@[simp] theorem bump_record (F : Fld) (s : State) : (bump F s).record = s.record := rfl
@[simp] theorem bump_red (F : Fld) (s : State) : (bump F s).red = s.red := rfl
@[simp] theorem bump_memory (F : Fld) (s : State) : (bump F s).memory = s.memory := rfl
@[simp] theorem bump_dma (F : Fld) (s : State) : (bump F s).dma = s.dma := rfl
@[simp] theorem bump_seq (F : Fld) (s : State) : (bump F s).seq = s.seq := rfl
@[simp] theorem bump_sp (F : Fld) (s : State) : (bump F s).sp = s.sp := rfl
@[simp] theorem bump_hfr (F : Fld) (s : State) : (bump F s).hfr = s.hfr := rfl
@[simp] theorem bump_dsp (F : Fld) (s : State) : (bump F s).dsp = s.dsp := rfl
@[simp] theorem bump_line (F : Fld) (s : State) : (bump F s).line = s.line := rfl
@[simp] theorem bump_erl (F : Fld) (s : State) : (bump F s).erl = s.erl := rfl
@[simp] theorem bump_clk (F : Fld) (s : State) : (bump F s).clk = s.clk := rfl
@[simp] theorem bump_pwr (F : Fld) (s : State) : (bump F s).pwr = s.pwr := rfl
@[simp] theorem bump_jtag (F : Fld) (s : State) : (bump F s).jtag = s.jtag := rfl
@[simp] theorem bump_freeCtr (F : Fld) (s : State) : (bump F s).freeCtr = s.freeCtr := rfl
@[simp] theorem bump_pending (F : Fld) (s : State) : (bump F s).pending = s.pending := rfl
@[simp] theorem count_now (F : Fld) (s : State) : (count F s).now = s.now := rfl
@[simp] theorem count_tickOn (F : Fld) (s : State) : (count F s).tickOn = s.tickOn := rfl
@[simp] theorem count_tickAdj (F : Fld) (s : State) : (count F s).tickAdj = s.tickAdj := rfl
@[simp] theorem count_committed (F : Fld) (s : State) : (count F s).committed = s.committed := rfl
@[simp] theorem count_applied (F : Fld) (s : State) : (count F s).applied = s.applied := rfl
@[simp] theorem count_mem (F : Fld) (s : State) : (count F s).mem = s.mem := rfl
@[simp] theorem count_plan (F : Fld) (s : State) : (count F s).plan = s.plan := rfl
@[simp] theorem count_boot (F : Fld) (s : State) : (count F s).boot = s.boot := rfl
@[simp] theorem count_log (F : Fld) (s : State) : (count F s).log = s.log := rfl
@[simp] theorem count_evt (F : Fld) (s : State) : (count F s).evt = s.evt := rfl
@[simp] theorem count_abort (F : Fld) (s : State) : (count F s).abort = s.abort := rfl
@[simp] theorem count_ave (F : Fld) (s : State) : (count F s).ave = s.ave := rfl
@[simp] theorem count_trg (F : Fld) (s : State) : (count F s).trg = s.trg := rfl
@[simp] theorem count_record (F : Fld) (s : State) : (count F s).record = s.record := rfl
@[simp] theorem count_red (F : Fld) (s : State) : (count F s).red = s.red := rfl
@[simp] theorem count_memory (F : Fld) (s : State) : (count F s).memory = s.memory := rfl
@[simp] theorem count_dma (F : Fld) (s : State) : (count F s).dma = s.dma := rfl
@[simp] theorem count_seq (F : Fld) (s : State) : (count F s).seq = s.seq := rfl
@[simp] theorem count_sp (F : Fld) (s : State) : (count F s).sp = s.sp := rfl
@[simp] theorem count_hfr (F : Fld) (s : State) : (count F s).hfr = s.hfr := rfl
@[simp] theorem count_dsp (F : Fld) (s : State) : (count F s).dsp = s.dsp := rfl
@[simp] theorem count_line (F : Fld) (s : State) : (count F s).line = s.line := rfl
@[simp] theorem count_erl (F : Fld) (s : State) : (count F s).erl = s.erl := rfl
@[simp] theorem count_clk (F : Fld) (s : State) : (count F s).clk = s.clk := rfl
@[simp] theorem count_pwr (F : Fld) (s : State) : (count F s).pwr = s.pwr := rfl
@[simp] theorem count_jtag (F : Fld) (s : State) : (count F s).jtag = s.jtag := rfl
@[simp] theorem count_freeCtr (F : Fld) (s : State) : (count F s).freeCtr = s.freeCtr := rfl
@[simp] theorem count_pending (F : Fld) (s : State) : (count F s).pending = s.pending := rfl

/-! ## Free values -/

@[simp] theorem draw_now  (s : State) : (draw  s).2.now = s.now := rfl
@[simp] theorem draw_tickOn  (s : State) : (draw  s).2.tickOn = s.tickOn := rfl
@[simp] theorem draw_tickAdj  (s : State) : (draw  s).2.tickAdj = s.tickAdj := rfl
@[simp] theorem draw_regs  (s : State) : (draw  s).2.regs = s.regs := rfl
@[simp] theorem draw_committed  (s : State) : (draw  s).2.committed = s.committed := rfl
@[simp] theorem draw_applied  (s : State) : (draw  s).2.applied = s.applied := rfl
@[simp] theorem draw_mem  (s : State) : (draw  s).2.mem = s.mem := rfl
@[simp] theorem draw_plan  (s : State) : (draw  s).2.plan = s.plan := rfl
@[simp] theorem draw_boot  (s : State) : (draw  s).2.boot = s.boot := rfl
@[simp] theorem draw_log  (s : State) : (draw  s).2.log = s.log := rfl
@[simp] theorem draw_evt  (s : State) : (draw  s).2.evt = s.evt := rfl
@[simp] theorem draw_abort  (s : State) : (draw  s).2.abort = s.abort := rfl
@[simp] theorem draw_ave  (s : State) : (draw  s).2.ave = s.ave := rfl
@[simp] theorem draw_trg  (s : State) : (draw  s).2.trg = s.trg := rfl
@[simp] theorem draw_record  (s : State) : (draw  s).2.record = s.record := rfl
@[simp] theorem draw_red  (s : State) : (draw  s).2.red = s.red := rfl
@[simp] theorem draw_memory  (s : State) : (draw  s).2.memory = s.memory := rfl
@[simp] theorem draw_dma  (s : State) : (draw  s).2.dma = s.dma := rfl
@[simp] theorem draw_seq  (s : State) : (draw  s).2.seq = s.seq := rfl
@[simp] theorem draw_sp  (s : State) : (draw  s).2.sp = s.sp := rfl
@[simp] theorem draw_hfr  (s : State) : (draw  s).2.hfr = s.hfr := rfl
@[simp] theorem draw_dsp  (s : State) : (draw  s).2.dsp = s.dsp := rfl
@[simp] theorem draw_line  (s : State) : (draw  s).2.line = s.line := rfl
@[simp] theorem draw_erl  (s : State) : (draw  s).2.erl = s.erl := rfl
@[simp] theorem draw_clk  (s : State) : (draw  s).2.clk = s.clk := rfl
@[simp] theorem draw_pwr  (s : State) : (draw  s).2.pwr = s.pwr := rfl
@[simp] theorem draw_jtag  (s : State) : (draw  s).2.jtag = s.jtag := rfl
@[simp] theorem draw_pending  (s : State) : (draw  s).2.pending = s.pending := rfl

/-! ## Faults and events -/

@[simp] theorem holdEntry_now (e : LogEntry) (s : State) : (holdEntry e s).now = s.now := by unfold holdEntry; dsimp only; split <;> rfl
@[simp] theorem holdEntry_tickOn (e : LogEntry) (s : State) : (holdEntry e s).tickOn = s.tickOn := by unfold holdEntry; dsimp only; split <;> rfl
@[simp] theorem holdEntry_tickAdj (e : LogEntry) (s : State) : (holdEntry e s).tickAdj = s.tickAdj := by unfold holdEntry; dsimp only; split <;> rfl
@[simp] theorem holdEntry_committed (e : LogEntry) (s : State) : (holdEntry e s).committed = s.committed := by unfold holdEntry; dsimp only; split <;> rfl
@[simp] theorem holdEntry_applied (e : LogEntry) (s : State) : (holdEntry e s).applied = s.applied := by unfold holdEntry; dsimp only; split <;> rfl
@[simp] theorem holdEntry_mem (e : LogEntry) (s : State) : (holdEntry e s).mem = s.mem := by unfold holdEntry; dsimp only; split <;> rfl
@[simp] theorem holdEntry_plan (e : LogEntry) (s : State) : (holdEntry e s).plan = s.plan := by unfold holdEntry; dsimp only; split <;> rfl
@[simp] theorem holdEntry_boot (e : LogEntry) (s : State) : (holdEntry e s).boot = s.boot := by unfold holdEntry; dsimp only; split <;> rfl
@[simp] theorem holdEntry_evt (e : LogEntry) (s : State) : (holdEntry e s).evt = s.evt := by unfold holdEntry; dsimp only; split <;> rfl
@[simp] theorem holdEntry_abort (e : LogEntry) (s : State) : (holdEntry e s).abort = s.abort := by unfold holdEntry; dsimp only; split <;> rfl
@[simp] theorem holdEntry_ave (e : LogEntry) (s : State) : (holdEntry e s).ave = s.ave := by unfold holdEntry; dsimp only; split <;> rfl
@[simp] theorem holdEntry_trg (e : LogEntry) (s : State) : (holdEntry e s).trg = s.trg := by unfold holdEntry; dsimp only; split <;> rfl
@[simp] theorem holdEntry_record (e : LogEntry) (s : State) : (holdEntry e s).record = s.record := by unfold holdEntry; dsimp only; split <;> rfl
@[simp] theorem holdEntry_red (e : LogEntry) (s : State) : (holdEntry e s).red = s.red := by unfold holdEntry; dsimp only; split <;> rfl
@[simp] theorem holdEntry_memory (e : LogEntry) (s : State) : (holdEntry e s).memory = s.memory := by unfold holdEntry; dsimp only; split <;> rfl
@[simp] theorem holdEntry_dma (e : LogEntry) (s : State) : (holdEntry e s).dma = s.dma := by unfold holdEntry; dsimp only; split <;> rfl
@[simp] theorem holdEntry_seq (e : LogEntry) (s : State) : (holdEntry e s).seq = s.seq := by unfold holdEntry; dsimp only; split <;> rfl
@[simp] theorem holdEntry_sp (e : LogEntry) (s : State) : (holdEntry e s).sp = s.sp := by unfold holdEntry; dsimp only; split <;> rfl
@[simp] theorem holdEntry_hfr (e : LogEntry) (s : State) : (holdEntry e s).hfr = s.hfr := by unfold holdEntry; dsimp only; split <;> rfl
@[simp] theorem holdEntry_dsp (e : LogEntry) (s : State) : (holdEntry e s).dsp = s.dsp := by unfold holdEntry; dsimp only; split <;> rfl
@[simp] theorem holdEntry_line (e : LogEntry) (s : State) : (holdEntry e s).line = s.line := by unfold holdEntry; dsimp only; split <;> rfl
@[simp] theorem holdEntry_erl (e : LogEntry) (s : State) : (holdEntry e s).erl = s.erl := by unfold holdEntry; dsimp only; split <;> rfl
@[simp] theorem holdEntry_clk (e : LogEntry) (s : State) : (holdEntry e s).clk = s.clk := by unfold holdEntry; dsimp only; split <;> rfl
@[simp] theorem holdEntry_pwr (e : LogEntry) (s : State) : (holdEntry e s).pwr = s.pwr := by unfold holdEntry; dsimp only; split <;> rfl
@[simp] theorem holdEntry_jtag (e : LogEntry) (s : State) : (holdEntry e s).jtag = s.jtag := by unfold holdEntry; dsimp only; split <;> rfl
@[simp] theorem holdEntry_freeCtr (e : LogEntry) (s : State) : (holdEntry e s).freeCtr = s.freeCtr := by unfold holdEntry; dsimp only; split <;> rfl
@[simp] theorem holdEntry_pending (e : LogEntry) (s : State) : (holdEntry e s).pending = s.pending := by unfold holdEntry; dsimp only; split <;> rfl
@[simp] theorem fault_now (code unit d0 d1 : Nat) (s : State) : (fault code unit d0 d1 s).now = s.now := by unfold fault; dsimp only; split <;> simp
@[simp] theorem fault_tickOn (code unit d0 d1 : Nat) (s : State) : (fault code unit d0 d1 s).tickOn = s.tickOn := by unfold fault; dsimp only; split <;> simp
@[simp] theorem fault_tickAdj (code unit d0 d1 : Nat) (s : State) : (fault code unit d0 d1 s).tickAdj = s.tickAdj := by unfold fault; dsimp only; split <;> simp
@[simp] theorem fault_committed (code unit d0 d1 : Nat) (s : State) : (fault code unit d0 d1 s).committed = s.committed := by unfold fault; dsimp only; split <;> simp
@[simp] theorem fault_applied (code unit d0 d1 : Nat) (s : State) : (fault code unit d0 d1 s).applied = s.applied := by unfold fault; dsimp only; split <;> simp
@[simp] theorem fault_mem (code unit d0 d1 : Nat) (s : State) : (fault code unit d0 d1 s).mem = s.mem := by unfold fault; dsimp only; split <;> simp
@[simp] theorem fault_plan (code unit d0 d1 : Nat) (s : State) : (fault code unit d0 d1 s).plan = s.plan := by unfold fault; dsimp only; split <;> simp
@[simp] theorem fault_boot (code unit d0 d1 : Nat) (s : State) : (fault code unit d0 d1 s).boot = s.boot := by unfold fault; dsimp only; split <;> simp
@[simp] theorem fault_evt (code unit d0 d1 : Nat) (s : State) : (fault code unit d0 d1 s).evt = s.evt := by unfold fault; dsimp only; split <;> simp
@[simp] theorem fault_abort (code unit d0 d1 : Nat) (s : State) : (fault code unit d0 d1 s).abort = s.abort := by unfold fault; dsimp only; split <;> simp
@[simp] theorem fault_ave (code unit d0 d1 : Nat) (s : State) : (fault code unit d0 d1 s).ave = s.ave := by unfold fault; dsimp only; split <;> simp
@[simp] theorem fault_trg (code unit d0 d1 : Nat) (s : State) : (fault code unit d0 d1 s).trg = s.trg := by unfold fault; dsimp only; split <;> simp
@[simp] theorem fault_record (code unit d0 d1 : Nat) (s : State) : (fault code unit d0 d1 s).record = s.record := by unfold fault; dsimp only; split <;> simp
@[simp] theorem fault_red (code unit d0 d1 : Nat) (s : State) : (fault code unit d0 d1 s).red = s.red := by unfold fault; dsimp only; split <;> simp
@[simp] theorem fault_memory (code unit d0 d1 : Nat) (s : State) : (fault code unit d0 d1 s).memory = s.memory := by unfold fault; dsimp only; split <;> simp
@[simp] theorem fault_dma (code unit d0 d1 : Nat) (s : State) : (fault code unit d0 d1 s).dma = s.dma := by unfold fault; dsimp only; split <;> simp
@[simp] theorem fault_seq (code unit d0 d1 : Nat) (s : State) : (fault code unit d0 d1 s).seq = s.seq := by unfold fault; dsimp only; split <;> simp
@[simp] theorem fault_sp (code unit d0 d1 : Nat) (s : State) : (fault code unit d0 d1 s).sp = s.sp := by unfold fault; dsimp only; split <;> simp
@[simp] theorem fault_hfr (code unit d0 d1 : Nat) (s : State) : (fault code unit d0 d1 s).hfr = s.hfr := by unfold fault; dsimp only; split <;> simp
@[simp] theorem fault_dsp (code unit d0 d1 : Nat) (s : State) : (fault code unit d0 d1 s).dsp = s.dsp := by unfold fault; dsimp only; split <;> simp
@[simp] theorem fault_line (code unit d0 d1 : Nat) (s : State) : (fault code unit d0 d1 s).line = s.line := by unfold fault; dsimp only; split <;> simp
@[simp] theorem fault_erl (code unit d0 d1 : Nat) (s : State) : (fault code unit d0 d1 s).erl = s.erl := by unfold fault; dsimp only; split <;> simp
@[simp] theorem fault_clk (code unit d0 d1 : Nat) (s : State) : (fault code unit d0 d1 s).clk = s.clk := by unfold fault; dsimp only; split <;> simp
@[simp] theorem fault_pwr (code unit d0 d1 : Nat) (s : State) : (fault code unit d0 d1 s).pwr = s.pwr := by unfold fault; dsimp only; split <;> simp
@[simp] theorem fault_jtag (code unit d0 d1 : Nat) (s : State) : (fault code unit d0 d1 s).jtag = s.jtag := by unfold fault; dsimp only; split <;> simp
@[simp] theorem fault_freeCtr (code unit d0 d1 : Nat) (s : State) : (fault code unit d0 d1 s).freeCtr = s.freeCtr := by unfold fault; dsimp only; split <;> simp
@[simp] theorem fault_pending (code unit d0 d1 : Nat) (s : State) : (fault code unit d0 d1 s).pending = s.pending := by unfold fault; dsimp only; split <;> simp
@[simp] theorem faultAddr_now (code unit addr : Nat) (s : State) : (faultAddr code unit addr s).now = s.now := by simp [faultAddr]
@[simp] theorem faultAddr_tickOn (code unit addr : Nat) (s : State) : (faultAddr code unit addr s).tickOn = s.tickOn := by simp [faultAddr]
@[simp] theorem faultAddr_tickAdj (code unit addr : Nat) (s : State) : (faultAddr code unit addr s).tickAdj = s.tickAdj := by simp [faultAddr]
@[simp] theorem faultAddr_committed (code unit addr : Nat) (s : State) : (faultAddr code unit addr s).committed = s.committed := by simp [faultAddr]
@[simp] theorem faultAddr_applied (code unit addr : Nat) (s : State) : (faultAddr code unit addr s).applied = s.applied := by simp [faultAddr]
@[simp] theorem faultAddr_mem (code unit addr : Nat) (s : State) : (faultAddr code unit addr s).mem = s.mem := by simp [faultAddr]
@[simp] theorem faultAddr_plan (code unit addr : Nat) (s : State) : (faultAddr code unit addr s).plan = s.plan := by simp [faultAddr]
@[simp] theorem faultAddr_boot (code unit addr : Nat) (s : State) : (faultAddr code unit addr s).boot = s.boot := by simp [faultAddr]
@[simp] theorem faultAddr_evt (code unit addr : Nat) (s : State) : (faultAddr code unit addr s).evt = s.evt := by simp [faultAddr]
@[simp] theorem faultAddr_abort (code unit addr : Nat) (s : State) : (faultAddr code unit addr s).abort = s.abort := by simp [faultAddr]
@[simp] theorem faultAddr_ave (code unit addr : Nat) (s : State) : (faultAddr code unit addr s).ave = s.ave := by simp [faultAddr]
@[simp] theorem faultAddr_trg (code unit addr : Nat) (s : State) : (faultAddr code unit addr s).trg = s.trg := by simp [faultAddr]
@[simp] theorem faultAddr_record (code unit addr : Nat) (s : State) : (faultAddr code unit addr s).record = s.record := by simp [faultAddr]
@[simp] theorem faultAddr_red (code unit addr : Nat) (s : State) : (faultAddr code unit addr s).red = s.red := by simp [faultAddr]
@[simp] theorem faultAddr_memory (code unit addr : Nat) (s : State) : (faultAddr code unit addr s).memory = s.memory := by simp [faultAddr]
@[simp] theorem faultAddr_dma (code unit addr : Nat) (s : State) : (faultAddr code unit addr s).dma = s.dma := by simp [faultAddr]
@[simp] theorem faultAddr_seq (code unit addr : Nat) (s : State) : (faultAddr code unit addr s).seq = s.seq := by simp [faultAddr]
@[simp] theorem faultAddr_sp (code unit addr : Nat) (s : State) : (faultAddr code unit addr s).sp = s.sp := by simp [faultAddr]
@[simp] theorem faultAddr_hfr (code unit addr : Nat) (s : State) : (faultAddr code unit addr s).hfr = s.hfr := by simp [faultAddr]
@[simp] theorem faultAddr_dsp (code unit addr : Nat) (s : State) : (faultAddr code unit addr s).dsp = s.dsp := by simp [faultAddr]
@[simp] theorem faultAddr_line (code unit addr : Nat) (s : State) : (faultAddr code unit addr s).line = s.line := by simp [faultAddr]
@[simp] theorem faultAddr_erl (code unit addr : Nat) (s : State) : (faultAddr code unit addr s).erl = s.erl := by simp [faultAddr]
@[simp] theorem faultAddr_clk (code unit addr : Nat) (s : State) : (faultAddr code unit addr s).clk = s.clk := by simp [faultAddr]
@[simp] theorem faultAddr_pwr (code unit addr : Nat) (s : State) : (faultAddr code unit addr s).pwr = s.pwr := by simp [faultAddr]
@[simp] theorem faultAddr_jtag (code unit addr : Nat) (s : State) : (faultAddr code unit addr s).jtag = s.jtag := by simp [faultAddr]
@[simp] theorem faultAddr_freeCtr (code unit addr : Nat) (s : State) : (faultAddr code unit addr s).freeCtr = s.freeCtr := by simp [faultAddr]
@[simp] theorem faultAddr_pending (code unit addr : Nat) (s : State) : (faultAddr code unit addr s).pending = s.pending := by simp [faultAddr]
@[simp] theorem raise_now (src : Nat) (s : State) : (raise src s).now = s.now := by unfold raise; (repeat' split) <;> rfl
@[simp] theorem raise_tickOn (src : Nat) (s : State) : (raise src s).tickOn = s.tickOn := by unfold raise; (repeat' split) <;> rfl
@[simp] theorem raise_tickAdj (src : Nat) (s : State) : (raise src s).tickAdj = s.tickAdj := by unfold raise; (repeat' split) <;> rfl
@[simp] theorem raise_regs (src : Nat) (s : State) : (raise src s).regs = s.regs := by unfold raise; (repeat' split) <;> rfl
@[simp] theorem raise_committed (src : Nat) (s : State) : (raise src s).committed = s.committed := by unfold raise; (repeat' split) <;> rfl
@[simp] theorem raise_applied (src : Nat) (s : State) : (raise src s).applied = s.applied := by unfold raise; (repeat' split) <;> rfl
@[simp] theorem raise_mem (src : Nat) (s : State) : (raise src s).mem = s.mem := by unfold raise; (repeat' split) <;> rfl
@[simp] theorem raise_plan (src : Nat) (s : State) : (raise src s).plan = s.plan := by unfold raise; (repeat' split) <;> rfl
@[simp] theorem raise_boot (src : Nat) (s : State) : (raise src s).boot = s.boot := by unfold raise; (repeat' split) <;> rfl
@[simp] theorem raise_log (src : Nat) (s : State) : (raise src s).log = s.log := by unfold raise; (repeat' split) <;> rfl
@[simp] theorem raise_abort (src : Nat) (s : State) : (raise src s).abort = s.abort := by unfold raise; (repeat' split) <;> rfl
@[simp] theorem raise_ave (src : Nat) (s : State) : (raise src s).ave = s.ave := by unfold raise; (repeat' split) <;> rfl
@[simp] theorem raise_trg (src : Nat) (s : State) : (raise src s).trg = s.trg := by unfold raise; (repeat' split) <;> rfl
@[simp] theorem raise_record (src : Nat) (s : State) : (raise src s).record = s.record := by unfold raise; (repeat' split) <;> rfl
@[simp] theorem raise_red (src : Nat) (s : State) : (raise src s).red = s.red := by unfold raise; (repeat' split) <;> rfl
@[simp] theorem raise_memory (src : Nat) (s : State) : (raise src s).memory = s.memory := by unfold raise; (repeat' split) <;> rfl
@[simp] theorem raise_dma (src : Nat) (s : State) : (raise src s).dma = s.dma := by unfold raise; (repeat' split) <;> rfl
@[simp] theorem raise_seq (src : Nat) (s : State) : (raise src s).seq = s.seq := by unfold raise; (repeat' split) <;> rfl
@[simp] theorem raise_sp (src : Nat) (s : State) : (raise src s).sp = s.sp := by unfold raise; (repeat' split) <;> rfl
@[simp] theorem raise_hfr (src : Nat) (s : State) : (raise src s).hfr = s.hfr := by unfold raise; (repeat' split) <;> rfl
@[simp] theorem raise_dsp (src : Nat) (s : State) : (raise src s).dsp = s.dsp := by unfold raise; (repeat' split) <;> rfl
@[simp] theorem raise_line (src : Nat) (s : State) : (raise src s).line = s.line := by unfold raise; (repeat' split) <;> rfl
@[simp] theorem raise_erl (src : Nat) (s : State) : (raise src s).erl = s.erl := by unfold raise; (repeat' split) <;> rfl
@[simp] theorem raise_clk (src : Nat) (s : State) : (raise src s).clk = s.clk := by unfold raise; (repeat' split) <;> rfl
@[simp] theorem raise_pwr (src : Nat) (s : State) : (raise src s).pwr = s.pwr := by unfold raise; (repeat' split) <;> rfl
@[simp] theorem raise_jtag (src : Nat) (s : State) : (raise src s).jtag = s.jtag := by unfold raise; (repeat' split) <;> rfl
@[simp] theorem raise_freeCtr (src : Nat) (s : State) : (raise src s).freeCtr = s.freeCtr := by unfold raise; (repeat' split) <;> rfl
@[simp] theorem raise_pending (src : Nat) (s : State) : (raise src s).pending = s.pending := by unfold raise; (repeat' split) <;> rfl
@[simp] theorem consume_now (stop : Nat) (s : State) : (consume stop s).now = s.now := rfl
@[simp] theorem consume_tickOn (stop : Nat) (s : State) : (consume stop s).tickOn = s.tickOn := rfl
@[simp] theorem consume_tickAdj (stop : Nat) (s : State) : (consume stop s).tickAdj = s.tickAdj := rfl
@[simp] theorem consume_regs (stop : Nat) (s : State) : (consume stop s).regs = s.regs := rfl
@[simp] theorem consume_committed (stop : Nat) (s : State) : (consume stop s).committed = s.committed := rfl
@[simp] theorem consume_applied (stop : Nat) (s : State) : (consume stop s).applied = s.applied := rfl
@[simp] theorem consume_mem (stop : Nat) (s : State) : (consume stop s).mem = s.mem := rfl
@[simp] theorem consume_plan (stop : Nat) (s : State) : (consume stop s).plan = s.plan := rfl
@[simp] theorem consume_boot (stop : Nat) (s : State) : (consume stop s).boot = s.boot := rfl
@[simp] theorem consume_log (stop : Nat) (s : State) : (consume stop s).log = s.log := rfl
@[simp] theorem consume_abort (stop : Nat) (s : State) : (consume stop s).abort = s.abort := rfl
@[simp] theorem consume_ave (stop : Nat) (s : State) : (consume stop s).ave = s.ave := rfl
@[simp] theorem consume_trg (stop : Nat) (s : State) : (consume stop s).trg = s.trg := rfl
@[simp] theorem consume_record (stop : Nat) (s : State) : (consume stop s).record = s.record := rfl
@[simp] theorem consume_red (stop : Nat) (s : State) : (consume stop s).red = s.red := rfl
@[simp] theorem consume_memory (stop : Nat) (s : State) : (consume stop s).memory = s.memory := rfl
@[simp] theorem consume_dma (stop : Nat) (s : State) : (consume stop s).dma = s.dma := rfl
@[simp] theorem consume_seq (stop : Nat) (s : State) : (consume stop s).seq = s.seq := rfl
@[simp] theorem consume_sp (stop : Nat) (s : State) : (consume stop s).sp = s.sp := rfl
@[simp] theorem consume_hfr (stop : Nat) (s : State) : (consume stop s).hfr = s.hfr := rfl
@[simp] theorem consume_dsp (stop : Nat) (s : State) : (consume stop s).dsp = s.dsp := rfl
@[simp] theorem consume_line (stop : Nat) (s : State) : (consume stop s).line = s.line := rfl
@[simp] theorem consume_erl (stop : Nat) (s : State) : (consume stop s).erl = s.erl := rfl
@[simp] theorem consume_clk (stop : Nat) (s : State) : (consume stop s).clk = s.clk := rfl
@[simp] theorem consume_pwr (stop : Nat) (s : State) : (consume stop s).pwr = s.pwr := rfl
@[simp] theorem consume_jtag (stop : Nat) (s : State) : (consume stop s).jtag = s.jtag := rfl
@[simp] theorem consume_freeCtr (stop : Nat) (s : State) : (consume stop s).freeCtr = s.freeCtr := rfl
@[simp] theorem consume_pending (stop : Nat) (s : State) : (consume stop s).pending = s.pending := rfl
@[simp] theorem consume_ran (stop : Nat) (s : State) : hasRun stop (consume stop s) = true := by simp [hasRun, consume]
@[simp] theorem arrive_now (stop n : Nat) (s : State) : (arrive stop n s).now = s.now := rfl
@[simp] theorem arrive_tickOn (stop n : Nat) (s : State) : (arrive stop n s).tickOn = s.tickOn := rfl
@[simp] theorem arrive_tickAdj (stop n : Nat) (s : State) : (arrive stop n s).tickAdj = s.tickAdj := rfl
@[simp] theorem arrive_regs (stop n : Nat) (s : State) : (arrive stop n s).regs = s.regs := rfl
@[simp] theorem arrive_committed (stop n : Nat) (s : State) : (arrive stop n s).committed = s.committed := rfl
@[simp] theorem arrive_applied (stop n : Nat) (s : State) : (arrive stop n s).applied = s.applied := rfl
@[simp] theorem arrive_mem (stop n : Nat) (s : State) : (arrive stop n s).mem = s.mem := rfl
@[simp] theorem arrive_plan (stop n : Nat) (s : State) : (arrive stop n s).plan = s.plan := rfl
@[simp] theorem arrive_boot (stop n : Nat) (s : State) : (arrive stop n s).boot = s.boot := rfl
@[simp] theorem arrive_log (stop n : Nat) (s : State) : (arrive stop n s).log = s.log := rfl
@[simp] theorem arrive_abort (stop n : Nat) (s : State) : (arrive stop n s).abort = s.abort := rfl
@[simp] theorem arrive_ave (stop n : Nat) (s : State) : (arrive stop n s).ave = s.ave := rfl
@[simp] theorem arrive_trg (stop n : Nat) (s : State) : (arrive stop n s).trg = s.trg := rfl
@[simp] theorem arrive_record (stop n : Nat) (s : State) : (arrive stop n s).record = s.record := rfl
@[simp] theorem arrive_red (stop n : Nat) (s : State) : (arrive stop n s).red = s.red := rfl
@[simp] theorem arrive_memory (stop n : Nat) (s : State) : (arrive stop n s).memory = s.memory := rfl
@[simp] theorem arrive_dma (stop n : Nat) (s : State) : (arrive stop n s).dma = s.dma := rfl
@[simp] theorem arrive_seq (stop n : Nat) (s : State) : (arrive stop n s).seq = s.seq := rfl
@[simp] theorem arrive_sp (stop n : Nat) (s : State) : (arrive stop n s).sp = s.sp := rfl
@[simp] theorem arrive_hfr (stop n : Nat) (s : State) : (arrive stop n s).hfr = s.hfr := rfl
@[simp] theorem arrive_dsp (stop n : Nat) (s : State) : (arrive stop n s).dsp = s.dsp := rfl
@[simp] theorem arrive_line (stop n : Nat) (s : State) : (arrive stop n s).line = s.line := rfl
@[simp] theorem arrive_erl (stop n : Nat) (s : State) : (arrive stop n s).erl = s.erl := rfl
@[simp] theorem arrive_clk (stop n : Nat) (s : State) : (arrive stop n s).clk = s.clk := rfl
@[simp] theorem arrive_pwr (stop n : Nat) (s : State) : (arrive stop n s).pwr = s.pwr := rfl
@[simp] theorem arrive_jtag (stop n : Nat) (s : State) : (arrive stop n s).jtag = s.jtag := rfl
@[simp] theorem arrive_freeCtr (stop n : Nat) (s : State) : (arrive stop n s).freeCtr = s.freeCtr := rfl
@[simp] theorem arrive_pending (stop n : Nat) (s : State) : (arrive stop n s).pending = s.pending := rfl
@[simp] theorem evalStop_now (stop : Nat) (s : State) : (evalStop stop s).now = s.now := by unfold evalStop; dsimp only; (repeat' split) <;> simp
@[simp] theorem evalStop_tickOn (stop : Nat) (s : State) : (evalStop stop s).tickOn = s.tickOn := by unfold evalStop; dsimp only; (repeat' split) <;> simp
@[simp] theorem evalStop_tickAdj (stop : Nat) (s : State) : (evalStop stop s).tickAdj = s.tickAdj := by unfold evalStop; dsimp only; (repeat' split) <;> simp
@[simp] theorem evalStop_committed (stop : Nat) (s : State) : (evalStop stop s).committed = s.committed := by unfold evalStop; dsimp only; (repeat' split) <;> simp
@[simp] theorem evalStop_applied (stop : Nat) (s : State) : (evalStop stop s).applied = s.applied := by unfold evalStop; dsimp only; (repeat' split) <;> simp
@[simp] theorem evalStop_mem (stop : Nat) (s : State) : (evalStop stop s).mem = s.mem := by unfold evalStop; dsimp only; (repeat' split) <;> simp
@[simp] theorem evalStop_plan (stop : Nat) (s : State) : (evalStop stop s).plan = s.plan := by unfold evalStop; dsimp only; (repeat' split) <;> simp
@[simp] theorem evalStop_boot (stop : Nat) (s : State) : (evalStop stop s).boot = s.boot := by unfold evalStop; dsimp only; (repeat' split) <;> simp
@[simp] theorem evalStop_evt (stop : Nat) (s : State) : (evalStop stop s).evt = s.evt := by unfold evalStop; dsimp only; (repeat' split) <;> simp
@[simp] theorem evalStop_abort (stop : Nat) (s : State) : (evalStop stop s).abort = s.abort := by unfold evalStop; dsimp only; (repeat' split) <;> simp
@[simp] theorem evalStop_ave (stop : Nat) (s : State) : (evalStop stop s).ave = s.ave := by unfold evalStop; dsimp only; (repeat' split) <;> simp
@[simp] theorem evalStop_trg (stop : Nat) (s : State) : (evalStop stop s).trg = s.trg := by unfold evalStop; dsimp only; (repeat' split) <;> simp
@[simp] theorem evalStop_record (stop : Nat) (s : State) : (evalStop stop s).record = s.record := by unfold evalStop; dsimp only; (repeat' split) <;> simp
@[simp] theorem evalStop_red (stop : Nat) (s : State) : (evalStop stop s).red = s.red := by unfold evalStop; dsimp only; (repeat' split) <;> simp
@[simp] theorem evalStop_memory (stop : Nat) (s : State) : (evalStop stop s).memory = s.memory := by unfold evalStop; dsimp only; (repeat' split) <;> simp
@[simp] theorem evalStop_dma (stop : Nat) (s : State) : (evalStop stop s).dma = s.dma := by unfold evalStop; dsimp only; (repeat' split) <;> simp
@[simp] theorem evalStop_seq (stop : Nat) (s : State) : (evalStop stop s).seq = s.seq := by unfold evalStop; dsimp only; (repeat' split) <;> simp
@[simp] theorem evalStop_sp (stop : Nat) (s : State) : (evalStop stop s).sp = s.sp := by unfold evalStop; dsimp only; (repeat' split) <;> simp
@[simp] theorem evalStop_hfr (stop : Nat) (s : State) : (evalStop stop s).hfr = s.hfr := by unfold evalStop; dsimp only; (repeat' split) <;> simp
@[simp] theorem evalStop_dsp (stop : Nat) (s : State) : (evalStop stop s).dsp = s.dsp := by unfold evalStop; dsimp only; (repeat' split) <;> simp
@[simp] theorem evalStop_line (stop : Nat) (s : State) : (evalStop stop s).line = s.line := by unfold evalStop; dsimp only; (repeat' split) <;> simp
@[simp] theorem evalStop_erl (stop : Nat) (s : State) : (evalStop stop s).erl = s.erl := by unfold evalStop; dsimp only; (repeat' split) <;> simp
@[simp] theorem evalStop_clk (stop : Nat) (s : State) : (evalStop stop s).clk = s.clk := by unfold evalStop; dsimp only; (repeat' split) <;> simp
@[simp] theorem evalStop_pwr (stop : Nat) (s : State) : (evalStop stop s).pwr = s.pwr := by unfold evalStop; dsimp only; (repeat' split) <;> simp
@[simp] theorem evalStop_jtag (stop : Nat) (s : State) : (evalStop stop s).jtag = s.jtag := by unfold evalStop; dsimp only; (repeat' split) <;> simp
@[simp] theorem evalStop_freeCtr (stop : Nat) (s : State) : (evalStop stop s).freeCtr = s.freeCtr := by unfold evalStop; dsimp only; (repeat' split) <;> simp
@[simp] theorem evalStop_pending (stop : Nat) (s : State) : (evalStop stop s).pending = s.pending := by unfold evalStop; dsimp only; (repeat' split) <;> simp

/-! ## Memory -/

@[simp] theorem writeByte_now (a : Addr) (v : Byte) (s : State) : (writeByte a v s).now = s.now := rfl
@[simp] theorem writeByte_tickOn (a : Addr) (v : Byte) (s : State) : (writeByte a v s).tickOn = s.tickOn := rfl
@[simp] theorem writeByte_tickAdj (a : Addr) (v : Byte) (s : State) : (writeByte a v s).tickAdj = s.tickAdj := rfl
@[simp] theorem writeByte_regs (a : Addr) (v : Byte) (s : State) : (writeByte a v s).regs = s.regs := rfl
@[simp] theorem writeByte_committed (a : Addr) (v : Byte) (s : State) : (writeByte a v s).committed = s.committed := rfl
@[simp] theorem writeByte_applied (a : Addr) (v : Byte) (s : State) : (writeByte a v s).applied = s.applied := rfl
@[simp] theorem writeByte_plan (a : Addr) (v : Byte) (s : State) : (writeByte a v s).plan = s.plan := rfl
@[simp] theorem writeByte_boot (a : Addr) (v : Byte) (s : State) : (writeByte a v s).boot = s.boot := rfl
@[simp] theorem writeByte_log (a : Addr) (v : Byte) (s : State) : (writeByte a v s).log = s.log := rfl
@[simp] theorem writeByte_evt (a : Addr) (v : Byte) (s : State) : (writeByte a v s).evt = s.evt := rfl
@[simp] theorem writeByte_abort (a : Addr) (v : Byte) (s : State) : (writeByte a v s).abort = s.abort := rfl
@[simp] theorem writeByte_ave (a : Addr) (v : Byte) (s : State) : (writeByte a v s).ave = s.ave := rfl
@[simp] theorem writeByte_trg (a : Addr) (v : Byte) (s : State) : (writeByte a v s).trg = s.trg := rfl
@[simp] theorem writeByte_record (a : Addr) (v : Byte) (s : State) : (writeByte a v s).record = s.record := rfl
@[simp] theorem writeByte_red (a : Addr) (v : Byte) (s : State) : (writeByte a v s).red = s.red := rfl
@[simp] theorem writeByte_memory (a : Addr) (v : Byte) (s : State) : (writeByte a v s).memory = s.memory := rfl
@[simp] theorem writeByte_dma (a : Addr) (v : Byte) (s : State) : (writeByte a v s).dma = s.dma := rfl
@[simp] theorem writeByte_seq (a : Addr) (v : Byte) (s : State) : (writeByte a v s).seq = s.seq := rfl
@[simp] theorem writeByte_sp (a : Addr) (v : Byte) (s : State) : (writeByte a v s).sp = s.sp := rfl
@[simp] theorem writeByte_hfr (a : Addr) (v : Byte) (s : State) : (writeByte a v s).hfr = s.hfr := rfl
@[simp] theorem writeByte_dsp (a : Addr) (v : Byte) (s : State) : (writeByte a v s).dsp = s.dsp := rfl
@[simp] theorem writeByte_line (a : Addr) (v : Byte) (s : State) : (writeByte a v s).line = s.line := rfl
@[simp] theorem writeByte_erl (a : Addr) (v : Byte) (s : State) : (writeByte a v s).erl = s.erl := rfl
@[simp] theorem writeByte_clk (a : Addr) (v : Byte) (s : State) : (writeByte a v s).clk = s.clk := rfl
@[simp] theorem writeByte_pwr (a : Addr) (v : Byte) (s : State) : (writeByte a v s).pwr = s.pwr := rfl
@[simp] theorem writeByte_jtag (a : Addr) (v : Byte) (s : State) : (writeByte a v s).jtag = s.jtag := rfl
@[simp] theorem writeByte_freeCtr (a : Addr) (v : Byte) (s : State) : (writeByte a v s).freeCtr = s.freeCtr := rfl
@[simp] theorem writeByte_pending (a : Addr) (v : Byte) (s : State) : (writeByte a v s).pending = s.pending := rfl
@[simp] theorem writeBytes_now (a : Addr) (l : List Nat) (s : State) : (writeBytes a l s).now = s.now := by
  induction l generalizing a s with
  | nil => rfl
  | cons b l ih => simp [writeBytes, ih]
@[simp] theorem writeBytes_tickOn (a : Addr) (l : List Nat) (s : State) : (writeBytes a l s).tickOn = s.tickOn := by
  induction l generalizing a s with
  | nil => rfl
  | cons b l ih => simp [writeBytes, ih]
@[simp] theorem writeBytes_tickAdj (a : Addr) (l : List Nat) (s : State) : (writeBytes a l s).tickAdj = s.tickAdj := by
  induction l generalizing a s with
  | nil => rfl
  | cons b l ih => simp [writeBytes, ih]
@[simp] theorem writeBytes_regs (a : Addr) (l : List Nat) (s : State) : (writeBytes a l s).regs = s.regs := by
  induction l generalizing a s with
  | nil => rfl
  | cons b l ih => simp [writeBytes, ih]
@[simp] theorem writeBytes_committed (a : Addr) (l : List Nat) (s : State) : (writeBytes a l s).committed = s.committed := by
  induction l generalizing a s with
  | nil => rfl
  | cons b l ih => simp [writeBytes, ih]
@[simp] theorem writeBytes_applied (a : Addr) (l : List Nat) (s : State) : (writeBytes a l s).applied = s.applied := by
  induction l generalizing a s with
  | nil => rfl
  | cons b l ih => simp [writeBytes, ih]
@[simp] theorem writeBytes_plan (a : Addr) (l : List Nat) (s : State) : (writeBytes a l s).plan = s.plan := by
  induction l generalizing a s with
  | nil => rfl
  | cons b l ih => simp [writeBytes, ih]
@[simp] theorem writeBytes_boot (a : Addr) (l : List Nat) (s : State) : (writeBytes a l s).boot = s.boot := by
  induction l generalizing a s with
  | nil => rfl
  | cons b l ih => simp [writeBytes, ih]
@[simp] theorem writeBytes_log (a : Addr) (l : List Nat) (s : State) : (writeBytes a l s).log = s.log := by
  induction l generalizing a s with
  | nil => rfl
  | cons b l ih => simp [writeBytes, ih]
@[simp] theorem writeBytes_evt (a : Addr) (l : List Nat) (s : State) : (writeBytes a l s).evt = s.evt := by
  induction l generalizing a s with
  | nil => rfl
  | cons b l ih => simp [writeBytes, ih]
@[simp] theorem writeBytes_abort (a : Addr) (l : List Nat) (s : State) : (writeBytes a l s).abort = s.abort := by
  induction l generalizing a s with
  | nil => rfl
  | cons b l ih => simp [writeBytes, ih]
@[simp] theorem writeBytes_ave (a : Addr) (l : List Nat) (s : State) : (writeBytes a l s).ave = s.ave := by
  induction l generalizing a s with
  | nil => rfl
  | cons b l ih => simp [writeBytes, ih]
@[simp] theorem writeBytes_trg (a : Addr) (l : List Nat) (s : State) : (writeBytes a l s).trg = s.trg := by
  induction l generalizing a s with
  | nil => rfl
  | cons b l ih => simp [writeBytes, ih]
@[simp] theorem writeBytes_record (a : Addr) (l : List Nat) (s : State) : (writeBytes a l s).record = s.record := by
  induction l generalizing a s with
  | nil => rfl
  | cons b l ih => simp [writeBytes, ih]
@[simp] theorem writeBytes_red (a : Addr) (l : List Nat) (s : State) : (writeBytes a l s).red = s.red := by
  induction l generalizing a s with
  | nil => rfl
  | cons b l ih => simp [writeBytes, ih]
@[simp] theorem writeBytes_memory (a : Addr) (l : List Nat) (s : State) : (writeBytes a l s).memory = s.memory := by
  induction l generalizing a s with
  | nil => rfl
  | cons b l ih => simp [writeBytes, ih]
@[simp] theorem writeBytes_dma (a : Addr) (l : List Nat) (s : State) : (writeBytes a l s).dma = s.dma := by
  induction l generalizing a s with
  | nil => rfl
  | cons b l ih => simp [writeBytes, ih]
@[simp] theorem writeBytes_seq (a : Addr) (l : List Nat) (s : State) : (writeBytes a l s).seq = s.seq := by
  induction l generalizing a s with
  | nil => rfl
  | cons b l ih => simp [writeBytes, ih]
@[simp] theorem writeBytes_sp (a : Addr) (l : List Nat) (s : State) : (writeBytes a l s).sp = s.sp := by
  induction l generalizing a s with
  | nil => rfl
  | cons b l ih => simp [writeBytes, ih]
@[simp] theorem writeBytes_hfr (a : Addr) (l : List Nat) (s : State) : (writeBytes a l s).hfr = s.hfr := by
  induction l generalizing a s with
  | nil => rfl
  | cons b l ih => simp [writeBytes, ih]
@[simp] theorem writeBytes_dsp (a : Addr) (l : List Nat) (s : State) : (writeBytes a l s).dsp = s.dsp := by
  induction l generalizing a s with
  | nil => rfl
  | cons b l ih => simp [writeBytes, ih]
@[simp] theorem writeBytes_line (a : Addr) (l : List Nat) (s : State) : (writeBytes a l s).line = s.line := by
  induction l generalizing a s with
  | nil => rfl
  | cons b l ih => simp [writeBytes, ih]
@[simp] theorem writeBytes_erl (a : Addr) (l : List Nat) (s : State) : (writeBytes a l s).erl = s.erl := by
  induction l generalizing a s with
  | nil => rfl
  | cons b l ih => simp [writeBytes, ih]
@[simp] theorem writeBytes_clk (a : Addr) (l : List Nat) (s : State) : (writeBytes a l s).clk = s.clk := by
  induction l generalizing a s with
  | nil => rfl
  | cons b l ih => simp [writeBytes, ih]
@[simp] theorem writeBytes_pwr (a : Addr) (l : List Nat) (s : State) : (writeBytes a l s).pwr = s.pwr := by
  induction l generalizing a s with
  | nil => rfl
  | cons b l ih => simp [writeBytes, ih]
@[simp] theorem writeBytes_jtag (a : Addr) (l : List Nat) (s : State) : (writeBytes a l s).jtag = s.jtag := by
  induction l generalizing a s with
  | nil => rfl
  | cons b l ih => simp [writeBytes, ih]
@[simp] theorem writeBytes_freeCtr (a : Addr) (l : List Nat) (s : State) : (writeBytes a l s).freeCtr = s.freeCtr := by
  induction l generalizing a s with
  | nil => rfl
  | cons b l ih => simp [writeBytes, ih]
@[simp] theorem writeBytes_pending (a : Addr) (l : List Nat) (s : State) : (writeBytes a l s).pending = s.pending := by
  induction l generalizing a s with
  | nil => rfl
  | cons b l ih => simp [writeBytes, ih]
@[simp] theorem writeMasked_now (a : Addr) (l : List Nat) (es : List Bool) (s : State) : (writeMasked a l es s).now = s.now := by
  induction l generalizing a es s with
  | nil => cases es <;> rfl
  | cons b l ih => cases es with
    | nil => rfl
    | cons e es => cases e <;> simp [writeMasked, ih]
@[simp] theorem writeMasked_tickOn (a : Addr) (l : List Nat) (es : List Bool) (s : State) : (writeMasked a l es s).tickOn = s.tickOn := by
  induction l generalizing a es s with
  | nil => cases es <;> rfl
  | cons b l ih => cases es with
    | nil => rfl
    | cons e es => cases e <;> simp [writeMasked, ih]
@[simp] theorem writeMasked_tickAdj (a : Addr) (l : List Nat) (es : List Bool) (s : State) : (writeMasked a l es s).tickAdj = s.tickAdj := by
  induction l generalizing a es s with
  | nil => cases es <;> rfl
  | cons b l ih => cases es with
    | nil => rfl
    | cons e es => cases e <;> simp [writeMasked, ih]
@[simp] theorem writeMasked_regs (a : Addr) (l : List Nat) (es : List Bool) (s : State) : (writeMasked a l es s).regs = s.regs := by
  induction l generalizing a es s with
  | nil => cases es <;> rfl
  | cons b l ih => cases es with
    | nil => rfl
    | cons e es => cases e <;> simp [writeMasked, ih]
@[simp] theorem writeMasked_committed (a : Addr) (l : List Nat) (es : List Bool) (s : State) : (writeMasked a l es s).committed = s.committed := by
  induction l generalizing a es s with
  | nil => cases es <;> rfl
  | cons b l ih => cases es with
    | nil => rfl
    | cons e es => cases e <;> simp [writeMasked, ih]
@[simp] theorem writeMasked_applied (a : Addr) (l : List Nat) (es : List Bool) (s : State) : (writeMasked a l es s).applied = s.applied := by
  induction l generalizing a es s with
  | nil => cases es <;> rfl
  | cons b l ih => cases es with
    | nil => rfl
    | cons e es => cases e <;> simp [writeMasked, ih]
@[simp] theorem writeMasked_plan (a : Addr) (l : List Nat) (es : List Bool) (s : State) : (writeMasked a l es s).plan = s.plan := by
  induction l generalizing a es s with
  | nil => cases es <;> rfl
  | cons b l ih => cases es with
    | nil => rfl
    | cons e es => cases e <;> simp [writeMasked, ih]
@[simp] theorem writeMasked_boot (a : Addr) (l : List Nat) (es : List Bool) (s : State) : (writeMasked a l es s).boot = s.boot := by
  induction l generalizing a es s with
  | nil => cases es <;> rfl
  | cons b l ih => cases es with
    | nil => rfl
    | cons e es => cases e <;> simp [writeMasked, ih]
@[simp] theorem writeMasked_log (a : Addr) (l : List Nat) (es : List Bool) (s : State) : (writeMasked a l es s).log = s.log := by
  induction l generalizing a es s with
  | nil => cases es <;> rfl
  | cons b l ih => cases es with
    | nil => rfl
    | cons e es => cases e <;> simp [writeMasked, ih]
@[simp] theorem writeMasked_evt (a : Addr) (l : List Nat) (es : List Bool) (s : State) : (writeMasked a l es s).evt = s.evt := by
  induction l generalizing a es s with
  | nil => cases es <;> rfl
  | cons b l ih => cases es with
    | nil => rfl
    | cons e es => cases e <;> simp [writeMasked, ih]
@[simp] theorem writeMasked_abort (a : Addr) (l : List Nat) (es : List Bool) (s : State) : (writeMasked a l es s).abort = s.abort := by
  induction l generalizing a es s with
  | nil => cases es <;> rfl
  | cons b l ih => cases es with
    | nil => rfl
    | cons e es => cases e <;> simp [writeMasked, ih]
@[simp] theorem writeMasked_ave (a : Addr) (l : List Nat) (es : List Bool) (s : State) : (writeMasked a l es s).ave = s.ave := by
  induction l generalizing a es s with
  | nil => cases es <;> rfl
  | cons b l ih => cases es with
    | nil => rfl
    | cons e es => cases e <;> simp [writeMasked, ih]
@[simp] theorem writeMasked_trg (a : Addr) (l : List Nat) (es : List Bool) (s : State) : (writeMasked a l es s).trg = s.trg := by
  induction l generalizing a es s with
  | nil => cases es <;> rfl
  | cons b l ih => cases es with
    | nil => rfl
    | cons e es => cases e <;> simp [writeMasked, ih]
@[simp] theorem writeMasked_record (a : Addr) (l : List Nat) (es : List Bool) (s : State) : (writeMasked a l es s).record = s.record := by
  induction l generalizing a es s with
  | nil => cases es <;> rfl
  | cons b l ih => cases es with
    | nil => rfl
    | cons e es => cases e <;> simp [writeMasked, ih]
@[simp] theorem writeMasked_red (a : Addr) (l : List Nat) (es : List Bool) (s : State) : (writeMasked a l es s).red = s.red := by
  induction l generalizing a es s with
  | nil => cases es <;> rfl
  | cons b l ih => cases es with
    | nil => rfl
    | cons e es => cases e <;> simp [writeMasked, ih]
@[simp] theorem writeMasked_memory (a : Addr) (l : List Nat) (es : List Bool) (s : State) : (writeMasked a l es s).memory = s.memory := by
  induction l generalizing a es s with
  | nil => cases es <;> rfl
  | cons b l ih => cases es with
    | nil => rfl
    | cons e es => cases e <;> simp [writeMasked, ih]
@[simp] theorem writeMasked_dma (a : Addr) (l : List Nat) (es : List Bool) (s : State) : (writeMasked a l es s).dma = s.dma := by
  induction l generalizing a es s with
  | nil => cases es <;> rfl
  | cons b l ih => cases es with
    | nil => rfl
    | cons e es => cases e <;> simp [writeMasked, ih]
@[simp] theorem writeMasked_seq (a : Addr) (l : List Nat) (es : List Bool) (s : State) : (writeMasked a l es s).seq = s.seq := by
  induction l generalizing a es s with
  | nil => cases es <;> rfl
  | cons b l ih => cases es with
    | nil => rfl
    | cons e es => cases e <;> simp [writeMasked, ih]
@[simp] theorem writeMasked_sp (a : Addr) (l : List Nat) (es : List Bool) (s : State) : (writeMasked a l es s).sp = s.sp := by
  induction l generalizing a es s with
  | nil => cases es <;> rfl
  | cons b l ih => cases es with
    | nil => rfl
    | cons e es => cases e <;> simp [writeMasked, ih]
@[simp] theorem writeMasked_hfr (a : Addr) (l : List Nat) (es : List Bool) (s : State) : (writeMasked a l es s).hfr = s.hfr := by
  induction l generalizing a es s with
  | nil => cases es <;> rfl
  | cons b l ih => cases es with
    | nil => rfl
    | cons e es => cases e <;> simp [writeMasked, ih]
@[simp] theorem writeMasked_dsp (a : Addr) (l : List Nat) (es : List Bool) (s : State) : (writeMasked a l es s).dsp = s.dsp := by
  induction l generalizing a es s with
  | nil => cases es <;> rfl
  | cons b l ih => cases es with
    | nil => rfl
    | cons e es => cases e <;> simp [writeMasked, ih]
@[simp] theorem writeMasked_line (a : Addr) (l : List Nat) (es : List Bool) (s : State) : (writeMasked a l es s).line = s.line := by
  induction l generalizing a es s with
  | nil => cases es <;> rfl
  | cons b l ih => cases es with
    | nil => rfl
    | cons e es => cases e <;> simp [writeMasked, ih]
@[simp] theorem writeMasked_erl (a : Addr) (l : List Nat) (es : List Bool) (s : State) : (writeMasked a l es s).erl = s.erl := by
  induction l generalizing a es s with
  | nil => cases es <;> rfl
  | cons b l ih => cases es with
    | nil => rfl
    | cons e es => cases e <;> simp [writeMasked, ih]
@[simp] theorem writeMasked_clk (a : Addr) (l : List Nat) (es : List Bool) (s : State) : (writeMasked a l es s).clk = s.clk := by
  induction l generalizing a es s with
  | nil => cases es <;> rfl
  | cons b l ih => cases es with
    | nil => rfl
    | cons e es => cases e <;> simp [writeMasked, ih]
@[simp] theorem writeMasked_pwr (a : Addr) (l : List Nat) (es : List Bool) (s : State) : (writeMasked a l es s).pwr = s.pwr := by
  induction l generalizing a es s with
  | nil => cases es <;> rfl
  | cons b l ih => cases es with
    | nil => rfl
    | cons e es => cases e <;> simp [writeMasked, ih]
@[simp] theorem writeMasked_jtag (a : Addr) (l : List Nat) (es : List Bool) (s : State) : (writeMasked a l es s).jtag = s.jtag := by
  induction l generalizing a es s with
  | nil => cases es <;> rfl
  | cons b l ih => cases es with
    | nil => rfl
    | cons e es => cases e <;> simp [writeMasked, ih]
@[simp] theorem writeMasked_freeCtr (a : Addr) (l : List Nat) (es : List Bool) (s : State) : (writeMasked a l es s).freeCtr = s.freeCtr := by
  induction l generalizing a es s with
  | nil => cases es <;> rfl
  | cons b l ih => cases es with
    | nil => rfl
    | cons e es => cases e <;> simp [writeMasked, ih]
@[simp] theorem writeMasked_pending (a : Addr) (l : List Nat) (es : List Bool) (s : State) : (writeMasked a l es s).pending = s.pending := by
  induction l generalizing a es s with
  | nil => cases es <;> rfl
  | cons b l ih => cases es with
    | nil => rfl
    | cons e es => cases e <;> simp [writeMasked, ih]

end Sys2Proof.Machine
end

