-- ==== Sys2Proof/Laws/Regs.lean ====
section
/-! SUPPORT. What a register field reads after each update, and the canonical form of sparse lists and memories. -/

namespace Sys2Proof.Machine

/-! ## Sparse lists -/

theorem sparseFind_insert_same {α : Type} (k : Nat) (v : α) (m : List (Nat × α)) : sparseFind k (sparseInsert k v m) = some v := by
  induction m with
  | nil => simp [sparseInsert, sparseFind]
  | cons e m ih =>
    obtain ⟨j, w⟩ := e
    unfold sparseInsert
    by_cases h : j = k
    · simp [h, sparseFind]
    · by_cases h2 : k < j
      · simp [h, h2, sparseFind]
      · simp [h, h2, sparseFind, ih]

theorem sparseFind_insert_ne {α : Type} (k j : Nat) (v : α) (m : List (Nat × α)) (h : j ≠ k) :
    sparseFind j (sparseInsert k v m) = sparseFind j m := by
  induction m with
  | nil => simp [sparseInsert, sparseFind, h.symm]
  | cons e m ih =>
    obtain ⟨i, w⟩ := e
    unfold sparseInsert
    by_cases h1 : i = k
    · subst h1
      simp [sparseFind, h.symm]
    · by_cases h2 : k < i
      · simp [h1, h2, sparseFind, h.symm]
      · simp [h1, h2, sparseFind, ih]

theorem sparseFind_erase_same {α : Type} (k : Nat) (m : List (Nat × α)) : sparseFind k (sparseErase k m) = none := by
  induction m with
  | nil => rfl
  | cons e m ih =>
    obtain ⟨i, w⟩ := e
    unfold sparseErase
    by_cases h1 : i = k
    · simp [h1, ih]
    · simp [h1, sparseFind, ih]

theorem sparseFind_erase_ne {α : Type} (k j : Nat) (m : List (Nat × α)) (h : j ≠ k) :
    sparseFind j (sparseErase k m) = sparseFind j m := by
  induction m with
  | nil => rfl
  | cons e m ih =>
    obtain ⟨i, w⟩ := e
    unfold sparseErase
    by_cases h1 : i = k
    · subst h1
      simp [sparseFind, h.symm, ih]
    · simp [h1, sparseFind, ih]

/-- A weaker bound on the keys holds as well. -/
theorem sparseRising_mono {α : Type} {a b : Nat} {m : List (Nat × α)} (h : a ≤ b) (hm : sparseRising b m = true) :
    sparseRising a m = true := by
  cases m with
  | nil => rfl
  | cons e m =>
    simp only [sparseRising, Bool.and_eq_true, decide_eq_true_eq] at *
    exact ⟨by omega, hm.2⟩

theorem sparseRising_insert {α : Type} (k : Nat) (v : α) (lo : Nat) (m : List (Nat × α)) (hk : lo ≤ k) (hm : sparseRising lo m = true) :
    sparseRising lo (sparseInsert k v m) = true := by
  induction m generalizing lo with
  | nil => simp [sparseInsert, sparseRising, hk]
  | cons e m ih =>
    obtain ⟨i, w⟩ := e
    simp only [sparseRising, Bool.and_eq_true, decide_eq_true_eq] at hm
    unfold sparseInsert
    by_cases h1 : i = k
    · subst h1
      simp [sparseRising, hm.1, hm.2]
    · by_cases h2 : k < i
      · simp only [h1, h2, if_true, if_false, sparseRising, Bool.and_eq_true, decide_eq_true_eq]
        exact ⟨hk, by omega, hm.2⟩
      · simp only [h1, h2, if_false, sparseRising, Bool.and_eq_true, decide_eq_true_eq]
        exact ⟨hm.1, ih (i + 1) (by omega) hm.2⟩

theorem sparseRising_erase {α : Type} (k lo : Nat) (m : List (Nat × α)) (hm : sparseRising lo m = true) :
    sparseRising lo (sparseErase k m) = true := by
  induction m generalizing lo with
  | nil => rfl
  | cons e m ih =>
    obtain ⟨i, w⟩ := e
    simp only [sparseRising, Bool.and_eq_true, decide_eq_true_eq] at hm
    unfold sparseErase
    by_cases h1 : i = k
    · simp only [h1, if_true]
      exact sparseRising_mono (by omega) (ih (i + 1) hm.2)
    · simp only [h1, if_false, sparseRising, Bool.and_eq_true, decide_eq_true_eq]
      exact ⟨hm.1, ih (i + 1) hm.2⟩

theorem mem_sparseInsert {α : Type} {k : Nat} {v : α} {m : List (Nat × α)} {e : Nat × α} (h : e ∈ sparseInsert k v m) :
    e = (k, v) ∨ e ∈ m := by
  induction m with
  | nil => simpa [sparseInsert] using h
  | cons f m ih =>
    obtain ⟨i, w⟩ := f
    unfold sparseInsert at h
    by_cases h1 : i = k
    · simp only [h1, if_true, List.mem_cons] at h ⊢
      rcases h with h | h
      · exact .inl h
      · exact .inr (.inr h)
    · by_cases h2 : k < i
      · simp only [h1, h2, if_true, if_false, List.mem_cons] at h ⊢
        exact h
      · simp only [h1, h2, if_false, List.mem_cons] at h ⊢
        rcases h with h | h
        · exact .inr (.inl h)
        · rcases ih h with h | h
          · exact .inl h
          · exact .inr (.inr h)

theorem mem_sparseErase {α : Type} {k : Nat} {m : List (Nat × α)} {e : Nat × α} (h : e ∈ sparseErase k m) : e ∈ m := by
  induction m with
  | nil => exact h
  | cons f m ih =>
    obtain ⟨i, w⟩ := f
    unfold sparseErase at h
    by_cases h1 : i = k
    · simp only [h1, if_true] at h
      exact List.mem_cons_of_mem _ (ih h)
    · simp only [h1, if_false, List.mem_cons] at h
      rcases h with h | h
      · exact h ▸ List.mem_cons_self
      · exact List.mem_cons_of_mem _ (ih h)

/-! ## Register fields -/

theorem regGet_regSet_same (F : Fld) (v : Nat) (m : List (Nat × Nat)) : regGet F (regSet F v m) = v % 2 ^ F.width := by
  unfold regGet regSet
  by_cases h : v % 2 ^ F.width = F.reset
  · simp [h, sparseFind_erase_same]
  · simp [h, sparseFind_insert_same]

theorem regGet_regSet_ne (F G : Fld) (v : Nat) (m : List (Nat × Nat)) (h : F.key ≠ G.key) : regGet F (regSet G v m) = regGet F m := by
  unfold regGet regSet
  by_cases h2 : v % 2 ^ G.width = G.reset
  · simp [h2, sparseFind_erase_ne _ _ _ h]
  · simp [h2, sparseFind_insert_ne _ _ _ _ h]

@[simp] theorem set_regs (F : Fld) (v : Nat) (s : State) : (set F v s).regs = regSet F v s.regs := rfl

/-- A field that was set reads what was set, in its width. -/
theorem get_set_same (F : Fld) (v : Nat) (s : State) : get F (set F v s) = v % 2 ^ F.width := regGet_regSet_same F v s.regs

/-- Setting a field leaves every other field. -/
theorem get_set_ne (F G : Fld) (v : Nat) (s : State) (h : F.key ≠ G.key) : get F (set G v s) = get F s :=
  regGet_regSet_ne F G v s.regs h

theorem get_setB_same (F : Fld) (b : Bool) (s : State) : get F (setB F b s) = b2n b % 2 ^ F.width := get_set_same F _ s

theorem get_setB_ne (F G : Fld) (b : Bool) (s : State) (h : F.key ≠ G.key) : get F (setB G b s) = get F s := get_set_ne F G _ s h

theorem get_bump_same (F : Fld) (s : State) (h : get F s < 2 ^ F.width) :
    get F (bump F s) = if get F s + 1 < 2 ^ F.width then get F s + 1 else 2 ^ F.width - 1 := by
  unfold bump
  rw [get_set_same]
  apply Nat.mod_eq_of_lt
  split <;> omega

theorem get_bump_ne (F G : Fld) (s : State) (h : F.key ≠ G.key) : get F (bump G s) = get F s := get_set_ne F G _ s h

theorem get_count_same (F : Fld) (s : State) : get F (count F s) = (get F s + 1) % 2 ^ F.width := get_set_same F _ s

theorem get_count_ne (F G : Fld) (s : State) (h : F.key ≠ G.key) : get F (count G s) = get F s := get_set_ne F G _ s h

/-- A field depends on nothing but the register values. -/
theorem get_congr (F : Fld) {s t : State} (h : s.regs = t.regs) : get F s = get F t := by unfold get; rw [h]

theorem com_congr (F : Fld) {s t : State} (h : s.committed = t.committed) : com F s = com F t := by unfold com; rw [h]

theorem app_congr (F : Fld) {s t : State} (h : s.applied = t.applied) : app F s = app F t := by unfold app; rw [h]

@[simp] theorem get_raise (F : Fld) (src : Nat) (s : State) : get F (raise src s) = get F s := get_congr F (raise_regs src s)

@[simp] theorem get_draw (F : Fld) (s : State) : get F (draw s).2 = get F s := rfl

/-- Logging a fault changes no field but the next ESEQ and the count of lost entries. -/
theorem get_holdEntry (F : Fld) (e : LogEntry) (s : State) (h1 : F.key ≠ LOG_ESEQ.NEXT.key) (h2 : F.key ≠ LOG_STAT.LOST.key) :
    get F (holdEntry e s) = get F s := by
  unfold holdEntry
  dsimp only
  split
  · exact (get_congr F rfl).trans (get_count_ne F _ s h1)
  · rw [get_bump_ne F _ _ h2, get_count_ne F _ s h1]

theorem get_fault (F : Fld) (code unit d0 d1 : Nat) (s : State) (h1 : F.key ≠ LOG_ESEQ.NEXT.key) (h2 : F.key ≠ LOG_STAT.LOST.key) :
    get F (fault code unit d0 d1 s) = get F s := by
  unfold fault
  dsimp only
  split
  · exact get_holdEntry F _ s h1 h2
  · rfl

theorem get_faultAddr (F : Fld) (code unit addr : Nat) (s : State) (h1 : F.key ≠ LOG_ESEQ.NEXT.key) (h2 : F.key ≠ LOG_STAT.LOST.key) :
    get F (faultAddr code unit addr s) = get F s := get_fault F _ _ _ _ s h1 h2

/-- A fault is either held with the next ESEQ or, with 16 held, counted as lost (R529, R530). -/
theorem holdEntry_hold (e : LogEntry) (s : State) :
    (s.log.hold.length < 16 → (holdEntry e s).log.hold =
      insertEntry { e with eseq := get LOG_ESEQ.NEXT s, time := tick s } s.log.hold) ∧
    (16 ≤ s.log.hold.length → (holdEntry e s).log = s.log) := by
  constructor
  · intro h
    simp [holdEntry, h]
  · intro h
    simp [holdEntry, Nat.not_lt.mpr h]

/-! ## Memory -/

theorem memGet_memSet_same (loss : Losses) (a : Addr) (v : Byte) (m : List Host.Cell) : memGet loss a (memSet loss a v m) = v := by
  unfold memGet memSet
  by_cases h : v = unlisted loss a
  · simp [h, sparseFind_erase_same]
  · simp [h, sparseFind_insert_same]

theorem memGet_memSet_ne (loss : Losses) (a b : Addr) (v : Byte) (m : List Host.Cell) (h : b ≠ a) :
    memGet loss b (memSet loss a v m) = memGet loss b m := by
  unfold memGet memSet
  by_cases h2 : v = unlisted loss a
  · simp [h2, sparseFind_erase_ne _ _ _ h]
  · simp [h2, sparseFind_insert_ne _ _ _ _ h]

/-- A write keeps the canonical form of the memory. -/
theorem memSet_wf (loss : Losses) (a : Addr) (v : Byte) (m : List Host.Cell) (h : Memory.wf loss m = true) :
    Memory.wf loss (memSet loss a v m) = true := by
  unfold Memory.wf at *
  simp only [Bool.and_eq_true, List.all_eq_true, bne_iff_ne, ne_eq] at *
  unfold memSet
  by_cases h2 : v = unlisted loss a
  · simp only [h2, if_true]
    exact ⟨sparseRising_erase a 0 m h.1, fun e he => h.2 e (mem_sparseErase he)⟩
  · simp only [h2, if_false]
    refine ⟨sparseRising_insert a v 0 m (Nat.zero_le _) h.1, fun e he => ?_⟩
    rcases mem_sparseInsert he with he | he
    · subst he
      exact h2
    · exact h.2 e he

/-- The canonical form of the state's memory. -/
def memWf (s : State) : Prop := Memory.wf (lossOf s) s.mem = true

theorem reset_memWf : memWf State.reset := rfl

theorem writeByte_wf (a : Addr) (v : Byte) (s : State) (h : memWf s) : memWf (writeByte a v s) := memSet_wf _ a v s.mem h

theorem writeBytes_wf (a : Addr) (l : List Nat) (s : State) (h : memWf s) : memWf (writeBytes a l s) := by
  induction l generalizing a s with
  | nil => exact h
  | cons b l ih => exact ih _ _ (writeByte_wf _ _ _ h)

theorem writeMasked_wf (a : Addr) (l : List Nat) (es : List Bool) (s : State) (h : memWf s) : memWf (writeMasked a l es s) := by
  induction l generalizing a es s with
  | nil => cases es <;> exact h
  | cons b l ih =>
    cases es with
    | nil => exact h
    | cons e es =>
      cases e
      · exact ih _ _ _ h
      · exact ih _ _ _ (writeByte_wf _ _ _ h)

/-- A written byte reads back. -/
theorem readByte_writeByte_same (a : Addr) (v : Byte) (s : State) : readByte a (writeByte a v s) = v := memGet_memSet_same _ a v s.mem

/-- A written byte leaves every other byte. -/
theorem readByte_writeByte_ne (a b : Addr) (v : Byte) (s : State) (h : b ≠ a) : readByte b (writeByte a v s) = readByte b s :=
  memGet_memSet_ne _ a b v s.mem h

/-- Bytes written from an address leave every byte outside them. -/
theorem readByte_writeBytes_out (a b : Nat) (l : List Nat) (s : State) (h : b < a ∨ a + l.length ≤ b) :
    readByte b (writeBytes a l s) = readByte b s := by
  induction l generalizing a s with
  | nil => rfl
  | cons x l ih =>
    simp only [List.length_cons] at h
    unfold writeBytes
    rw [ih (a + 1) _ (by omega)]
    exact readByte_writeByte_ne a b _ s (fun e => by have e : b = a := e; omega)

/-- Bytes written from an address read back. -/
theorem readByte_writeBytes_in (a i : Nat) (l : List Nat) (s : State) (h : i < l.length) :
    readByte (a + i) (writeBytes a l s) = BitVec.ofNat 8 (l.getD i 0) := by
  induction l generalizing a i s with
  | nil => simp at h
  | cons x l ih =>
    unfold writeBytes
    cases i with
    | zero =>
      rw [readByte_writeBytes_out _ _ _ _ (by omega)]
      simp [readByte_writeByte_same]
    | succ i =>
      have := ih (a + 1) i (writeByte a (BitVec.ofNat 8 x) s) (by simpa using h)
      rw [show a + (i + 1) = a + 1 + i by omega, this]
      simp

end Sys2Proof.Machine
end

