-- ==== Sys2Proof/Laws/Core.lean ====
section
/-! SUPPORT. What the core's shared operations do: writing a general register, completing an instruction, taking an exception. -/

namespace Sys2Proof.Machine

/-! ## General registers (R325) -/

theorem gr_congr (r : Fin 16) {s t : State} (h : s.seq.g = t.seq.g) : gr r s = gr r t := by unfold gr; rw [h]

theorem gr_setG_same (d : Fin 16) (v : Word) (k : Nat) (s : State) : gr d (setG d v k s) = if d = 0 then 0 else v := by
  by_cases h : d = 0
  · simp [gr, h]
  · simp [gr, setG, h]

theorem gr_setG_ne (d r : Fin 16) (v : Word) (k : Nat) (s : State) (h : r ≠ d) : gr r (setG d v k s) = gr r s := by
  by_cases h0 : d = 0
  · simp [setG, h0]
  · have hv : r.val ≠ d.val := fun e => h (Fin.ext e)
    simp only [gr, setG, h0, if_false]
    split
    · rfl
    · simp [hv.symm]

@[simp] theorem setG_sys (d : Fin 16) (v : Word) (k : Nat) (s : State) : (setG d v k s).seq.sys = s.seq.sys := by
  unfold setG; split <;> rfl

@[simp] theorem setG_pc (d : Fin 16) (v : Word) (k : Nat) (s : State) : (setG d v k s).seq.pc = s.seq.pc := by
  unfold setG; split <;> rfl

@[simp] theorem setG_regs (d : Fin 16) (v : Word) (k : Nat) (s : State) : (setG d v k s).regs = s.regs := by
  unfold setG; split <;> rfl

@[simp] theorem setG_now (d : Fin 16) (v : Word) (k : Nat) (s : State) : (setG d v k s).now = s.now := by
  unfold setG; split <;> rfl

/-- Writing a general register changes the core only. -/
theorem setG_frame (d : Fin 16) (v : Word) (k : Nat) (s : State) : setG d v k s = { s with seq := (setG d v k s).seq } := by
  unfold setG; split <;> rfl

/-! ## Completion (R358) -/

@[simp] theorem retireTo_pc (p : Word) (c b : Nat) (s : State) : (retireTo p c b s).seq.pc = p := rfl
@[simp] theorem retireTo_sys (p : Word) (c b : Nat) (s : State) : (retireTo p c b s).seq.sys = s.seq.sys := rfl
@[simp] theorem retireTo_g (p : Word) (c b : Nat) (s : State) : (retireTo p c b s).seq.g = s.seq.g := rfl
@[simp] theorem retireTo_xip (p : Word) (c b : Nat) (s : State) : (retireTo p c b s).seq.xip = s.seq.xip := rfl
@[simp] theorem retireTo_mem (p : Word) (c b : Nat) (s : State) : (retireTo p c b s).mem = s.mem := rfl
@[simp] theorem retireTo_evt (p : Word) (c b : Nat) (s : State) : (retireTo p c b s).evt = s.evt := rfl

/-- Completion changes of the register space what the core shows of itself. -/
theorem retireTo_keeps (p : Word) (c b : Nat) (s : State) : keepsFields [SYS_SEQ_STAT.STATE, SYS_SEQ_PC.PC] s (retireTo p c b s) := by
  intro F h
  unfold retireTo
  rw [get_set_ne _ _ _ _ (h _ (by simp)), get_set_ne _ _ _ _ (h _ (by simp))]
  rfl

theorem get_retireTo (F : Fld) (p : Word) (c b : Nat) (s : State) (h1 : F.key ≠ SYS_SEQ_STAT.STATE.key) (h2 : F.key ≠ SYS_SEQ_PC.PC.key) :
    get F (retireTo p c b s) = get F s := retireTo_keeps p c b s F (by intro G hG; simp at hG; rcases hG with rfl | rfl <;> assumption)

theorem retireTo_frame (p : Word) (c b : Nat) (s : State) :
    retireTo p c b s = { s with regs := (retireTo p c b s).regs, seq := (retireTo p c b s).seq } := rfl

/-- An instruction that writes d and completes with the next one at `p`. -/
theorem coreWrote_retireTo (d : Fin 16) (v p : Word) (w c b : Nat) (s : State) : coreWrote d v p s (retireTo p c b (setG d v w s)) := by
  refine ⟨gr_setG_same d v w s, fun r hr => gr_setG_ne d r v w s hr, rfl, setG_sys d v w s, ?_, ?_⟩
  · intro F h
    exact (retireTo_keeps p c b _ F h).trans (get_congr F (setG_regs d v w s))
  · rw [retireTo_frame, setG_frame]

/-- The same with the next instruction in sequence. -/
theorem coreWrote_retire (d : Fin 16) (v : Word) (w c b : Nat) (s : State) :
    coreWrote d v (s.seq.pc + 4) s (retire c b (setG d v w s)) := by
  unfold retire
  rw [setG_pc]
  exact coreWrote_retireTo d v _ w c b s

/-- An instruction that completes and writes no general register. -/
theorem coreWent_retireTo (p : Word) (c b : Nat) (s : State) : coreWent p s (retireTo p c b s) :=
  ⟨fun _ => rfl, rfl, rfl, retireTo_keeps p c b s, rfl⟩

/-! ## Exceptions (R346, R348) -/

@[simp] theorem fault_seq' (code unit d0 d1 : Nat) (s : State) : (fault code unit d0 d1 s).seq = s.seq := fault_seq code unit d0 d1 s

/-- A fault changes the log, its sequence counter and its count of lost entries only. -/
theorem fault_frame (code unit d0 d1 : Nat) (s : State) :
    fault code unit d0 d1 s = { s with regs := (fault code unit d0 d1 s).regs, log := (fault code unit d0 d1 s).log } := by
  unfold fault holdEntry; dsimp only
  split
  · split <;> rfl
  · rfl

/-- Entering level X and showing it leaves every register field but the core's state. -/
theorem get_entered (F : Fld) (code info bad : Nat) (epc ofs : Word) (s : State) (h : F.key ≠ SYS_SEQ_STAT.STATE.key) :
    get F (set SYS_SEQ_STAT.STATE 1 (enterX code info bad epc ofs s)) = get F s := get_set_ne F _ _ _ h

/-- Below level X a synchronous exception enters level X at the exception vector. -/
theorem coreTrapped_exception (code info bad : Nat) (instr epc : Word) (s : State) (h : s.seq.sys.lvl < 5) :
    coreTrapped code info bad epc s (exception code info bad instr epc s) := by
  have h5 : ¬ 5 ≤ s.seq.sys.lvl := by omega
  unfold exception
  rw [if_neg h5]
  dsimp only
  split
  · refine ⟨?_, ?_, get_set_same _ _ _, fun r => gr_congr r ?_, fun _ => rfl, fun h8 => by omega, fun F hF => ?_, ?_⟩
    · simp [enterX, statusBits]
    · simp [enterX]
    · simp [enterX]
    · rw [get_entered F _ _ _ _ _ _ (hF _ (by simp)), get_fault _ _ _ _ _ _ (hF _ (by simp)) (hF _ (by simp))]
    · rw [fault_frame]; rfl
  · exact ⟨rfl, rfl, get_set_same _ _ _, fun _ => rfl, fun h3 => by omega, fun _ => rfl,
      fun F hF => get_entered F _ _ _ _ _ _ (hF _ (by simp)), rfl⟩

/-- At level X it brings LOCKUP and leaves the system registers. -/
theorem exception_lockup (code info bad : Nat) (instr epc : Word) (s : State) (h : 5 ≤ s.seq.sys.lvl) :
    get SYS_SEQ_STAT.STATE (exception code info bad instr epc s) = 3 ∧ (exception code info bad instr epc s).seq = { s.seq with pc := instr } ∧
      (exception code info bad instr epc s).mem = s.mem := by
  unfold exception
  rw [if_pos h]
  refine ⟨?_, by simp, by simp⟩
  rw [get_fault _ _ _ _ _ _ (by decide) (by decide), get_set_same]
  rfl

end Sys2Proof.Machine
end

