-- ==== Sys2Proof/Laws/Memory.lean ====
section
/-! SUPPORT. The canonical form of memory under line writes, engine writes and losses of contents. -/

namespace Sys2Proof.Machine

/-- Memory and its losses are all that the form looks at. -/
theorem memWf_of_eq {s t : State} (hm : t.mem = s.mem) (hl : lossOf t = lossOf s) (h : memWf s) : memWf t := by
  unfold memWf
  rw [hm, hl]
  exact h

/-- Rising keys stay rising when cells leave. -/
theorem sparseRising_filter {α : Type} (p : Nat × α → Bool) (lo : Nat) (m : List (Nat × α)) (h : sparseRising lo m = true) :
    sparseRising lo (m.filter p) = true := by
  induction m generalizing lo with
  | nil => rfl
  | cons e m ih =>
    obtain ⟨j, v⟩ := e
    simp only [sparseRising, Bool.and_eq_true, decide_eq_true_eq] at h
    simp only [List.filter_cons]
    split
    · simp only [sparseRising, Bool.and_eq_true, decide_eq_true_eq]
      exact ⟨h.1, ih _ h.2⟩
    · exact sparseRising_mono (by omega) (ih _ h.2)

/-- Cells may leave, and the losses may change where no cell is left. -/
theorem wf_filter (p : Host.Cell → Bool) {a b : Losses} {m : List Host.Cell} (h : Memory.wf a m = true)
    (hp : ∀ c, p c = true → unlisted b c.1 = unlisted a c.1) : Memory.wf b (m.filter p) = true := by
  unfold Memory.wf at *
  simp only [Bool.and_eq_true, List.all_eq_true, bne_iff_ne, ne_eq] at *
  refine ⟨sparseRising_filter p 0 m h.1, fun c hc => ?_⟩
  rw [List.mem_filter] at hc
  rw [hp c hc.2]
  exact h.2 c hc.1

/-- Cells leave that no loss touches. -/
theorem dropCells_wf (lo hi : Addr) (loss : Losses) (m : List Host.Cell) (h : Memory.wf loss m = true) :
    Memory.wf loss (dropCells lo hi m) = true := wf_filter _ h (fun _ _ => rfl)

theorem zeroSquare_wf (s : State) (h : memWf s) : memWf (zeroSquare s) := by
  refine wf_filter _ h (fun c hc => ?_)
  have hc : ¬(sqBase ≤ c.1 ∧ c.1 < sqBase + 0x2000000) := by
    rintro ⟨h1, h2⟩
    simp [h1, h2] at hc
  have no : ∀ n, ¬(0 < n ∧ sqBase ≤ c.1 ∧ c.1 < sqBase + 0x1000000) := fun n x => hc ⟨x.2.1, by have := x.2.2; omega⟩
  simp only [unlisted, lossOf, zeroSquare, no, if_false]

theorem loseArea_wf (s : State) (h : memWf s) : memWf (loseArea s) := by
  refine wf_filter _ h (fun c hc => ?_)
  have hc : ¬(sqBase ≤ c.1 ∧ c.1 < sqBase + 0x1000000) := by
    rintro ⟨h1, h2⟩
    simp [h1, h2] at hc
  have no : ∀ n, ¬(0 < n ∧ sqBase ≤ c.1 ∧ c.1 < sqBase + 0x1000000) := fun n x => hc x.2
  simp only [unlisted, lossOf, loseArea, no, if_false]

theorem loseBoulevard_wf (s : State) (h : memWf s) : memWf (loseBoulevard s) := by
  refine wf_filter _ h (fun c hc => ?_)
  have hc : c.1 < blvBase := by simpa using hc
  simp only [unlisted, lossOf, loseBoulevard, hc, if_true]
  rfl

/-- A reset lists nothing. -/
theorem outside_wf (s : State) : memWf (outside s State.reset) := by
  have e : (outside s State.reset).mem = [] := by
    unfold outside
    dsimp only
    split <;> rfl
  unfold memWf
  rw [e]
  rfl

/-! ## Line writes -/

@[simp] theorem clearUpset_mem (line : Addr) (s : State) : (clearUpset line s).mem = s.mem := rfl
@[simp] theorem clearUpset_lossOf (line : Addr) (s : State) : lossOf (clearUpset line s) = lossOf s := rfl
@[simp] theorem putUpset_mem (w : Addr) (b : Bool) (raw : List Nat) (s : State) : (putUpset w b raw s).mem = s.mem := rfl
@[simp] theorem putUpset_lossOf (w : Addr) (b : Bool) (raw : List Nat) (s : State) : lossOf (putUpset w b raw s) = lossOf s := rfl

/-- A write's effect on an upset leaves memory and its losses. -/
theorem upsetWrite_keeps (w : Addr) (new : List (Option Nat)) (s : State) :
    (upsetWrite w new s).mem = s.mem ∧ lossOf (upsetWrite w new s) = lossOf s := by
  unfold upsetWrite
  split
  · exact ⟨rfl, rfl⟩
  · split
    · exact ⟨rfl, rfl⟩
    · split <;> exact ⟨rfl, rfl⟩

/-- The mending of a line leaves memory and its losses. -/
theorem lineMend_keeps (line : Addr) (new : List (Option Nat)) (s : State) :
    (lineMend line new s).mem = s.mem ∧ lossOf (lineMend line new s) = lossOf s := by
  have fold : ∀ (l : List Nat) (s : State),
      (l.foldl (fun s i => upsetWrite (line + 8 * i) ((new.drop (8 * i)).take 8) s) s).mem = s.mem ∧
      lossOf (l.foldl (fun s i => upsetWrite (line + 8 * i) ((new.drop (8 * i)).take 8) s) s) = lossOf s := by
    intro l
    induction l with
    | nil => exact fun s => ⟨rfl, rfl⟩
    | cons i l ih =>
      intro s
      have h := upsetWrite_keeps (line + 8 * i) ((new.drop (8 * i)).take 8) s
      exact ⟨(ih _).1.trans h.1, (ih _).2.trans h.2⟩
  unfold lineMend
  dsimp only
  by_cases hu : s.memory.upsets.isEmpty = true
  · rw [if_pos hu]
    split <;> exact ⟨rfl, rfl⟩
  · rw [if_neg hu]
    have h := fold (List.range 8) s
    split
    · exact h
    · exact h

theorem lineMend_wf (line : Addr) (new : List (Option Nat)) (s : State) (h : memWf s) : memWf (lineMend line new s) :=
  memWf_of_eq (lineMend_keeps line new s).1 (lineMend_keeps line new s).2 h

theorem engineWrite_wf (a : Addr) (b : List Nat) (s : State) (h : memWf s) : memWf (engineWrite a b s) :=
  lineMend_wf _ _ _ (writeBytes_wf a b s h)

theorem fault_keepsMem (code unit d0 d1 : Nat) (s : State) (h : memWf s) : memWf (fault code unit d0 d1 s) :=
  memWf_of_eq (by simp) (by simp [lossOf]) h

theorem faultAddr_keepsMem (code unit a : Nat) (s : State) (h : memWf s) : memWf (faultAddr code unit a s) :=
  memWf_of_eq (by simp) (by simp [lossOf]) h

theorem lineWrite_wf (owner : Owner) (line : Addr) (data : List Nat) (enables : List Bool) (s : State) (h : memWf s) :
    memWf (lineWrite owner line data enables s).2 := by
  have hw := writeMasked_wf line data enables s h
  unfold lineWrite
  by_cases hl : isLate (if inSquare line then 0x08 else 0x0D) owner s = true
  · rw [if_pos hl]
    exact h
  · rw [if_neg hl]
    split
    · split
      · exact lineMend_wf _ _ _ hw
      · exact faultAddr_keepsMem _ _ _ _ h
    · split
      · exact lineMend_wf _ _ _ hw
      · exact faultAddr_keepsMem _ _ _ _ h

end Sys2Proof.Machine
end

