-- ==== Sys2Proof/Tests/Slice0.lean ====
section
/-! SUPPORT. Tests: well-formedness, words of the core's encoding, and states that meet the hypotheses of every statement. -/

namespace Sys2Proof.Tests

open Sys2Proof.Machine

/-! ## Well-formedness: an ill-formed command for each check -/

/-- A frame of no payload. -/
def frame0 : FrameIn := ⟨0, 0, 0, 0, [], true, 0x80, 0, false, 100⟩

/-- A packet and a message of zeros. -/
def packet0 : PacketIn := ⟨0, 0, 0, 0, []⟩
def timing0 : TimingIn := ⟨0, 0, 0, 0, 0⟩

theorem test_wf_accepts :
    [Instr.verify 7, .registerWrite 0x40300000 0xFFFFFFFF, .sync frame0, .arm 1 timing0, .postedWrite 0 packet0, .beat (List.replicate 68 4095) [],
      .stopTask 56, .spnCmd 2 0, .add 1 2 3].all Instr.wf = true := by decide

theorem test_wf_refuses_numbers :
    [Instr.verify 8, .swap 8, .invalidate 8, .headerRead 2 [], .handoverAttempt 4, .calibrationCycleEnd 68 0 0 0 0, .candidateHorizon 4, .holdoffEnd 4,
      .dmaStart 32, .stopTask 57, .evtLineSrcWrite 64 0, .evtPinPulseEnd 4, .serialAbort 3, .windowEnable 4 0, .erostUp 2 0 0, .refLoss 5,
      .spnCmd 1 0, 
      .linkAck 0 4 0 0, .railLoss 3].any Instr.wf = false := by decide

theorem test_wf_refuses_values :
    [Instr.modeChangeRequest 4294967296, .registerWrite 0x10000000000 0, .registerWrite 0 4294967296, .beat [0] [], .beat (List.replicate 68 4096) [],
      .xipLineFill [1], .sync { frame0 with payload := [1] }, .sync { frame0 with control := 256 }, .req { frame0 with flags := 16 }, .arm 0 { timing0 with hop := 8 },
      .postedWrite 0 { packet0 with seq := 4096 }, .erostUp 0 18446744073709551616 0, .reservedFrameType 7 frame0].any Instr.wf = false := by decide

/-! ## Words of the core, written out from R326 and R328 -/

theorem test_decode_add : decodeCore (0b000000_0011_0001_0010_00000000000001#32) = some (.add 3 1 2) := by decide
theorem test_decode_addi : decodeCore 0x04800001 = some (.addi 2 0 1) := by decide
theorem test_decode_lui : decodeCore 0x304100C0 = some (.lui 1 0x100C0) := by decide
theorem test_decode_waitev : decodeCore 0xCC000000 = some (.waitev 0) := by decide
theorem test_decode_sw_lw : decodeCore 0x68840038 = some (.sw 2 1 0x38) ∧ decodeCore 0x50C40040 = some (.lw 3 1 0x40) := by decide
theorem test_decode_bge : decodeCore 0x8C103FFC = some (.bge 4 0 0x3FFC) := by decide
theorem test_decode_zeros : decodeCore 0 = none := by decide
theorem test_table_gives_no_bits (n w : Nat) : decodeTableWord n w = none := rfl

/-! ## States -/

/-- Reset with register fields set. -/
def wRegs (l : List (Fld × Nat)) : State := l.foldl (fun s e => set e.1 e.2 s) State.reset

/-- After boot, in slot 100 of the first period, the core running at 0x100. -/
def wRun (l : List (Fld × Nat)) : State :=
  { wRegs ((SYS_SEQ_STAT.STATE, 1) :: l) with
    tickOn := true, now := 100, seq.released := true, seq.pc := 0x100, boot.phase := .done, plan.running := true, plan.begun := true }

/-- The core with values in g1 and g3. -/
def wG (a b : Word) : State := { wRun [] with seq.g := ((Vector.replicate 16 0).set 1 a).set 3 b }

/-- The core at a level. -/
def wLvl (n : Nat) : State := { wRun [] with seq.sys.lvl := n }

/-- The core with a value of its own in every system register. -/
def wSys : State := { wRun [] with seq.sys.irqEn := 0x123456789ABCDEF0, seq.sys.tcmp := 0xFEDCBA9876543210, seq.sys.irqLvl := 0x0123456789ABCDEFFEDCBA9876543210, seq.sys.cycleCap := 0x1111111122222222, seq.sys.tickCap := 0x3333333344444444, seq.sys.multi := true, seq.sys.tcPend := true, seq.sys.swi := 0xA5, seq.sys.estat := Vector.ofFn (fun i => i.val + 3), seq.sys.epc := Vector.ofFn (fun i => BitVec.ofNat 32 (i.val * 16 + 4)), seq.sys.causeCode := 3, seq.sys.causeInfo := 77, seq.sys.badaddr := 0x1234, seq.sys.vbase := 0x3FF00 , seq.g := ((Vector.replicate 16 0).set 1 0xFFFFFFFF).set 3 0x12345678}

/-- Level 1 with STATUS.IE saved and the software interrupts enabled and pending. -/
def wIrq : State := { wLvl 1 with seq.sys.estat := (Vector.replicate 5 0).set 0 1, seq.sys.irqEn := BitVec.ofNat 64 (2 ^ 64 - 1), seq.sys.swi := 0xFF }

/-- A base address in g1, and bytes at the ends of both memories. -/
def wMem (a : Nat) : State := { wG (BitVec.ofNat 32 a) 0xDEADBEEF with mem := [(0, 1), (1, 0x82), (2, 3), (3, 0xF4), (0x3FFFC, 0x91), (0x100001, 0x77), (0x100002, 0xFE), (0x100003, 5), (0x100004, 0x80)] }

/-- A word load from the Square whose line has arrived. -/
def wLoad : State :=
  { wRun [] with seq.load := some ⟨0x100, 0x6000003C, 0x6000003C, 4, false, 3, [(0x60000000, none)], false, false⟩,
                 memory.flight := [⟨100, 0x24, 0x60000000, .load, List.replicate 64 7, false, false⟩] }

/-- A store in front of the buffer. -/
def wStore (a n : Nat) (err : Option (Nat × Bool)) : State := { wRun [] with seq.buffer := [⟨a, a, n, 0x12345678, 90⟩], seq.storeErr := err }

/-- Interrupts of one level enabled and pending at thread level. -/
def wLevel (n : Nat) : State :=
  { wRun [] with seq.sys.ie := true, seq.sys.irqEn := BitVec.ofNat 64 (2 ^ 64 - 1), seq.sys.swi := 0xFF,
                 seq.sys.irqLvl := BitVec.ofNat 128 ((2 ^ 128 - 1) / 3 * n) }

/-- Store words that make a slot hold a plan: MAGIC, and a mode in byte 0x0A. -/
def wPlanOf (slot mode : Nat) : List (Nat × Nat) := [(slot * 32768, 0x4E4C5056), (slot * 32768 + 2, mode * 65536)]

/-- A generation of 16 beats in RING placement. -/
def gen0 : RecGen := ⟨1, 1, false, 16, 8, 1, 0, false, 0, 0, 0, [], 0, []⟩

/-- A record of it. -/
def rec0 (p : RecPhase) : Rec :=
  ⟨1, p, gen0, false, true, 0, 0, 0, 0, [], 0, 0, 10, false, 0, 0, 0, false, false, 0, 0, 0, 0, [], 0, false, 0, false, false⟩

/-- A pending swap in the last slot of a period. -/
def wSwap (l : List Rec) : State := { wRun [(PWR_STAT.RUNG, 0)] with now := 4095, plan.swap := some (3, 4094), record.recs := l }

/-- A plan of CONFIG 1 is active. -/
def wPlan (l : List (Fld × Nat)) : State :=
  { wRun ((PWR_STAT.RUNG, 0) :: l) with plan.active := .slot 0, plan.store := [(0, 0x4E4C5056), (2, 1 * 16777216)] }

/-- `wRun` with settings in force. -/
def wApp (l : List (Fld × Nat)) (m : List (Fld × Nat)) : State :=
  { wRun l with applied := m.foldl (fun x e => regSet e.1 e.2 x) [] }

/-- `wRun` with settings committed. -/
def wCom (l : List (Fld × Nat)) (m : List (Fld × Nat)) : State :=
  { wRun l with committed := m.foldl (fun x e => regSet e.1 e.2 x) [] }

/-- A header of an image, its CRC with it, of a sequence number and a size. -/
def hdrB (seq size : Nat) : List Nat :=
  let b := leBytes 2 1 ++ leBytes 2 0 ++ leBytes 4 248 ++ leBytes 4 0x41444C4F ++ leBytes 2 1 ++ leBytes 2 0x0680 ++ leBytes 4 0x1234 ++ leBytes 4 seq ++ leBytes 4 size ++ [0, 0, 0, 0] ++ leBytes 2 0 ++ [8, 1, 6, 7] ++ [8, 0] ++ leBytes 4 9 ++ leBytes 2 3 ++ List.replicate (0xF8 - 0x2E) 0
  b ++ leBytes 4 (crc32c b) ++ [0, 0, 0, 0]

/-- Bytes as an image. -/
def img (l : List Nat) : Image := l.map (BitVec.ofNat 8)

/-- What that header says. -/
def hd (seq size : Nat) : ImageHeader := headerOf (hdrB seq size).toArray

/-- An image of the two required sections and a signature record, each with the least it may hold; its last bytes, all zero, are left off. -/
def image0 : List Nat :=
  List.replicate 256 0 ++ [2, 0, 0, 0, 0x54, 0, 0, 0, 0, 0, 0, 0, 4] ++ List.replicate 115 0 ++
    [3, 0, 0, 0, 0xC0, 0, 0, 0, 1] ++ List.replicate 15 0 ++ [0xC0] ++ List.replicate 231 0 ++ [0xFF, 0, 0, 0, 128]

/-- Bytes in lines of 64, the last first. -/
def hdrLines (b : List Nat) : List (List Nat) := ((List.range (b.length / 64)).map (fun i => (b.drop (64*i)).take 64)).reverse

/-- Quarter 3 at the beat of its attempt, its spare ready. -/
def wHand (o : Option Overlap) (b : Nat) : State :=
  { wPlan [(AVE_SC_STAT.STATE 67, 2)] with
    ave.quarters := [Quarter.init 0, Quarter.init 1, Quarter.init 2, { Quarter.init 3 with overlap := o }], ave.beat := b }

/-- A calibration cycle that has ended. -/
def wCal : State := { wPlan [] with ave.cals := [(16, ⟨some 5, false, false⟩)], ave.beat := 5 }

/-- A field result that is due. -/
def result0 : FieldResult := ⟨0, 100, 0, 0, 0, 0⟩

/-- A unit that takes it. -/
def wRes : State := { wApp [] [(TRG_CTRL.ENABLE 2, 1), (TRG_CTRL.TYPE 2, 7)] with trg.results := [result0] }

/-- One trigger unit of four in a given state. -/
def wUnit (u : UnitState) : State := { wRun [] with trg.units := [{}, u, {}, {}] }

/-- A condition that is decided now, of unit 2, with an engine that runs. -/
def wDecide (l : List Rec) : State :=
  { wRun [(PWR_STAT.RUNG, 0)] with trg.hits := [⟨2, 100, 0, 52428800, .cond⟩], record.running := true, record.recs := l, now := 148 }

/-- One record, late enough for its window. -/
def wRec (r : Rec) : State := { wRun [] with now := 4196, record.recs := [r] }

/-- An engine that runs, in RUN. -/
def wArm : State := { wRun [(PWR_STAT.RUNG, 0)] with record.running := true }

/-- Channel 31 in a state, with reads in flight. -/
def wChan (c : DmaCh) (fl : List Flight) : State := { wRun [] with dma.chans := List.replicate 31 {} ++ [c], memory.flight := fl }

/-- A descriptor of one line. -/
def desc0 : List Nat :=
  leBytes 8 0x60000000 ++ leBytes 8 0x60000040 ++ leBytes 4 64 ++ leBytes 4 0 ++ leBytes 4 1 ++ leBytes 4 64 ++ leBytes 4 0 ++ leBytes 4 1 ++
    leBytes 4 0x1000 ++ leBytes 4 7 ++ leBytes 8 0 ++ leBytes 8 0

/-- A queue entry of one byte. -/
def entry0 : SpEntry := ⟨0x41, 0⟩

/-- A host that has synchronised, with transactions in flight. -/
def wHost (l : List InFlight) : State :=
  { wRun [(SP1_CTRL.ENABLE, 1), (HFR_REQ_STAT.PENDING, 1)] with boot.sp1Open := true, boot.synced := true, hfr.flight := l, hfr.currentOf := some 0 }

/-- A transaction of one type. -/
def inf0 (t : Nat) : InFlight := ⟨frameOf t frame0, false, [], 0, 0, false, 0, 0, none⟩

/-- The display running, with settings applied. -/
def wDsp (m : List (Fld × Nat)) : State :=
  { wRun [(DSP_STAT.RUN, 1), (DSP_TE.EN, 1), (DSP_DSI.ACK, 1), (DSP_CMD_DATA.DATA, 0x29)] with
    dsp.applied := m.foldl (fun x e => regSet e.1 e.2 x) [] }

/-- The tone generator running. -/
def wTone : State := { wRun [(PWR_STAT.RUNG, 0), (STM_AUDIO_STAT.RUNNING, 1)] with line.toneEn := true }

/-- The speaker bridge in a state. -/
def wAmp (st : Nat) (l : List (Fld × Nat)) : State := wRun ((AMP_STAT.STATE, st) :: l)

/-- Port A in a state and with contents. -/
def wErl (st : Nat) (x : ErlPort) (l : List (Fld × Nat)) : State := { wRun ((ERL_PORT_STAT.STATE 0, st) :: l) with erl.portA := x }

/-- A beacon of a unit 7 that is its own master. -/
def beacon0 : BeaconIn := ⟨7, 7, 6, 0, false⟩

/-- A message whose tick lies ahead. -/
def timing1 : TimingIn := ⟨0, 0, 5000, 0, 0⟩

/-- An open window of the Square's first line, one request in an interval, both ports and both ways. -/
def win0 : Window := ⟨0x60000000, 64, 3, 3, 1, true⟩

/-- A packet to that line. -/
def packet1 : PacketIn := ⟨0, 0x60000000, 5, 0, List.replicate 64 1⟩

/-- A waiting log entry. -/
def log0 : LogEntry := ⟨0x101, 3, 0, false, 70000, 5, 6, 7⟩

/-! ## States that meet the hypotheses of the statements, clause by clause -/

theorem test_meets_register_forms_write_their_result :
    (let s := wRun []; let d : Fin 16 := 0; let a : Fin 16 := 0; let b : Fin 16 := 0; aluOk [a, b] d s = true) := by decide

theorem test_meets_division_never_traps :
    (let s := wRun []; let a : Fin 16 := 0; let b : Fin 16 := 0; otherOk [a, b] s = true) := by decide

theorem test_meets_immediate_forms_write_their_result :
    (let s := wRun []; let d : Fin 16 := 0; let a : Fin 16 := 0; aluOk [a] d s = true) := by decide

theorem test_meets_bit_fields_move_or_trap :
    (let s := wRun []; let p : BitVec 5 := 1; let n1 : BitVec 5 := 31; 32 < p.toNat + n1.toNat + 1 ∧ otherOk [] s = true ∧ s.seq.sys.lvl < 5) ∧
    (let s := wRun []; let d : Fin 16 := 1; let a : Fin 16 := 0; let p : BitVec 5 := 0; let n1 : BitVec 5 := 0; p.toNat + n1.toNat + 1 ≤ 32 ∧
      aluOk [a] d s = true ∧ aluOk [a, d] d s = true) := by decide

theorem test_meets_branches_and_jumps_set_the_pc :
    (let s := wRun []; let a : Fin 16 := 0; let b : Fin 16 := 0; otherOk [a, b] s = true ∧ otherOk [] s = true ∧ otherOk [a] s = true) := by decide

theorem test_meets_system_registers_read_and_write :
    (let s := wRun []; let r : SysRegs := s.seq.sys; let a : Fin 16 := 0; otherOk [] s = true ∧ r.lvl < 5 ∧ otherOk [a] s = true) := by decide

theorem test_meets_eret_returns_from_the_current_level :
    (let s := wSys; otherOk [] s = true ∧ s.seq.sys.lvl = 0) ∧
    (let s := wLvl 1; let k : Fin 5 := 0; otherOk [] s = true ∧ s.seq.sys.lvl = ↑k + 1) := by decide

theorem test_meets_exceptions_enter_level_x_or_lock_up :
    (let s := wSys; otherOk [] s = true ∧ s.seq.sys.lvl < 5) ∧
    (let s := wLvl 5; otherOk [] s = true ∧ s.seq.sys.lvl = 5) ∧
    (let s := { wSys with seq.pc := 0x40000010 }; otherOk [] s = true ∧ s.seq.sys.lvl < 5 ∧ s.seq.pc.toNat / 2 ^ 24 = 64) := by decide

theorem test_meets_event_instructions_use_their_stop :
    (let s := wSys; let n : BitVec 4 := 0; let k : Nat := 32 + n.toNat; otherOk [] s = true ∧ canRun k s = false ∧ s.seq.buffer = [] ∧
      groupClean s = true) ∧
    (let s := wRun [(EVT_STOP_CNT.COUNT (32 + 1), 1)]; let n : BitVec 4 := 1; let k : Nat := 32 + n.toNat; otherOk [] s = true ∧
      canRun k s = true) := by decide

theorem test_meets_loads_return_their_bytes :
    (let s := wMem 1610612798; let a : Fin 16 := 0; let imm : BitVec 14 := 0; let adr : Nat := 0; otherOk [a] s = true ∧
      adr = BitVec.toNat (gr a s + BitVec.signExtend 32 imm) ∧ (adr + 4 ≤ 262144 ∨ 1048576 ≤ adr ∧ adr + 4 ≤ 1179648) ∧ portFree adr s = true ∧
      (s.seq.buffer.all fun e => !e.overlaps adr 4) = true ∧ s.memory.upsets = []) ∧
    (let s := wMem 1073741828; let a : Fin 16 := 1; let imm : BitVec 14 := 0; let adr : Nat := 1073741828; otherOk [a] s = true ∧
      adr = BitVec.toNat (gr a s + BitVec.signExtend 32 imm) ∧ 1073741824 ≤ adr ∧ adr < 1090519040 ∧ adr % 4 = 0 ∧ s.seq.buffer = [] ∧
      groupClean s = true ∧ (busRead seqOwner adr s).fst = true ∧ s.seq.sys.lvl < 5 ∧ adr + 4 ≤ 1090519040) ∧
    (let s := wMem 805306352; let a : Fin 16 := 1; let imm : BitVec 14 := 0; let adr : Nat := 805306352; otherOk [a] s = true ∧
      adr = BitVec.toNat (gr a s + BitVec.signExtend 32 imm) ∧ s.seq.sys.lvl < 5 ∧ 536870912 ≤ adr ∧ adr + 4 ≤ 1073741824) ∧
    (let s := { wRun [(SYS_SEQ_COV_RD_LO.BANKS, 3)] with seq.g := (Vector.replicate 16 0).set 1 (BitVec.ofNat 32 0x60000000)}; let a : Fin 16 := 1;
      let imm : BitVec 14 := 0; let adr : Nat := 1610612736; let c : (State → Host.Outcome State Fault Refusal) × Nat × Bool := (execLb 0 1 0, 1,
      true); otherOk [a] s = true ∧ adr = BitVec.toNat (gr a s + BitVec.signExtend 32 imm) ∧ 1610612736 ≤ adr ∧ adr + 4 ≤ 1644167168 ∧
      s.seq.buffer = [] ∧ accessCovered adr c.snd.fst false s = true) ∧
    (let s := wLoad; let l : LoadOut := ⟨0x100, 0x6000003C, 0x6000003C, 4, false, 3, [(0x60000000, none)], false, false⟩; let due : Nat := 100;
      let data : List Nat := List.replicate 64 7; s.seq.load = some l ∧ inSquare l.addr = true ∧ l.size = 4 ∧ l.addr % 64 ≤ 60 ∧
      l.lines = [(lineOf l.addr, none)] ∧ l.bad = false ∧ l.fenced = false ∧ s.seq.group = none ∧ s.seq.abortAt = none ∧ data.length = 64 ∧
      due ≤ s.now ∧
      s.memory.flight = [{ due := due, owner := 36, addr := lineOf l.addr, tag := .load, data := data, bad := false, fenced := false }]) := by decide

theorem test_meets_stores_are_buffered_and_drained :
    (let s := wMem 1610612798; let d : Fin 16 := 0; let a : Fin 16 := 0; let imm : BitVec 14 := 0; let adr : Nat := 0; otherOk [a, d] s = true ∧
      adr = BitVec.toNat (gr a s + BitVec.signExtend 32 imm) ∧ (adr + 4 ≤ 262144 ∨ 1048576 ≤ adr ∧ adr + 4 ≤ 1179648 ∨ 536870912 ≤ adr ∧
      adr + 4 ≤ 1073741824) ∧ s.seq.buffer.length < 4) ∧
    (let s := wMem 1073741828; let d : Fin 16 := 0; let a : Fin 16 := 1; let imm : BitVec 14 := 0; let adr : Nat := 1073741828;
      otherOk [a, d] s = true ∧ adr = BitVec.toNat (gr a s + BitVec.signExtend 32 imm) ∧ 1073741824 ≤ adr ∧ adr + 4 ≤ 1090519040 ∧
      s.seq.sys.lvl < 5) ∧
    (let s := wStore 0x20000000 4 none; let e : StoreEntry := { raw := 536870912, addr := 536870912, size := 4, data := 305419896, head := 90 };
      let rest : List StoreEntry := []; s.seq.buffer = e :: rest ∧ e.head ≤ s.now ∧ 536870912 ≤ e.addr ∧ e.addr < 1073741824) ∧
    (let s := wStore 0x3FFFC 4 none; let e : StoreEntry := { raw := 262140, addr := 262140, size := 4, data := 305419896, head := 90 };
      let rest : List StoreEntry := []; let k : Nat := 4; s.seq.buffer = e :: rest ∧ e.head ≤ s.now ∧ e.size ∈ [1, 2, 4] ∧
      (e.addr + e.size ≤ 262144 ∨ 1048576 ≤ e.addr ∧ e.addr + e.size ≤ 1179648) ∧ drainMay e s = true ∧ k = e.size.min (4 - e.addr % 4)) ∧
    (let s := { wStore 0x40300004 4 none with now := 102};
      let e : StoreEntry := { raw := 1076887556, addr := 1076887556, size := 4, data := 305419896, head := 90 }; let rest : List StoreEntry := [];
      s.seq.buffer = e :: rest ∧ e.head ≤ s.now ∧ 1073741824 ≤ e.addr ∧ e.addr < 1090519040 ∧ e.head + 12 ≤ s.now ∧ groupClean s = true ∧
      (busWrite seqOwner e.addr e.data s).fst = true) ∧
    (let s := wStore 0x40300004 4 none; let e : StoreEntry := { raw := 1076887556, addr := 1076887556, size := 4, data := 305419896, head := 90 };
      let rest : List StoreEntry := []; s.seq.buffer = e :: rest ∧ e.head ≤ s.now ∧ 1073741824 ≤ e.addr ∧ e.addr < 1090519040 ∧
      s.now < e.head + 12) := by decide

theorem test_meets_xip_lines_are_read_and_kept :
    (let s := { wRun [(SP0_CTRL.ENABLE, 1)] with seq.xipMiss := some ⟨0, 0x70000000, 0, none⟩ }; let w : Nat := 0; let line : Nat := 1879048192;
      let flash : Nat := 0; s.seq.xipMiss = some { window := w, line := line, flash := flash, ends := none } ∧ get SP0_XIP_CTRL.HOLD s = 0 ∧
      s.sp.p0.cur = none ∧ s.sp.p0.sel = none ∧ s.sp.p0.idleUntil ≤ s.now ∧ spEnabled 0 s = true) ∧
    (let s := { wRun [(SP0_WIN_CFG.EN 3, 1), (SP0_WIN_CFG.KEY 3, 4)] with seq.xipMiss := some ⟨3, 0x70000000, 0, some 100⟩ }; let w : Nat := 3;
      let line : Nat := 1879048192; let flash : Nat := 0; let data : List Nat := List.replicate 64 7; let e : Nat := 100;
      s.seq.xipMiss = some { window := w, line := line, flash := flash, ends := some e } ∧ e ≤ s.now ∧ on (SP0_WIN_CFG.EN w) s = true ∧
      3 < get (SP0_WIN_CFG.KEY w) s ∧ s.seq.load = none ∧ data.length = 64) := by decide

theorem test_meets_interrupts_store_errors_and_aborts_are_taken :
    (let s := wLevel 0; let n : Fin 4 := 0; atBoundary s = true ∧ irqNow s = some ↑n ∧ s.seq.div = none ∧ s.seq.released = true ∧
      s.seq.abortAt = none) ∧
    (let s := wStore 0x100 4 (some (0x100, true)); let adr : Nat := 256; let prot : Bool := true; s.seq.storeErr = some (adr, prot) ∧
      boundaryHere s = true ∧ s.seq.sys.lvl < 5 ∧ s.seq.div = none) ∧
    (let s := { wRun [] with seq.sys.tcEn := true, seq.sys.tcmp := 50 }; s.seq.released = true ∧ s.pwr.seqStopped = false ∧ s.seq.sys.tcEn = true ∧
      s.seq.sys.tcmp.toNat ≤ cycleNow s % 2 ^ 64) ∧
    (let s := { wRun [] with seq.abortAt := some 90 }; s.seq.abortAt ≠ none ∧ s.seq.load = none ∧ s.seq.buffer = []) := by decide

theorem test_meets_plan_store_is_accessed_at_waddr :
    (let s := wRun []; let w : Nat := get SQ_PS_ADDR.WADDR s; w < 262144 ∧ slotLocked (w / 32768) s = false) ∧
    (let s := { wRun [(SQ_PS_ADDR.WADDR, 32768),(SQ_PLAN_STAT.VALID,255)] with plan.queue := [1] }; let w : Nat := get SQ_PS_ADDR.WADDR s;
      w < 262144 ∧ slotLocked (w / 32768) s = true) := by decide

theorem test_meets_verify_swap_and_invalidate_are_judged :
    (let s := { wRun [(SQ_PLAN_STAT.VALID,255)] with plan.queue := [7] }; let n : Fin 8 := 0; s.plan.queue.contains ↑n = false ∧
      s.plan.swap = none) ∧
    (let s := { wRun [(SQ_PLAN_STAT.VALID,255)] with plan.queue := [7] }; let n : Fin 8 := 7; let rest : List Nat := [];
      s.plan.queue.contains ↑n = true ∧ s.plan.queue = ↑n :: rest) ∧
    (let s := { wRun [(SQ_PLAN_STAT.VALID,255)] with plan.swap := some (0, 50), plan.modeChange := some 3, plan.store := wPlanOf 3 3 };
      let n : Fin 8 := 0; let since : Nat := 50; s.plan.queue.contains ↑n = false ∧ s.plan.swap = some (↑n, since)) := by decide

theorem test_meets_mode_requests_are_judged :
    (let s := wRun []; let m : Fin 8 := 0; ↑m = get SYS_MODE.MODE s) ∧
    (let s := wRun []; let m : Fin 8 := 1; let rung : Nat := get PWR_STAT.RUNG s; ↑m ≠ get SYS_MODE.MODE s ∧ s.abort.since ≠ some s.now ∧
      (rung = 1 ∨ rung = 2) ∧ (∀ n < 8, storeHolds n s = true → storeMode n s ≠ ↑m)) ∧
    (let s := wRun [(PWR_STAT.RUNG, 0)]; let m : Fin 8 := 1; let rung : Nat := get PWR_STAT.RUNG s; ↑m ≠ get SYS_MODE.MODE s ∧
      s.abort.since ≠ some s.now ∧ rung ≠ 1 ∧ rung ≠ 2) ∧
    (let s := { wRun [] with plan.store := wPlanOf 7 1 }; let m : Fin 8 := 1; let rung : Nat := get PWR_STAT.RUNG s; ↑m ≠ get SYS_MODE.MODE s ∧
      s.abort.since ≠ some s.now ∧ (rung = 1 ∨ rung = 2) ∧ (∃ n < 8, storeHolds n s = true ∧ storeMode n s = ↑m) ∧
      (∀ n < 8, storeHolds n s = true → storeMode n s = ↑m → slotValid n s = false)) ∧
    (let s := { wRun [(SQ_PLAN_STAT.VALID, 128)] with plan.store := wPlanOf 7 1 }; let m : Fin 8 := 1; let rung : Nat := get PWR_STAT.RUNG s;
      ↑m ≠ get SYS_MODE.MODE s ∧ s.abort.since ≠ some s.now ∧ (rung = 1 ∨ rung = 2) ∧ (∃ n < 8, storeHolds n s = true ∧ storeMode n s = ↑m ∧
      slotValid n s = true)) ∧
    (let s := { wRun [] with abort.since := some 100}; let m : Fin 8 := 1; ↑m ≠ get SYS_MODE.MODE s ∧ s.abort.since = some s.now) := by decide

theorem test_meets_swaps_slots_and_margin_stop_take_effect :
    (let s := wSwap []; let n : Fin 8 := 3; let since : Nat := 4094; s.plan.swap = some (↑n, since) ∧ s.plan.running = true ∧ s.boot.phase = .done ∧
      s.now % 4096 = 4095 ∧ since + 2 ≤ s.now + 1 ∧ recordOpen s = false ∧ s.pwr.fabricStopped = false ∧ s.plan.begun = true) ∧
    (let s := wSwap [rec0 .capturing]; let n : Fin 8 := 3; let since : Nat := 4094; s.plan.swap = some (↑n, since) ∧ s.plan.running = true ∧
      s.boot.phase = .done ∧ s.now % 4096 = 4095 ∧ since + 2 ≤ s.now + 1 ∧ recordOpen s = true) ∧
    (let s := wRun [(SQ_PLAN_STAT.MARGIN_STOP, 1)]; get SQ_PLAN_STAT.MARGIN_STOP s = 1 ∧ get SQ_PLAN_STAT.MSTOP_CAUSE s = 0) ∧
    (let s := { wRun [] with plan.begun := false }; s.plan.running = true ∧ s.pwr.fabricStopped = false ∧ s.plan.begun = false) ∧
    (let s := State.reset; (s.plan.running = false ∨ s.pwr.fabricStopped = true)) := by decide

theorem test_meets_waking_up_finds_reference_and_lock :
    (let s := State.reset; let straps : Nat := 0; s.boot.phase = .held ∧ straps < 4) ∧
    (let s := { State.reset with boot.phase := .refCheck, boot.candidate := 0 }; let edges : Nat := 0; let lo : Nat := 10890; let hi : Nat := 11110;
      s.boot.phase = .refCheck ∧ (lo, hi) = (if s.boot.candidate = 1 then (1089, 1111) else (10890, 11110)) ∧ (edges < lo ∨ hi < edges)) ∧
    (let s := { State.reset with boot.phase := .refCheck, boot.candidate := 0 }; let edges : Nat := 10890; let lo : Nat := 10890;
      let hi : Nat := 11110; s.boot.phase = .refCheck ∧ (lo, hi) = (if s.boot.candidate = 1 then (1089, 1111) else (10890, 11110)) ∧ lo ≤ edges ∧
      edges ≤ hi) ∧
    (let s := { wRegs [(SYS_BOOT_STAT.PATH, 0)] with boot.phase := .locking, mem := [(0x60000000,1)] }; s.boot.phase = .locking) := by decide

theorem test_meets_images_are_read_tried_and_judged :
    (let s := { State.reset with boot.phase := .headers, boot.flashHeld := false, now := 1024000 }; s.boot.phase = .headers ∧ flashReady s = true ∧
      s.boot.readA = false ∧ s.boot.readB = false ∧ s.boot.phase ≠ .hostWait) ∧
    (let s := { State.reset with boot.phase := .headers, boot.readA := true, boot.slotA := some (hd 5 832), now := 1024000 };
      let bytes : Image := img (hdrB 5 832); let p : Array Nat := (bytes.map BitVec.toNat).toArray; let r : Nat := headerReason p;
      let a : ImageHeader := hd 5 832; s.boot.phase = .headers ∧ flashReady s = true ∧ s.boot.readA = true ∧ s.boot.readB = false ∧
      s.boot.tried = [] ∧ s.boot.trySlot = 0 ∧ s.boot.slotA = some a ∧ s.boot.reasonA = 0 ∧ r = 0) ∧
    (let s := { State.reset with boot.phase := .headers, boot.readA := true, boot.reasonA := 2, now := 1024000 }; let bytes : Image := [];
      let p : Array Nat := (bytes.map BitVec.toNat).toArray; let r : Nat := headerReason p; s.boot.phase = .headers ∧ flashReady s = true ∧
      s.boot.readA = true ∧ s.boot.readB = false ∧ s.boot.tried = [] ∧ s.boot.trySlot = 0 ∧ s.boot.slotA = none ∧ s.boot.reasonA ≠ 0 ∧ r ≠ 0) ∧
    (let s := { State.reset with boot.phase := .octal, boot.slotA := some (hd 5 832), now := 1000000000 }; let bytes : Image := [];
      let x : ImageHeader := hd 5 832; s.boot.phase = .octal ∧ slotHeader s.boot.current s = some x ∧
      s.boot.octSince + 1024 * x.octCfgWait ≤ s.now ∧ bytes.map BitVec.toNat ≠ x.start) ∧
    (let s := { State.reset with boot.phase := .octal, boot.slotA := some (hd 5 832), now := 1000000000 };
      let bytes : Image := img ((hdrB 5 832).take 64); let x : ImageHeader := hd 5 832; s.boot.phase = .octal ∧
      slotHeader s.boot.current s = some x ∧ s.boot.octSince + 1024 * x.octCfgWait ≤ s.now ∧ bytes.map BitVec.toNat = x.start) ∧
    (let s := { State.reset with boot.phase := .hostWait }; s.boot.phase = .hostWait) := by decide +kernel

/-- An image that is judged on the flash path with AUTH_EN 0, and one of a wrong key with AUTH_EN programmed,
  for an OTP delivered blank (its words are free: Config). -/
theorem test_meets_images_of_a_slot (h : ∀ n, Config.otpWord n = 0) :
    (let s := { State.reset with boot.phase := .streaming, boot.tried := [0], boot.slotA := some (hd 5 832) }; s.boot.phase = .streaming ∧
      s.boot.current = 0 ∧ s.boot.tried.contains 0 = true ∧
        (parseImage ((img image0).map BitVec.toNat).toArray (hd 5 832).size).toOption.isSome = true) ∧
    authEnabled { State.reset with boot.phase := .streaming } = false ∧
    (let s := { State.reset with boot.phase := .streaming, boot.otpSet := [(0x0A, 1)] };
      authReason ((img image0).map BitVec.toNat).toArray 0x280 (keyHash s) ≠ 0 ∧ authEnabled s = true) := by
  simp only [authEnabled, keyHash, otpWordNow, h]
  decide +kernel

theorem test_meets_images_of_a_download :
    (let s := { State.reset with boot.phase := .streaming, boot.current := 2, boot.want := 4, boot.lines := hdrLines (List.replicate 256 0), mem := [(5, 1)] };
      let r : Nat := headerReason s.boot.lines.reverse.flatten.toArray; s.boot.phase = .streaming ∧ s.boot.current = 2 ∧
      s.boot.want ≤ s.boot.lines.length ∧ r ≠ 0) ∧
    (let s := { State.reset with boot.phase := .streaming, boot.current := 2, boot.want := 4 }; s.boot.phase = .streaming ∧ s.boot.current = 2 ∧
      s.boot.lines.length < s.boot.want) := by decide +kernel

theorem test_meets_boot_ends_on_a_plan :
    (let s := { State.reset with boot.phase := .verifying }; s.boot.phase = .verifying ∧ s.plan.queue = [] ∧ firstMode s = none) ∧
    (let s := { wRegs [(SQ_PLAN_STAT.VALID, 1)] with boot.phase := .verifying, boot.restoredMode := 2, boot.dir := [⟨2, 0, true, true⟩], plan.store := wPlanOf 0 2 };
      let m : Nat := 2; let n : Nat := 0; s.boot.phase = .verifying ∧ s.plan.queue = [] ∧ m < 8 ∧ n < 8 ∧ firstMode s = some m ∧
      firstPlanOf m s = some n) ∧
    (let s := { wRegs [(SYS_BOOT_STAT.HOST_WAIT,1)] with boot.phase := .finishing, boot.entry := 0x40 }; s.abort.held = 0 ∧
      s.boot.phase = .finishing) ∧
    (let s := { State.reset with boot.phase := .swapping, boot.entry := 0x40, plan.swap := some (0, 5), plan.running := true, now := 4095, plan.store := wPlanOf 0 2 };
      let n : Nat := 0; let since : Nat := 5; s.abort.held = 0 ∧ s.boot.phase = .swapping ∧ s.plan.swap = some (n, since) ∧ s.plan.running = true ∧
      s.now % 4096 = 4095 ∧ since + 2 ≤ s.now + 1) := by decide

theorem test_meets_ledger_and_otp_take_their_writes :
    (let s := { wRun [(SYS_LEDGER.WRITING,1)] with boot.write := some ⟨1, List.replicate 64 1, []⟩, boot.ledger := [(0, List.replicate 64 2)] };
      let w : LedgerWrite := { copy := 1, bytes := (List.replicate 64 1), lines := [] }; s.boot.write = some w ∧ w.lines = []) ∧
    (let s := { wRun [(SYS_LEDGER.WRITING,1)] with boot.write := some ⟨1, List.replicate 64 1, []⟩, boot.ledger := [(0, List.replicate 64 2)] };
      let w : Nat := get SEC_OTP_ADDR.WORD s; (mode s ≠ 7 ∨ otpProgrammable w s = false ∨ s.boot.otpBusy ≠ none)) ∧
    (let s := wRun [(SYS_MODE.ACTIVE, 7), (SEC_OTP_ADDR.WORD, 0x10)]; let w : Nat := get SEC_OTP_ADDR.WORD s; mode s = 7 ∧
      otpProgrammable w s = true ∧ s.boot.otpBusy = none) ∧
    (let s := { wRun [] with now := 92160, boot.otpBusy := some (0x1F, 5, 0), boot.otpSet := [(0x1F, 8)]}; let w : Nat := 31; let d : Nat := 5;
      let since : Nat := 0; s.boot.otpBusy = some (w, d, since) ∧ since + 92160 ≤ s.now) ∧
    (let s := { wRun [] with now := 92159, boot.otpBusy := some (0x1F, 5, 0) }; let w : Nat := 31; let d : Nat := 5; let since : Nat := 0;
      s.boot.otpBusy = some (w, d, since) ∧ s.now < since + 92160) := by decide

theorem test_meets_presence_follows_its_pin :
    (let s := { wRun [] with boot.present := true, now := 10240000 }; s.boot.present = true ∧ get SYS_BOOT_CFG.ABSENT_POLICY s = 0 ∧
      s.sp.sp1Clock + 10240000 ≤ s.now ∧ s.boot.presN = false) ∧
    (let s := { wRun [(SYS_BOOT_CFG.ABSENT_POLICY, 1)] with boot.present := true }; let p : Nat := 1; s.boot.present = true ∧
      get SYS_BOOT_CFG.ABSENT_POLICY s = p ∧ s.pwr.fabricStopped = false ∧ s.now < s.sp.sp1Clock + 10240000) ∧
    (let s := { wRun [] with boot.presN := true }; s.boot.present = false) ∧
    (let s := { wRun [] with boot.presFall := some 0, now := 921600 }; let since : Nat := 0; s.boot.presFall = some since ∧ s.boot.presN = false ∧
      s.boot.sp1Open = false ∧ since + 921600 ≤ s.now) ∧
    (let s := { wRun [] with boot.presFall := some 0, now := 921599 }; let since : Nat := 0; s.boot.presFall = some since ∧ s.boot.presN = false ∧
      s.boot.sp1Open = false ∧ s.pwr.fabricStopped = false ∧ s.now < since + 921600) := by decide

theorem test_meets_samples_are_corrected_and_beats_taken :
    (let x : Nat := 0; x ≤ 4095 ∧ (x = 0 ∨ x = 4095)) ∧
    (let s := wRun []; let x : Nat := 1; let sc : Nat := 0; let input : Nat := 0;
      let num : Int := (16 * (↑x - 2048) - signed 16 (get (AVE_SC_OFFSET.OFFSET sc) s)) * ↑(get (AVE_SC_GAIN.GAIN sc) s) + signed 16 (app (AVE_CH_UTRIM.UTRIM input) s) * 32768;
      x ≤ 4095 ∧ overRange x sc input s = false ∧ num < 0 ∧ (converting s = false ∨ s.now % 2 = 1 ∨ s.now < 40 ∨ s.tickOn = false ∨
      (s.now - 40) / 2 < s.ave.beat)) ∧
    (let s := wRun []; let x : Nat := 2048; let sc : Nat := 0; let input : Nat := 0;
      let num : Int := (16 * (↑x - 2048) - signed 16 (get (AVE_SC_OFFSET.OFFSET sc) s)) * ↑(get (AVE_SC_GAIN.GAIN sc) s) + signed 16 (app (AVE_CH_UTRIM.UTRIM input) s) * 32768;
      x ≤ 4095 ∧ overRange x sc input s = false ∧ 0 ≤ num) ∧
    (let s := wPlan []; s.tickOn = true ∧ s.now % 2 = 0 ∧ 40 ≤ s.now ∧ s.ave.beat ≤ (s.now - 40) / 2 ∧ converting s = true ∧
      isLate 1 0 s = false) := by decide

theorem test_meets_handovers_overlap_then_switch :
    (let s := wHand none (3 * rotInterval (wPlan []) / 4); let q : Fin 4 := 3; let qt : Quarter := { Quarter.init 3 with overlap := none };
      let inc : Nat := 67; let out : Nat := 51; s.ave.quarters[↑q]? = some qt ∧ qt.overlap = none ∧ get (qState ↑q) s = 0 ∧
      app AVE_ROT_CTRL.ROT_HOLD s = 0 ∧ s.ave.beat % rotInterval s = ↑q * rotInterval s / 4 ∧
      List.find? (fun sc => get (AVE_SC_STAT.STATE sc) s == 2) (spares (↑q) s) = some inc ∧ qt.held.getD (targetPos (↑q) s) none = some out) ∧
    (let s := wHand (some ⟨67, 51, 0, 0, 0, 16⟩) 16; let q : Fin 4 := 3;
      let qt : Quarter := { Quarter.init 3 with overlap := some { incoming := 67, outgoing := 51, pos := 0, start := 0, sum := 0, count := 16 } };
      let o : Overlap := { incoming := 67, outgoing := 51, pos := 0, start := 0, sum := 0, count := 16 };
      let lim : Int := ↑(app AVE_FAIL_POLICY.MATCH_LIM s) * ↑o.count; s.ave.quarters[↑q]? = some qt ∧ qt.overlap = some o ∧
      o.start + 16 ≤ s.ave.beat ∧ o.incoming / 17 = ↑q ∧ o.outgoing / 17 = ↑q ∧ o.incoming ≠ o.outgoing ∧ o.pos < 16 ∧ qt.held.length = 16 ∧
      o.sum ≤ lim ∧ -lim ≤ o.sum) ∧
    (let s := wHand (some ⟨67, 51, 0, 0, 1000000, 16⟩) 16; let q : Fin 4 := 3;
      let qt : Quarter := { Quarter.init 3 with overlap := some { incoming := 67, outgoing := 51, pos := 0, start := 0, sum := 1000000, count := 16 } };
      let o : Overlap := { incoming := 67, outgoing := 51, pos := 0, start := 0, sum := 1000000, count := 16 };
      let lim : Int := ↑(app AVE_FAIL_POLICY.MATCH_LIM s) * ↑o.count; s.ave.quarters[↑q]? = some qt ∧ qt.overlap = some o ∧
      o.start + 16 ≤ s.ave.beat ∧ o.incoming / 17 = ↑q ∧ o.outgoing / 17 = ↑q ∧ o.incoming ≠ o.outgoing ∧ o.pos < 16 ∧ qt.held.length = 16 ∧
      (lim < o.sum ∨ o.sum < -lim) ∧ get (AVE_SC_STAT.MISMATCH o.incoming) s < 2 ∧ get (AVE_SC_STAT.MISMATCH o.outgoing) s < 2) := by decide

/-- The first shuts out the pass by its noise, whatever the factory table holds. -/
theorem test_meets_calibration_and_failure_set_converters_1 :
    (let s := wCal; let sc : Nat := 16; let noiseLow : Nat := 300; let c : Cal := ⟨some 5, false, false⟩; let e : Nat := 5;
      List.find? (fun c => c.fst == sc) s.ave.cals = some (sc, c) ∧ c.ends = some e ∧ e ≤ s.ave.beat ∧
      ¬ (noiseLow ≤ app AVE_FAIL_POLICY.NOISE_LIM s) ∧ c.second = false) ∧
    (let s := wCal; let sc : Nat := 0; let x : Nat := 16; let p : Nat := 0; let qt : Quarter := Quarter.init 0; sc < 68 ∧ posOf sc s = some p ∧
      s.ave.quarters[sc / 17]? = some qt ∧ qt.overlap = none ∧ (spares (sc / 17) s).head? = some x ∧ get SYS_MODE.ACTIVE s ≠ 7) := by decide

/-- The first shuts out the pass by its noise, whatever the factory table holds. -/
theorem test_meets_calibration_and_failure_set_converters_2 :
    (let s := wPlan [(SYS_MODE.ACTIVE, 7)]; let sc : Nat := 0; let x : Nat := 16; let p : Nat := 0; let qt : Quarter := Quarter.init 0; sc < 68 ∧
      posOf sc s = some p ∧ s.ave.quarters[sc / 17]? = some qt ∧ qt.overlap = none ∧ (spares (sc / 17) s).head? = some x ∧
      get SYS_MODE.ACTIVE s = 7 ∧ get (AVE_SC_STAT.STATE sc) s ≠ 5) ∧
    (let s := { wPlan [] with ave.stuck := [(0, 100, 1024, false), (1, 7, 1, false)] }; let sc : Nat := 0; let x : Nat := 16; let p : Nat := 0;
      let qt : Quarter := Quarter.init 0; let code : Nat := 100; let n : Nat := 1024; let f : Bool := false; sc < 68 ∧ posOf sc s = some p ∧
      s.ave.quarters[sc / 17]? = some qt ∧ qt.overlap = none ∧ (spares (sc / 17) s).head? = some x ∧
      List.find? (fun w => w.fst == sc) s.ave.stuck = some (sc, code, n, f) ∧ stuckLen s ≤ n ∧ code ≠ 0 ∧ code ≠ 4095 ∧
      (s.ave.stuck.any fun w => w.fst / 17 == sc / 17 && w.fst != sc && decide (w.snd.snd.fst < stuckLen s) && !w.snd.snd.snd) = true) := by decide

/-- The first shuts out the pass by its noise, whatever the factory table holds. -/
theorem test_meets_calibration_and_failure_set_converters_3 :
    (let s := { wPlan [] with ave.skew := [(17, 2^20, 5, 2^30)] }; let sc : Nat := 17; let n : Nat := 1048576; let es : Int := 5;
      let ss : Nat := 1073741824; List.find? (fun w => w.fst == sc) s.ave.skew = some (sc, n, es, ss) ∧ 2 ^ 20 ≤ n) ∧
    (let s := { wPlan [] with ave.skew := [(17, 1024, 5, 2^30)] }; let sc : Nat := 17; let n : Nat := 1024; let es : Int := 5;
      let ss : Nat := 1073741824; List.find? (fun w => w.fst == sc) s.ave.skew = some (sc, n, es, ss) ∧ n < 2 ^ 20) := by decide

theorem test_meets_avenue_commands_act :
    (let s := wPlan [(SYS_MODE.ACTIVE, 7)]; let sc : Fin 68 := 0; get SYS_MODE.ACTIVE s = 7 ∧ get (AVE_SC_STAT.STATE ↑sc) s ≠ 5 ∧
      s.ave.mapouts.contains ↑sc = false ∧ (etDue s = false ∨ sampling s = true)) ∧
    (let s := wPlan [(SYS_MODE.ACTIVE, 7)]; let sc : Fin 68 := 16; (posOf (↑sc) s).isNone = true) ∧
    (let s := wPlan []; let sc : Fin 68 := 0; get SYS_MODE.ACTIVE s ≠ 7 ∧ (posOf (↑sc) s).isSome = true) ∧
    (let s := wPlan [(AVE_SC_STAT.STATE 67, 5),(AVE_SC_CTRL.MAPOUT 67,1)]; let sc : Fin 68 := 67; get (AVE_SC_STAT.STATE ↑sc) s = 5) ∧
    (let s := { wPlan [(AVE_ET_STAT.COUNT, 4000)] with applied := regSet AVE_ET_CTRL.AUTO 1 (regSet AVE_ET_CTRL.PER 16 (regSet AVE_ET_CTRL.STEP 1 [])), ave.phaseRecs := 16 };
      etDue s = true ∧ sampling s = false) := by decide

theorem test_meets_conditions_reach_their_units :
    (let s := wRun []; let n : Fin 4 := 0; (unitOn (↑n) s = false ∨ app (TRG_CTRL.TYPE ↑n) s ≠ 11)) ∧
    (let s := wApp [] [(TRG_CTRL.ENABLE 3, 1), (TRG_CTRL.TYPE 3, 11)]; let n : Fin 4 := 3; unitOn (↑n) s = true ∧ app (TRG_CTRL.TYPE ↑n) s = 11) ∧
    (let s := wApp [] [(TRG_CTRL.ENABLE 0, 1), (TRG_CTRL.TYPE 0, 8), (TRG_CTRL.SLOPE 0, 1)]; let n : Fin 4 := 0; let rising : Bool := false;
      unitOn (↑n) s = true ∧ app (TRG_CTRL.TYPE ↑n) s = 8 ∧ (app (TRG_CTRL.SLOPE ↑n) s = 2 ∨
      app (TRG_CTRL.SLOPE ↑n) s = if rising = true then 0 else 1)) ∧
    (let s := wRes; let r : FieldResult := { dec := 0, due := 100, field := 0, index := 0, value := 0, time := 0 }; let n : Fin 4 := 2;
      s.trg.results = [r] ∧ r.due ≤ s.now ∧ isLate 4 r.dec s = false ∧ r.field = 0 ∧ r.dec < 4 ∧ s.trg.units.length = 4 ∧
      get (DEC_STAT.FRAMES r.dec) s < 1000 ∧ unitOn (↑n) s = true ∧ app (TRG_CTRL.TYPE ↑n) s = 7 ∧ app (TRG_CTRL.SRC ↑n) s = r.dec ∧
      specOwn (↑n) s = false ∧ serialMatch (↑n) r s = true) := by decide

theorem test_meets_units_timers_and_pulses_end_in_time :
    (let s := wRun []; s.trg.units.length = 4) ∧
    (let s := wUnit { holdUntil := some 26214400 }; let n : Fin 4 := 1; let x : Int := 26214400; s.trg.units.length = 4 ∧
      (unitOf (↑n) s).holdUntil = some x ∧ x ≤ nowLsb s) ∧
    (let s := { wUnit { cands := [-40000000000] } with record.recs := [{ rec0 .capturing with prov := true, confirmed := false, unit := 1, time := -40000000000 }] };
      let n : Fin 4 := 1; let c : Int := -40000000000; s.trg.units.length = 4 ∧ (unitOf (↑n) s).cands = [c] ∧
      c < nowLsb s - ↑(horizonBeats (activeConfig s)) * 524288 ∧ s.trg.hits = []) ∧
    (let s := { wApp [] [(TRG_TIMER_PHASE.PHASE, 3000)] with trg.timerDue := [100] }; s.tickOn = true ∧ s.pwr.fabricStopped = false ∧
      s.trg.timerSlot ≤ s.now ∧ instantsNow s = [] ∧ (∀ (d : Nat), d ∈ s.trg.timerDue → d ≤ s.now) ∧ s.trg.timerDue ≠ []) ∧
    (let s := wApp [] [(TRG_TIMER_PHASE.PHASE, 402), (TRG_TIMER_PER.PER, 1000)]; let i : Int := 402; s.tickOn = true ∧ s.pwr.fabricStopped = false ∧
      s.trg.timerSlot ≤ s.now ∧ instantsNow s = [i] ∧ s.trg.timerDue = []) ∧
    (let s := { wRun [] with trg.outStart := [403], trg.outEnd := some 401 }; let x : Nat := 403; let e : Nat := 401; s.trg.outStart = [x] ∧
      x < 4 * (s.now + 1) ∧ s.trg.outEnd = some e ∧ e < 4 * (s.now + 1)) ∧
    (let s := { wRun [] with trg.deliveries := [⟨3, 100, 0, false, false, 92⟩] };
      let d : Delivery := { unit := 3, due := 100, time := 0, confirm := false, candidate := false, decided := 92 }; s.trg.deliveries = [d] ∧
      d.due ≤ s.now ∧ (d.candidate = false ∨ d.confirm = true) ∧ d.unit < 4) := by decide

theorem test_meets_decisions_find_their_record :
    (let s := wDecide []; let n : Fin 4 := 2; let slot : Nat := 100; let raw : Int := 0; let time : Int := 52428800; s.trg.units.length = 4 ∧
      s.trg.hits = [{ unit := ↑n, slot := slot, raw := raw, time := time, kind := .cond }] ∧ slot ≤ s.now ∧ isLate 2 (↑n) s = false ∧
      isLate 3 (↑n) s = false ∧ (∀ k < 4, app (TRG_SEQ.EN k) s = 0) ∧ app (TRG_CTRL.ROLE ↑n) s = 0 ∧ (unitOf (↑n) s).holdUntil = none ∧
      (∀ (x : Int), (unitOf (↑n) s).holdFloor = some x → x ≤ time) ∧ (unitOf (↑n) s).holdCount = 0 ∧ app (TRG_HOLDOFF_HI.EN ↑n) s = 0 ∧
      s.trg.cof = none ∧ s.record.place = 0 ∧ get SYS_MODE.ACTIVE s = 0 ∧ awake s = true ∧ s.record.recs = [] ∧
      get (TRG_COUNT.OFFERED ↑n) s < 1000 ∧ get (TRG_COUNT.DISCARDED ↑n) s < 1000) ∧
    (let s := wDecide [rec0 .armed]; let n : Fin 4 := 2; let slot : Nat := 100; let raw : Int := 0; let time : Int := 52428800;
      let r : Rec := rec0 .armed; s.trg.units.length = 4 ∧ s.trg.hits = [{ unit := ↑n, slot := slot, raw := raw, time := time, kind := .cond }] ∧
      slot ≤ s.now ∧ isLate 2 (↑n) s = false ∧ isLate 3 (↑n) s = false ∧ (∀ k < 4, app (TRG_SEQ.EN k) s = 0) ∧ app (TRG_CTRL.ROLE ↑n) s = 0 ∧
      (unitOf (↑n) s).holdUntil = none ∧ (∀ (x : Int), (unitOf (↑n) s).holdFloor = some x → x ≤ time) ∧ (unitOf (↑n) s).holdCount = 0 ∧
      app (TRG_HOLDOFF_HI.EN ↑n) s = 0 ∧ s.trg.cof = none ∧ s.record.place = 0 ∧ get SYS_MODE.ACTIVE s = 0 ∧ awake s = true ∧ s.record.recs = [r] ∧
      r.phase = .armed ∧ heldFor 4 s = 0 ∧ r.armBeat ≤ trigBeat time r.gen.offset - ↑r.gen.pre ∧
      avenueBeat s.now < trigBeat time r.gen.offset - ↑r.gen.pre + ↑r.gen.length - 1) := by decide

theorem test_meets_engine_runs_releases_and_pops :
    (let s := wRun []; com ERL_NET.ARM_EN s = 0 ∧ get SYS_MODE.ACTIVE s = 0 ∧ s.record.running = false ∧ blvHold s = false ∧
      com REC_CFG.PLACE s = 0 ∧ s.record.queue = []) ∧
    (let s := wCom [(PWR_STAT.RUNG,0)] [(REC_CFG.PLACE,1),(REC_CFG.STREAMS,1),(REC_RING_BASE_LO.ADDR 0, 0x1800000)]; com ERL_NET.ARM_EN s = 0 ∧
      get SYS_MODE.ACTIVE s = 0 ∧ s.record.running = false ∧ blvHold s = false ∧ com REC_CFG.PLACE s = 1 ∧ awake s = true) ∧
    (let s := { wRun [] with record.running := true, record.recs := [rec0 .capturing] }; let r : Rec := rec0 .capturing; com ERL_NET.ARM_EN s = 0 ∧
      get SYS_MODE.ACTIVE s = 0 ∧ s.record.running = true ∧ s.record.startWaits = false ∧ s.record.place = 0 ∧ s.record.recs = [r] ∧
      r.phase ≠ .armed) ∧
    (let s := { wRun [] with record.running := true }; com ERL_NET.ARM_EN s = 0 ∧ get SYS_MODE.ACTIVE s = 0 ∧ s.record.running = true ∧
      s.record.startWaits = false ∧ s.record.place = 0 ∧ s.record.recs = []) ∧
    (let s := { wRun [(PWR_STAT.RUNG,0), (SQ_PLAN_STAT.MARGIN_STOP,1)] with record.running := true, record.recs := [rec0 .armed] };
      let r : Rec := rec0 .armed; com ERL_NET.ARM_EN s = 0 ∧ get SYS_MODE.ACTIVE s = 0 ∧ s.record.place = 0 ∧ armed s = some r ∧
      get SQ_PLAN_STAT.MARGIN_STOP s = 1) ∧
    (let s := { wRun [(PWR_STAT.RUNG,0)] with record.running := true, record.recs := [rec0 .armed] }; let r : Rec := rec0 .armed;
      com ERL_NET.ARM_EN s = 0 ∧ get SYS_MODE.ACTIVE s = 0 ∧ s.record.place = 0 ∧ s.record.recs = [r] ∧ r.phase = .armed ∧
      heldFor 4     { now := s.now, tickOn := s.tickOn, tickAdj := s.tickAdj, regs := s.regs, committed := s.committed, applied := s.applied, mem := s.mem, plan := s.plan, boot := s.boot, log := s.log, evt := s.evt, abort := s.abort, ave := s.ave, trg := s.trg,       record :=         have __src := s.record;         { running := __src.running, stopping := __src.stopping, place := __src.place, startBeat := __src.startBeat, startDue := __src.startDue, startWaits := __src.startWaits, armDue := __src.armDue, nextId := __src.nextId, slots := __src.slots, nextPos := __src.nextPos, queue := __src.queue, past := __src.past, lifting := __src.lifting, segs := __src.segs, segsDone := __src.segsDone, streams := __src.streams, appliedGen := __src.appliedGen, appliedId := __src.appliedId, dead := __src.dead, carry := __src.carry },       red := s.red, memory := s.memory, dma := s.dma, seq := s.seq, sp := s.sp, hfr := s.hfr, dsp := s.dsp, line := s.line, erl := s.erl, clk := s.clk, pwr := s.pwr, jtag := s.jtag, freeCtr := s.freeCtr, pending := s.pending } =   0 ∧
      awake s = true ∧ s.record.startDue.getD 0 ≤ s.now ∧ com REC_CFG.PLACE s = 0 ∧ etDue s = false ∧ com AVE_ET_CTRL.PHASE s = s.ave.phaseBase ∧
      s.ave.settling ≤ s.now) ∧
    (let s := { wRun [] with record.slots := [⟨0, 4294967295, false⟩, ⟨1, 0, false⟩, ⟨1, 5, false⟩], record.queue := [[1, 2, 3, 4]] };
      let a : Nat := 1; let b : Nat := 2; let c : Nat := 3; let d : Nat := 4; let rest : List (List Nat) := [];
      s.record.queue = [a, b, c, d] :: rest) := by decide

theorem test_meets_records_end_are_numbered_and_commit :
    (let s := wRec { rec0 .capturing with ended := true, mu := [0] }; let r : Rec := { rec0 .capturing with ended := true, mu := [0] };
      s.record.recs = [r] ∧ wantsNumber s.now r = true ∧ r.mu ≠ []) ∧
    (let s := wRec { rec0 .numbered with complete := true}; let r : Rec := { rec0 .numbered with complete := true }; s.record.recs = [r] ∧
      r.phase = .numbered ∧ r.complete = true ∧ r.segLast = false ∧ bit r.flags 4 = false) := by decide

theorem test_meets_commits_and_arms_take_settings :
    (let s := wPlan [(BLV_STAT.DENSITY, 1)]; commitInvalid (keptPart s.regs) s = false) ∧
    (let s := wPlan [(REC_LEN.LENGTH, 0)]; commitInvalid (keptPart s.regs) s = true ∧ carryBreaks s = true) ∧
    (let s := wArm; s.record.place = 0 ∧ s.record.armDue ≤ s.now ∧ s.record.recs = [] ∧ heldFor 4 s = 0 ∧ com REC_CFG.PLACE s = 0 ∧ awake s = true ∧
      get SYS_MODE.ACTIVE s = 0 ∧ etDue s = false ∧ s.record.startDue.getD 0 ≤ s.now ∧ com AVE_ET_CTRL.PHASE s = s.ave.phaseBase ∧
      s.ave.settling ≤ s.now) := by decide

theorem test_meets_reduction_commands_act :
    (let s := { wRun [] with red.per.waiting := [.decay] }; let k : PassKind := .decay; let rest : List PassKind := []; s.red.per.pass = none ∧
      s.red.per.waiting = k :: rest ∧ s.red.per.noClaims = false) ∧
    (let s := { wRun [] with red.per.pass := some (.clear, 0) }; let k : PassKind := .clear; s.red.per.pass = some (k, 0)) := by decide

theorem test_meets_training_ends_up_or_fails :
    (let s := { wRun [] with memory.training := true, now := 10000000 }; let a : Nat := 0; let b : Nat := 0; a < 8 ∧ b < 8 ∧
      s.memory.training = true ∧ trainingDue s = true ∧ s.record.startWaits = false ∧ s.memory.blvTries = 0) ∧
    (let s := { wRun [] with memory.training := true, memory.blvTries := 1, now := 10000000 }; let a : Nat := 0; let b : Nat := 0; a < 8 ∧ b < 8 ∧
      s.memory.training = true ∧ trainingDue s = true ∧ s.record.startWaits = false ∧ s.memory.blvTries ≠ 0) ∧
    (let s := wRun []; let a : Nat := 0; let b : Nat := 0; a < 8 ∧ b < 8 ∧ (s.memory.training = false ∨ trainingDue s = false)) := by decide

theorem test_meets_channels_start_and_load_descriptors :
    (let s := { wRun [(DMA_CH_DESC_LO.ADDR 31, 0x1800000)] with now := 5 }; let n : Fin 32 := 31; s.dma.chans.length = 32 ∧
      (chOf (↑n) s).active = false ∧ get (DMA_CH_PACE.MODE ↑n) s ≠ 2 ∧ get (DMA_CH_CTRL.DSRC ↑n) s = 0 ∧ memLine (descAddr (↑n) s) s = true) ∧
    (let s := wChan { active := true } []; let n : Fin 32 := 31; s.dma.chans.length = 32 ∧ (chOf (↑n) s).active = true) ∧
    (let s := wChan { active := true, fetch := some 0x60000000, fetchIssued := true } [⟨100, 0x20, 0x60000000, .dma 31, desc0, false, false⟩];
      let n : Fin 32 := 31;
      let f : Flight := { due := 100, owner := 32, addr := 1610612736, tag := .dma 31, data := desc0, bad := false, fenced := false };
      s.dma.chans.length = 32 ∧ dueFlights (↑n) s = [f] ∧ f.fenced = false ∧ f.bad = false ∧ (chOf (↑n) s).active = true ∧
      (chOf (↑n) s).fetchIssued = true ∧ (chOf (↑n) s).aborting = none ∧ get (DMA_CH_CTRL.DSRC ↑n) s = 0 ∧ descOk f.data (descOf f.data) s = true ∧
      (descOf f.data).skind ≠ 1) ∧
    (let s := wChan { active := true, fetch := some 0x60000000, fetchIssued := true } [⟨100, 0x20, 0x60000000, .dma 31, (List.replicate 64 255), false, false⟩];
      let n : Fin 32 := 31;
      let f : Flight := { due := 100, owner := 32, addr := 1610612736, tag := .dma 31, data := (List.replicate 64 255), bad := false, fenced := false };
      s.dma.chans.length = 32 ∧ dueFlights (↑n) s = [f] ∧ f.fenced = false ∧ f.bad = false ∧ (chOf (↑n) s).active = true ∧
      (chOf (↑n) s).fetchIssued = true ∧ (chOf (↑n) s).aborting = none ∧ get (DMA_CH_CTRL.DSRC ↑n) s = 0 ∧
      descOk f.data (descOf f.data) s = false) := by decide

theorem test_meets_channels_move_lines_end_and_abort :
    (let s := wChan { active := true, inFlight := 1 } [⟨100, 0x20, 0x60000000, .dma 31, List.replicate 64 1, false, false⟩]; let n : Fin 32 := 31;
      let f : Flight := ⟨100, 0x20, 0x60000000, .dma 31, List.replicate 64 1, false, false⟩; s.dma.chans.length = 32 ∧
      (chOf (↑n) s).fetchIssued = false ∧ dueFlights (↑n) s = [f] ∧ f.fenced = false ∧ f.bad = false ∧ (chOf (↑n) s).active = true ∧
      (chOf (↑n) s).aborting = none) ∧
    (let s := wChan { active := true, staged := [⟨96, []⟩], desc := some { descOf desc0 with dkind := 1 } } []; let n : Fin 32 := 31;
      let l : Staged := { arrived := 96, data := [] }; let rest : List Staged := []; s.dma.chans.length = 32 ∧ (chOf (↑n) s).staged = l :: rest ∧
      (chOf (↑n) s).active = true ∧ (chOf (↑n) s).aborting = none ∧ l.arrived + 4 ≤ s.now ∧ (chDest (chOf (↑n) s)).fst = 1 ∧
      s.dma.fifo.length < 64) ∧
    (let s := wChan { active := true, inFlight := 1 } [⟨100, 0x20, 0x60000000, .dma 31, List.replicate 64 1, false, false⟩]; let n : Fin 32 := 0;
      s.dma.chans.length = 32 ∧ (chOf (↑n) s).active = false ∧ s.plan.running = true) ∧
    (let s := wChan { active := true, total := 1, writes := 1, desc := some (descOf desc0) } []; let n : Fin 32 := 31; let d : Desc := descOf desc0;
      s.dma.chans.length = 32 ∧ (chOf (↑n) s).active = true ∧ (chOf (↑n) s).aborting = none ∧ (chOf (↑n) s).desc = some d ∧ d.skind < 3 ∧
      d.dkind < 3 ∧ (chOf (↑n) s).total ≤ (chOf (↑n) s).writes ∧ (chOf (↑n) s).staged = [] ∧ (chOf (↑n) s).haltAtEnd = false ∧ d.cnt = false ∧
      d.last = true) ∧
    (let s := wChan { active := true, total := 1, writes := 1, desc := some { descOf desc0 with last := false, pulse := true, next := 0x60000040 } } [];
      let n : Fin 32 := 31; let d : Desc := { descOf desc0 with last := false, pulse := true, next := 0x60000040 }; s.dma.chans.length = 32 ∧
      (chOf (↑n) s).active = true ∧ (chOf (↑n) s).aborting = none ∧ (chOf (↑n) s).desc = some d ∧ d.skind < 3 ∧ d.dkind < 3 ∧
      (chOf (↑n) s).total ≤ (chOf (↑n) s).writes ∧ (chOf (↑n) s).staged = [] ∧ (chOf (↑n) s).haltAtEnd = false ∧ d.cnt = false ∧ d.last = false) ∧
    (let s := wChan { active := true, aborting := some 90 } []; let n : Fin 32 := 31; s.dma.chans.length = 32 ∧ (chOf (↑n) s).aborting ≠ none ∧
      s.memory.flight = [] ∧ s.memory.reading = []) ∧
    (let s := { wRun [] with plan.running := false }; let n : Fin 32 := 0; s.dma.chans.length = 32 ∧ (chOf (↑n) s).active = false ∧
      s.plan.running = false) := by decide

theorem test_meets_events_reach_their_stops :
    (let s := { wRun [(EVT_STOP_MASK_LO.MASK 56, 2147483648)] with evt.raised := [(99, 8)], evt.lines := [(99, 31)] }; let r : Nat := 99;
      let src : Nat := 8; let n : Nat := 31; s.evt.raised = [(r, src)] ∧ s.evt.lines = [(r, n)] ∧ r < s.now ∧ n < 32 ∧ canRun 56 s = false) ∧
    (let s := wRun [(EVT_STOP_CNT.COUNT 56, 15)]; canRun 56 s = true) ∧
    (let s := { wRun [(EVT_STOP_CNT.COUNT 5, 15)] with evt.fresh := [(5, 3), (6, 2)], evt.ran := [(100, 6)] }; let st : Nat := 5;
      let c : Nat := get (EVT_STOP_CNT.COUNT st) s + look s.evt.fresh st 0 - b2n (hasRun st s); 15 < c ∧ get (EVT_STOP_CNT.OVERRUN st) s = 0) ∧
    (let s := { wRun [(EVT_STOP_CNT.COUNT 31, 1), (DMA_CH_PACE.MODE 31, 1)] with dma.chans := List.replicate 31 {} ++ [{ active := true, fetch := some 0 }] };
      let n : Fin 32 := 31; s.dma.chans.length = 32 ∧ (chOf (↑n) s).active = true ∧ frameCh (chOf (↑n) s) = false ∧
      get (DMA_CH_PACE.MODE ↑n) s = 1 ∧ (chOf (↑n) s).granted = false ∧ canRun (↑n) s = true ∧ get (DMA_CH_CTRL.DSRC ↑n) s = 0 ∧
      (chOf (↑n) s).fetch.isSome = true ∧ (chOf (↑n) s).fetchIssued = false) := by decide

theorem test_meets_event_registers_and_pins_act :
    (let s := { wRun [] with plan.running := false }; let v : Nat := 100; let p : Fin 4 := 0; let rising : Bool := true;
      sourceKnown (v % 256) = true ∧ s.plan.running = false ∧ get (EVT_PIN.DIR ↑p) s = 0 ∧
      (get (EVT_PIN.EDGE ↑p) s = 2 ∨ get (EVT_PIN.EDGE ↑p) s = if rising = true then 0 else 1) ∧ s.pwr.fabricStopped = false) ∧
    (let s := wRun []; let v : Nat := 255; s.plan.running = true ∧ sourceKnown (v % 256) = false) ∧
    (let s := { wRun [(EVT_PIN.DIR 3, 1)] with evt.pinDue := [(3, 100)] }; let p : Fin 4 := 3; get (EVT_PIN.DIR ↑p) s = 1 ∧
      (↑p, s.now) ∈ s.evt.pinDue) ∧
    (let s := { wRun [] with evt.pinOn := [(3, 100)] }; let p : Fin 4 := 3; let e : Nat := 100; s.evt.pinOn = [(↑p, e)] ∧ e ≤ s.now) := by decide

theorem test_meets_serial_ports_queue_and_transfer :
    (let s := wRun []; let v : Nat := 0; pushCause 0 { word := v, data := get SP0_TXD.DATA s } s = 0 ∧ s.sp.p0.abortAt ≠ some s.now ∧
      s.sp.p2.rx = []) ∧
    (let v : Nat := 63; 4 ≤ v % 8) ∧
    (let s := { wRun [] with sp.p0.queue := List.replicate 16 entry0 }; let v : Nat := 64; let e : SpEntry := entry0;
      let rest : List SpEntry := (List.replicate 15 entry0); v = 64 ∧ s.sp.p0.queue.length = 16 ∧ s.sp.p0.queue = e :: rest ∧
      get SP0_CTRL.ENABLE s = 1 ∧ s.sp.p0.cur = none ∧ s.sp.p0.sel = none ∧ s.sp.p0.idleUntil ≤ s.now ∧ rxDepth 0 s < 16 ∧ s.seq.xipMiss = none) ∧
    (let s := { wRun [] with sp.p0.rx := [5, 6] }; let w : Nat := 5; let rest : List Nat := [6]; s.sp.p0.rx = w :: rest) ∧
    (let s := { wRun [(SP0_CTRL.ENABLE, 1)] with sp.p0.cur := some (entry0, 100) }; let e : SpEntry := entry0; let ends : Nat := 100;
      s.sp.p0.cur = some (e, ends) ∧ ends ≤ s.now ∧ e.cont = false ∧ e.receives = true ∧ s.sp.p0.rx.length < 16) ∧
    (let s := { wRun [(SP2_CTRL.ROLE, 1), (SP2_CTRL.ENABLE, 1)] with sp.p2.queue := [entry0] }; let e : SpEntry := entry0;
      let rest : List SpEntry := []; get SP2_CTRL.ROLE s = 1 ∧ get SP2_CTRL.ENABLE s = 1 ∧ s.sp.p2.sel = none ∧ s.sp.p2.cur = none ∧
      s.sp.p2.queue = e :: rest) ∧
    (let s := { wRun [(SP2_CTRL.ROLE, 1), (SP2_CTRL.ENABLE, 1)] with sp.p2.queue := [] }; get SP2_CTRL.ROLE s = 1 ∧ get SP2_CTRL.ENABLE s = 1 ∧
      s.sp.p2.sel = none ∧ s.sp.p2.cur = none ∧ s.sp.p2.queue = []) ∧
    (let s := { wRun [(SP2_CTRL.ROLE, 1)] with sp.p2.sel := some 0, sp.p2.cur := some (entry0, 0) }; let e : SpEntry := entry0; let ends : Nat := 0;
      get SP2_CTRL.ROLE s = 1 ∧ s.sp.p2.sel.isSome = true ∧ s.sp.p2.cur = some (e, ends)) := by decide

theorem test_meets_windows_and_template_are_judged :
    (let s := wRun []; let n : Fin 4 := 0; let key : Nat := 0; let v : Nat := 0; let since : Nat := 0; get (SP0_WIN_CFG.EN ↑n) s = 0 ∧ key < 256 ∧
      get (SP0_WIN_LEN.LENGTH ↑n) s = 0 ∧ tmplInvalid v (get SP0_XIP_FREQ.FREQ s) = false ∧ (sp1Receives s = false ∨ sp1Aborted since s = true)) ∧
    (let s := wRun []; let v : Nat := 65536; tmplInvalid v (get SP0_XIP_FREQ.FREQ s) = true) ∧
    (let s := wRun [(SP0_WIN_LEN.LENGTH 3, 1)]; let n : Fin 4 := 3; let key : Nat := 0; get (SP0_WIN_CFG.EN ↑n) s = 0 ∧ key < 256 ∧
      winInvalid (↑n) (set (SP0_WIN_CFG.KEY ↑n) key s) = false) ∧
    (let s := { wRun [(SP0_WIN_CFG.EN 3, 1)] with seq.xip := [⟨3, 0, [], 0⟩, ⟨2, 0, [], 0⟩]}; let n : Fin 4 := 3; get (SP0_WIN_CFG.EN ↑n) s = 1) ∧
    (let s := wHost []; let since : Nat := 0; sp1Receives s = true ∧ sp1Aborted since s = false ∧ get SP1_CNT.MALFORMED s < 1000 ∧
      get HFR_CNT.BAD s < 1000) := by decide

theorem test_meets_frames_are_executed_once_and_complete :
    (let s := wHost []; let f : FrameIn := frame0; let c : (State → Host.Outcome State Fault Refusal) × Nat := (execSync frame0, 1);
      sp1Receives s = true ∧ sp1Aborted f.since s = false ∧ frameShort f = false ∧ f.crcOk = true ∧ s.boot.synced = true ∧ bootEnded s = true ∧
      s.hfr.flight = [] ∧ s.abort.since = none ∧ s.hfr.last ≠ some (f.alive % 256, (frameOf c.snd f).crc)) ∧
    (let s := wHost []; let f : FrameIn := { frame0 with crcOk := false }; sp1Receives s = true ∧ sp1Aborted f.since s = false ∧
      frameShort f = false ∧ f.crcOk = false ∧ get HFR_CNT.BAD s < 1000) ∧
    (let s := wRun []; let f : FrameIn := frame0; (sp1Receives s = false ∨ sp1Aborted f.since s = true)) ∧
    (let s := wHost [inf0 1]; let x : InFlight := inf0 1; s.hfr.flight = [x] ∧ x.discard = false ∧ s.hfr.serial = x.serial ∧
      s.hfr.currentOf = some x.serial ∧ x.frame.type = 1 ∧ x.frame.cls < 4 ∧ x.done = false ∧ x.next = 0 ∧ s.hfr.dmaFrame = none ∧
      s.pwr.fabricStopped = false) ∧
    (let s := wHost [inf0 6]; let x : InFlight := inf0 6; s.hfr.flight = [x] ∧ x.discard = false ∧ s.hfr.serial = x.serial ∧
      s.hfr.currentOf = some x.serial ∧ x.frame.type = 6 ∧ x.done = false ∧ get HFR_REQ_STAT.PENDING s = 1) := by decide +kernel

theorem test_meets_frames_start_and_lines_are_sent :
    (let s := { wDsp [(DSP_CTRL.EN, 1)] with dsp.firstDue := some 100 }; let d : Nat := 100; dspAwake s = true ∧ s.pwr.entry = none ∧
      dget DSP_CTRL.EN s = 1 ∧ dget DSP_CTRL.IF s ≠ 2 ∧ s.dsp.pending = none ∧ s.dsp.firstDue = some d ∧ d ≤ s.now) ∧
    (let s := { wDsp [(DSP_CTRL.EN, 1), (DSP_CTRL.IF, 2), (DSP_VTIM0.VACT, 3)] with dsp.inFrame := true }; dspAwake s = true ∧ s.pwr.entry = none ∧
      dget DSP_CTRL.EN s = 1 ∧ dget DSP_CTRL.IF s = 2 ∧ on DSP_TE.EN s = true ∧ s.dsp.pending = none ∧ transferRuns s = true ∧
      get DSP_CNT.TE_SKIP s < 255) ∧
    (let s := { wDsp [(DSP_CTRL.EN, 1), (DSP_CTRL.IF, 2)] with dsp.firstDue := some 100, now := 100 + 1024000 * 100 }; dspAwake s = true ∧
      s.pwr.entry = none ∧ dget DSP_CTRL.EN s = 1 ∧ dget DSP_CTRL.IF s = 2 ∧ on DSP_TE.EN s = true ∧ s.dsp.pending = none ∧ transferRuns s = false ∧
      firstReady s = true ∧ s.dsp.cmd = none ∧ s.dsp.teWait = false ∧ teFrom s + 1024000 * Nat.max 1 (get DSP_TE.TIMEOUT s) ≤ s.now ∧
      s.dsp.teLogged = false ∧ get DSP_CNT.TE_MISS s < 255) ∧
    (let s := { wDsp [(DSP_CTRL.EN, 1), (DSP_VTIM0.VACT, 2), (DSP_HTIM0.HACT, 4), (DSP_CLK.N, 1), (DSP_PLANE.EN, 0)] with dsp.inFrame := true, dsp.line := 1, now := 300000000 };
      let v : Nat := 1; dspAwake s = true ∧ s.pwr.entry = none ∧ s.dsp.inFrame = true ∧ s.dsp.line = v ∧ v < dget DSP_VTIM0.VACT s ∧
      lineSlot v s ≤ s.now) := by decide

theorem test_meets_settings_and_panel_commands_are_judged :
    (let s := { wRun [] with plan.running := false }; let v : Nat := 320;
      let s1 := set DSP_CTRL.EN v (set DSP_CTRL.IF (v / 2) (set DSP_CTRL.LANES (v / 8) (set DSP_CTRL.FMT (v / 32) s))); bit v 8 = true ∧
      bit v 10 = false ∧ s.plan.running = false ∧ get DSP_STAT.RUN s = 0 ∧ bit v 0 = false ∧ limitsBroken (stagedPart s1.regs) = false) ∧
    (let s := wRun []; let v : Nat := 320; bit v 8 = true ∧ bit v 10 = false ∧ s.plan.running = true ∧ s.pwr.fabricStopped = false) ∧
    (let s := wDsp [(DSP_CTRL.IF, 2)]; get DSP_CMD_DATA.DATA s = 41 ∧ dget DSP_CTRL.IF s = 2 ∧ get DSP_STAT.RUN s = 1 ∧ s.dsp.cmd = none) ∧
    (let s := { wDsp [(DSP_CTRL.IF, 2)] with dsp.cmd := some ([0x29], 90) }; let b : List Nat := [0x29]; let w : Nat := 90;
      s.dsp.cmd = some (b, w) ∧ dspAwake s = true ∧ dget DSP_CTRL.IF s = 2 ∧ transferRuns s = false ∧ s.dsp.teWait = false) ∧
    (let s := { wDsp [] with dsp.initNext := some (0, 100), dsp.initList := [⟨5, [1, 2, 3]⟩] }; let k : Nat := 0; let due : Nat := 100;
      let e : InitEntry := ⟨5, [1,2,3]⟩; s.dsp.initNext = some (k, due) ∧ due ≤ s.now ∧ s.dsp.ackDue = none ∧ s.dsp.initList[k]? = some e) ∧
    (let s := { wDsp [] with dsp.ackDue := some 100 }; let d : Nat := 100; s.dsp.ackDue = some d ∧ d ≤ s.now) := by decide

theorem test_meets_kerb_check_trips_and_is_protected :
    (let s := wTone; let x : Int := 3201; let n : Nat := 0; let z : Int := 3201; let r : Int := 3201; let v : Nat := 99; get PWR_STAT.RUNG s ≤ 2 ∧
      3200 < x ∧ x ≤ 32767 ∧ s.line.replaced = false ∧ stimulusRuns s = true ∧ get KRB_STAT.OVR s = 0 ∧ mode s ≠ 2 ∧ mode s ≠ 3 ∧
      get KRB_CNT.TRIPS s < 65535 ∧ s.line.samples = List.replicate n 0 ∧ get KRB_STAT.LIGHT_EN s = 0 ∧ get KRB_STAT.MON_FAIL s = 0 ∧
      (z < -160 ∨ 160 < z ∨ r < 15840 ∨ 16160 < r) ∧ (mode s ≠ 7 ∨ v % 65536 ≠ 23294) ∧ mode s ≠ 7) ∧
    (let s := wTone; let z : Int := 160; let r : Int := 16000; get PWR_STAT.RUNG s ≤ 2 ∧ -160 ≤ z ∧ z ≤ 160 ∧ 15840 ≤ r ∧ r ≤ 16160) ∧
    (let s := { wRun [] with line.tdrPulse := some ⟨0, 3231, 0, 0⟩, line.lasPulse := some ⟨0, 3232, 0, 0⟩ }; let p : Pulse := ⟨0, 3231, 0, 0⟩;
      let q : Pulse := ⟨0, 3232, 0, 0⟩; get PWR_STAT.RUNG s ≤ 2 ∧ s.line.tdrPulse = some p ∧ s.line.lasPulse = some q ∧ p.fall < 32 * (↑s.now + 1) ∧
      32 * (↑s.now + 1) ≤ q.fall) ∧
    (let s := { wRun [(SYS_MODE.ACTIVE, 7)] with line.unlockedAt := some 36 }; let v : Nat := 0; let w : Nat := 36; mode s = 7 ∧
      s.line.unlockedAt = some w ∧ s.now ≤ w + 64 ∧ v < 16) ∧
    (let s := { wRun [(SYS_MODE.ACTIVE, 7)] with line.unlockedAt := some 36 }; let v : Nat := 23294; mode s = 7 ∧ v % 65536 = 23294) ∧
    (let s := wRun [(KRB_STAT.LIGHT_EN, 1), (KRB_STAT.TRIPPED,1)]; get KRB_STAT.LIGHT_EN s = 1) := by decide

theorem test_meets_audio_streams_and_stimulus_abort :
    (let s := wRun []; let v : Nat := 2; get STM_AUDIO_SRC.TONE_SRC s = 0 ∧ get STM_AUDIO_SRC.SPK_SRC s = 0 ∧ s.line.toneFifo.length < 64 ∧
      s.line.spkFifo.length < 64 ∧ bit v 1 = true ∧ mode s ≠ 6 ∧ mode s ≠ 7) ∧
    (let s := { wRun [] with line.toneFifo := List.replicate 64 0 }; get STM_AUDIO_SRC.TONE_SRC s = 0 ∧ s.line.toneFifo.length = 64 ∧
      get STM_AUDIO_STAT.DROPS s < 255) ∧
    (let s := { wRun [(STM_AUDIO_SRC.TONE_SRC, 1), (STM_AUDIO_SRC.TONE_ID, 9)] with line.tables := [⟨9, 0, [255, 127]⟩] };
      let tb : StimTable := ⟨9, 0, [255, 127]⟩; let lo : Nat := 255; let hi : Nat := 127; get STM_AUDIO_SRC.TONE_SRC s = 1 ∧
      get STM_AUDIO_SRC.SPK_SRC s = 0 ∧ s.line.toneFifo.length < 64 ∧ stimTable (get STM_AUDIO_SRC.TONE_ID s) s = some tb ∧ tb.data = [lo, hi] ∧
      lo < 256 ∧ hi < 256) ∧
    (let s := { wRun [(PWR_STAT.RUNG, 0), (STM_AUDIO_CTRL.RUN, 1), (STM_AUDIO_STAT.RUNNING, 1)] with now := 64000, line.toneFifo := [1], line.spkFifo := [2], evt.queues := List.replicate 16 { depth := 1 } };
      let a : Nat := 1; let as : List Nat := []; let b : Nat := 2; let bs : List Nat := []; s.line.ticks < audioIndex s.now ∧
      get PWR_STAT.RUNG s = 0 ∧ get STM_AUDIO_CTRL.RUN s = 1 ∧ get STM_AUDIO_STAT.RUNNING s = 1 ∧ get STM_AUDIO_SRC.SPK_SRC s ≠ 3 ∧
      s.line.toneFifo = a :: as ∧ s.line.spkFifo = b :: bs ∧ 0 < audioDepth 13 s ∧ 0 < audioDepth 14 s ∧ on AMP_CTRL.EN s = s.line.ampEn) ∧
    (let s := wRun [(SYS_MODE.ACTIVE, 6), (KRB_STAT.READY, 1)]; (mode s = 6 ∨ mode s = 7) ∧ kerbClear s = true) := by decide

theorem test_meets_speaker_bridge_states_1 :
    (let v : Nat := 65281; v % 4 < 2) ∧
    (let s := wAmp 1 []; let st : Nat := get AMP_STAT.STATE s; (st = 1 ∨ st = 2) ∧ get AMP_STAT.UVLO s = 0 ∧ s.line.retry = false ∧
      get AMP_STAT.RETRIES s < 8 ∧ get AMP_CNT.TRIPS s < 65535 ∧ (st = 1 ∨ st = 2 ∨ st = 3)) ∧
    (let s := wAmp 3 []; let st : Nat := get AMP_STAT.STATE s; st = 3 ∧ s.line.ampDue ≤ s.now) ∧
    (let s := wAmp 4 []; let st : Nat := get AMP_STAT.STATE s; st = 4) ∧
    (let s := wAmp 5 []; let st : Nat := get AMP_STAT.STATE s; st = 5) := by decide

theorem test_meets_speaker_bridge_states_2 :
    (let s := { wAmp 2 [(AMP_STAT.RETRIES, 7)] with line.retry := true }; let st : Nat := get AMP_STAT.STATE s; (st = 1 ∨ st = 2) ∧
      get AMP_STAT.UVLO s = 0 ∧ s.line.retry = true ∧ s.now ≤ s.line.softAt + 1024000000 ∧ get AMP_STAT.RETRIES s = 7) ∧
    (let s := { wAmp 1 [] with now := 20480000 }; let st : Nat := get AMP_STAT.STATE s; st = 1 ∧ s.line.softAt + 20480000 ≤ s.now ∧
      get AMP_STAT.UVLO s = 0) ∧
    (let s := { wAmp 2 [(AMP_STAT.RETRIES, 3)] with now := 1024000000 }; let st : Nat := get AMP_STAT.STATE s; st = 2 ∧
      s.line.playAt + 1024000000 ≤ s.now) ∧
    (let s := wAmp 2 [(AMP_STAT.UVLO, 1)]; let st : Nat := get AMP_STAT.STATE s; (st = 1 ∨ st = 2) ∧ get AMP_STAT.UVLO s = 1) := by decide

theorem test_meets_erost_ports_train_and_elect_1 :
    (let s := wRun [(ERL_PORT_CTRL.EN 1, 0)]; let p : Nat := 0; let q : Nat := 1; (p = 0 ∧ q = 1 ∨ p = 1 ∧ q = 0) ∧ get (ERL_PORT_CTRL.EN p) s = 0 ∧
      get PWR_STAT.RUNG s ≤ 2) ∧
    (let p : Nat := 0; let q : Nat := 1; let e : Nat := 0; (p = 0 ∧ q = 1 ∨ p = 1 ∧ q = 0) ∧ e ≤ 16) ∧
    (let s := wErl 1 {} []; let p : Nat := 0; let q : Nat := 1; let d : Nat := 0; (p = 0 ∧ q = 1 ∨ p = 1 ∧ q = 0) ∧
      get (ERL_PORT_STAT.STATE p) s = 1 ∧ d ≤ 3932) ∧
    (let s := wErl 1 {} []; let p : Nat := 0; let q : Nat := 1; let d : Nat := 3933; (p = 0 ∧ q = 1 ∨ p = 1 ∧ q = 0) ∧
      get (ERL_PORT_STAT.STATE p) s = 1 ∧ 3932 < d) ∧
    (let s := { wErl 1 {} [] with now := 921600 }; let p : Nat := 0; let q : Nat := 1; (p = 0 ∧ q = 1 ∨ p = 1 ∧ q = 0) ∧
      get (ERL_PORT_STAT.STATE p) s = 1 ∧ (erlPort p s).trainFrom + 921600 ≤ s.now ∧ (erlPort p s).trainLogged = false) := by decide

theorem test_meets_erost_ports_train_and_elect_2 :
    (let s := wErl 0 { retryAt := some 100 } [(ERL_PORT_CTRL.EN 0, 1)]; let p : Nat := 0; let q : Nat := 1; let d : Nat := 100; (p = 0 ∧
      q = 1 ∨ p = 1 ∧ q = 0) ∧ (erlPort p s).retryAt = some d ∧ d ≤ s.now ∧ get (ERL_PORT_CTRL.EN p) s = 1 ∧ get (ERL_PORT_STAT.STATE p) s = 0 ∧
      get PWR_STAT.RUNG s ≤ 2) ∧
    (let s := wErl 2 {} []; let p : Nat := 0; let q : Nat := 1; let b : BeaconIn := {beacon0 with upstream := 7}; (p = 0 ∧ q = 1 ∨ p = 1 ∧ q = 0) ∧
      get (ERL_PORT_STAT.STATE p) s = 2 ∧ (erlPort p s).reads = [] ∧ get (ERL_PORT_STAT.STATE q) s = 0 ∧ (erlPort q s).beacon = none ∧
      b.id ≠ ownId s ∧ b.conflict = false ∧ b.upstream ≠ ownId s ∧ b.hops < 7 ∧ ownId s ≤ b.master ∧ (erlPort p s).sentBeacon = none ∧
      get ERL_STAT.ROLE s ≠ 2) ∧
    (let s := wErl 2 {} [(SYS_UID_LO.ID, 8)]; let p : Nat := 0; let q : Nat := 1; let b : BeaconIn := beacon0; (p = 0 ∧ q = 1 ∨ p = 1 ∧ q = 0) ∧
      get (ERL_PORT_STAT.STATE p) s = 2 ∧ get (ERL_PORT_STAT.STATE q) s = 0 ∧ (erlPort q s).beacon = none ∧ b.id ≠ ownId s ∧ b.conflict = false ∧
      b.upstream ≠ ownId s ∧ b.hops < 7 ∧ b.master < ownId s) ∧
    (let s := wErl 2 {} [(SYS_UID_LO.ID, 7),(ERL_STAT.ROLE,1)]; let p : Nat := 0; let q : Nat := 1;
      let b : BeaconIn := {beacon0 with upstream := 7}; (p = 0 ∧ q = 1 ∨ p = 1 ∧ q = 0) ∧ get (ERL_PORT_STAT.STATE p) s = 2 ∧
      get (ERL_PORT_STAT.STATE q) s = 0 ∧ (erlPort q s).beacon = none ∧ b.id = ownId s ∧ b.upstream = ownId s ∧ get ERL_STAT.CONFLICT s = 0 ∧
      get ERL_STAT.ROLE s = 1 ∧ (erlPort p s).reads = [] ∧ (erlPort q s).reads = []) ∧
    (let s := { wErl 2 { beacon := some (⟨7, 7, 6, 0, false⟩, 50) } [] with now := 30770 }; let p : Nat := 0; let q : Nat := 1;
      let b : Beacon := ⟨7, 7, 6, 0, false⟩; let w : Nat := 50; (p = 0 ∧ q = 1 ∨ p = 1 ∧ q = 0) ∧ get (ERL_PORT_STAT.STATE p) s = 2 ∧
      get (ERL_PORT_STAT.STATE q) s = 0 ∧ (erlPort q s).beacon = none ∧ (erlPort p s).beacon = some (b, w) ∧ w + 30720 ≤ s.now) := by decide

theorem test_meets_timing_messages_act :
    (let s := wErl 2 {} []; let p : Nat := 0; let q : Nat := 1; let m : TimingIn := {timing1 with tick := 400}; (p = 0 ∧ q = 1 ∨ p = 1 ∧ q = 0) ∧
      get (ERL_PORT_STAT.STATE p) s = 2 ∧ get (ERL_PORT_STAT.STATE q) s = 0 ∧ timingOk s = true ∧ get ERL_STAT.ALIGNED s = 0 ∧
      get ERL_STAT.NOTIME s < 255 ∧ (erlPort p s).vc0Free ≤ 4 * s.now ∧ armTickOf m s = none) ∧
    (let s := { wErl 2 {} [(ERL_STAT.ALIGNED, 1)] with committed := regSet ERL_NET.ARM_EN 1 [] }; let p : Nat := 0; let q : Nat := 1;
      let m : TimingIn := timing1; let a : Nat := 5000; (p = 0 ∧ q = 1 ∨ p = 1 ∧ q = 0) ∧ get (ERL_PORT_STAT.STATE p) s = 2 ∧
      get (ERL_PORT_STAT.STATE q) s = 0 ∧ timingOk s = true ∧ get ERL_STAT.ALIGNED s = 1 ∧ com ERL_NET.ARM_EN s = 1 ∧ armTickOf m s = some a) ∧
    (let s := { wErl 2 {} [] with erl.armAt := [(403, false)], record.running := true }; let p : Nat := 0; let q : Nat := 1; let a : Nat := 403;
      (p = 0 ∧ q = 1 ∨ p = 1 ∧ q = 0) ∧ get (ERL_PORT_STAT.STATE p) s = 2 ∧ get (ERL_PORT_STAT.STATE q) s = 0 ∧ timingOk s = true ∧
      s.erl.armAt = [(a, false)] ∧ a < tick s + 4 ∧ s.record.running = true ∧ s.record.startWaits = false ∧ s.record.place = 0 ∧
      s.record.recs = [] ∧ mode s ≠ 4) ∧
    (let s := { wErl 2 {} [(ERL_STAT.ALIGNED, 1)] with applied := regSet (TRG_CTRL.ENABLE 3) 1 (regSet (TRG_CTRL.TYPE 3) 9 []), tickAdj := 37 };
      let p : Nat := 0; let q : Nat := 1; let n : Fin 4 := 3; (p = 0 ∧ q = 1 ∨ p = 1 ∧ q = 0) ∧ get (ERL_PORT_STAT.STATE p) s = 2 ∧
      get (ERL_PORT_STAT.STATE q) s = 0 ∧ timingOk s = true ∧ get ERL_STAT.ALIGNED s = 1 ∧ unitOn (↑n) s = true ∧ app (TRG_CTRL.TYPE ↑n) s = 9 ∧
      app (TRG_CTRL.SRC ↑n) s = 0) ∧
    (let s := { wErl 2 { treq := some 100 } [] with erl.lastUpstream := some 0, erl.thetas := List.replicate 16 5 }; let p : Nat := 0;
      let q : Nat := 1; let t1 : Int := 100; (p = 0 ∧ q = 1 ∨ p = 1 ∧ q = 0) ∧ get (ERL_PORT_STAT.STATE p) s = 2 ∧
      get (ERL_PORT_STAT.STATE q) s = 0 ∧ timingOk s = true ∧ (erlPort p s).treq = some t1 ∧ s.erl.lastUpstream = some p ∧
      onUpstream s = false) := by decide

theorem test_meets_remote_packets_are_judged :
    (let s := { wErl 2 {} [] with erl.windows := [win0] }; let p : Nat := 0; let k : PacketIn := packet1; let w : Nat := 0; p < 2 ∧
      get (ERL_PORT_STAT.STATE p) s = 2 ∧ timingOk s = true ∧ (erlPort p s).waiting = [] ∧ k.seq = look (erlPort p s).expect 1 0 ∧
      rxFill p 1 s < 16 ∧ windowFor p (lineOf k.addr) true s = some w ∧ mayWrite (44 + p) (lineOf k.addr - sqBase) s = true ∧
      (erlPort p s).rateFrom = rateIndex s ∧ (∀ (v : Window), s.erl.windows[w]? = some v → look (erlPort p s).admitted w 0 < v.rate) ∧
      k.seq = look (erlPort p s).expect 2 0 ∧ rxFill p 2 s < 16 ∧ windowFor p (lineOf k.addr) false s = some w ∧ reserved (erlPort p s) < 8 ∧
      (erlPort 0 s).waiting = [] ∧ (erlPort 1 s).waiting = []) ∧
    (let s := wErl 2 {expect := [(1, 4095), (2, 4095)]} []; let p : Nat := 0; let k : PacketIn := {packet1 with seq := 4095}; p < 2 ∧
      get (ERL_PORT_STAT.STATE p) s = 2 ∧ timingOk s = true ∧ (erlPort p s).waiting = [] ∧ s.erl.windows = [] ∧
      (erlPort p s).refusedLogged = false ∧ get (ERL_PORT_CNT.REFUSED p) s < 255 ∧ k.seq = look (erlPort p s).expect 1 0 ∧ rxFill p 1 s < 16 ∧
      k.seq = look (erlPort p s).expect 2 0 ∧ rxFill p 2 s < 16 ∧ reserved (erlPort p s) < 8) ∧
    (let s := { wErl 2 { reads := [⟨5, 31, 50⟩] } [] with dma.chans := List.replicate 31 {} ++ [{ active := true }] }; let p : Nat := 0;
      let k : PacketIn := packet1; let n : Fin 32 := 31; let w : Nat := 50; p < 2 ∧ get (ERL_PORT_STAT.STATE p) s = 2 ∧ timingOk s = true ∧
      (erlPort p s).waiting = [] ∧ k.seq = look (erlPort p s).expect 3 0 ∧ (erlPort p s).reads = [{ tag := k.tag, chan := ↑n, since := w }] ∧
      k.status = 0 ∧ s.dma.chans.length = 32 ∧ (chOf (↑n) s).active = true ∧ (chOf (↑n) s).aborting = none) ∧
    (let s := { wErl 2 { replay := [⟨1, 0, 0, 0, 0, [], 0⟩] } [] with now := 2048 }; let p : Nat := 0;
      let x : Packet := { vc := 1, seq := 0, addr := 0, tag := 0, status := 0, data := [], since := 0 }; p < 2 ∧ get (ERL_PORT_STAT.STATE p) s = 2 ∧
      timingOk s = true ∧ (erlPort p s).waiting = [] ∧ (erlPort p s).replay = [x] ∧ get (ERL_PORT_CNT.REPLAY p) s < 255 ∧
      (erlPort p s).sentAt + 2048 ≤ s.now) ∧
    (let s := { wErl 2 { reads := [⟨5, 31, 0⟩] } [] with now := 101376 }; let p : Nat := 0;
      let r : RemoteRead := { tag := 5, chan := 31, since := 0 }; p < 2 ∧ get (ERL_PORT_STAT.STATE p) s = 2 ∧ timingOk s = true ∧
      (erlPort p s).waiting = [] ∧ (erlPort p s).reads = [r] ∧ r.since + 101376 ≤ s.now ∧ (chOf r.chan s).active = false) := by decide

theorem test_meets_clocks_step_lock_switch_and_monitor :
    (let s := wRun []; let v : Nat := 36895; let i : Nat := 0; s.record.running = false ∧ get ERL_STAT.ROLE s ≠ 2 ∧ s.now % 4096 ≠ 0 ∧
      bits v 0 5 = get CLK_REF_CTRL.EN s ∧ bits v 12 3 = 1 ∧ bit v 15 = true ∧ get CLK_STAT.IN_USE s = 0 ∧ refClass 1 s ≠ 1 ∧
      windowEndNow s = false ∧ s.tickOn = true ∧ refClass i s ≠ 4 ∧ s.clk.ppsEdges = [] ∧ get CLK_PPS_CTRL.DISC s = 0 ∧
      get CLK_PPS_CNT.ACCEPT s < 65535) ∧
    (let s := { wRun [] with record.running := true }; (s.record.running = true ∨ get ERL_STAT.ROLE s = 2)) ∧
    (let s := wRun [(CLK_STAT.LOCK, 1)]; get CLK_STAT.LOCK s = 1 ∧ s.boot.phase = .done ∧ s.pwr.fabricStopped = false ∧ s.abort.since = none ∧
      get LOG_ABORT_STAT.COUNT s < 255) ∧
    (let s := { wRun [(CLK_STAT.LOCK, 0)] with now := 1024000 }; s.tickOn = true ∧ get CLK_STAT.LOCK s = 0 ∧ s.clk.relockFrom + 1024000 ≤ s.now) ∧
    (let s := wRun [(CLK_REF_CTRL.EN, 31), (CLK_REF_CLASS.CLASS, 16), (CLK_STAT.HOLDOVER, 1)]; let v : Nat := 36895;
      bits v 0 5 = get CLK_REF_CTRL.EN s ∧ bits v 12 3 = 1 ∧ bit v 15 = true ∧ get CLK_STAT.IN_USE s = 0 ∧ refClass 1 s = 1 ∧
      get CLK_STAT.SWITCHES s < 65535 ∧ get ERL_STAT.ROLE s ≠ 2) ∧
    (let s := wRun [(CLK_STAT.GLIDE, 1)]; get CLK_STAT.GLIDE s = 1 ∧ s.clk.glideUntil ≤ s.now) ∧
    (let s := { wRun [(CLK_REF_CTRL.EN, 31), (PWR_STAT.RUNG, 0)] with now := 1024000000 }; s.clk.refs.length = 5 ∧ windowEndNow s = true ∧
      get PWR_STAT.RUNG s < 3 ∧ s.clk.windowFrom + ticks1s - 3 ≤ 4 * ↑s.now + s.tickAdj) ∧
    (let s := { wRun [] with clk.ppsEdges := [0] }; let x : Int := 0; s.tickOn = true ∧ ppsAccepted x s = false ∧ s.clk.ppsLogged = false ∧
      get CLK_PPS_CNT.REJECT s < 65535) := by decide

theorem test_meets_rungs_follow_demands_and_wakes_1 :
    (let s := wRun []; let v : Nat := 16; bits v 4 3 = get PWR_CTRL.REST s ∧ bits v 8 1 = get PWR_CTRL.HOLD_RUN s ∧ s.pwr.fabricStopped = false ∧
      runWanted s = false ∧ (bits v 0 3 = 0 ∨ bits v 0 3 = 6 ∨ bits v 0 3 = 7)) ∧
    (let s := wRun []; let v : Nat := 17; bits v 4 3 = get PWR_CTRL.REST s ∧ bits v 8 1 = get PWR_CTRL.HOLD_RUN s ∧ s.pwr.fabricStopped = false ∧
      runWanted s = false ∧ (bits v 0 3 = 1 ∨ bits v 0 3 = 2)) ∧
    (let s := wRun []; let v : Nat := 19; bits v 4 3 = get PWR_CTRL.REST s ∧ bits v 8 1 = get PWR_CTRL.HOLD_RUN s ∧ s.pwr.fabricStopped = false ∧
      runWanted s = false ∧ 3 ≤ bits v 0 3 ∧ bits v 0 3 ≤ 5 ∧ busyForDoze s = false) ∧
    (let s := wRun [(PWR_CTRL.HOLD_RUN, 1)]; let rung : Nat := get PWR_STAT.RUNG s; runWanted s = true ∧ s.pwr.fabricStopped = false ∧ rung ≠ 0 ∧
      get PWR_CNT.MOVES s < 65535) ∧
    (let s := wRun [(PWR_STAT.RUNG, 0), (AMP_STAT.STATE, 2), (STM_AUDIO_STAT.RUNNING, 1)]; let rung : Nat := get PWR_STAT.RUNG s;
      runWanted s = false ∧ s.pwr.fabricStopped = false ∧ s.pwr.policy = none ∧ rung = 0) ∧
    (let s := { wRun [(PWR_CTRL.HOLD_RUN, 1), (PWR_STAT.RUNG, 4)] with pwr.fabricStopped := true }; let rung : Nat := get PWR_STAT.RUNG s;
      runWanted s = true ∧ s.pwr.fabricStopped = true ∧ s.pwr.exit = none ∧ rung ≠ 0 ∧ get PWR_CNT.MOVES s < 65535) := by decide

theorem test_meets_rungs_follow_demands_and_wakes_2 :
    (let s := { wRun [] with plan.queue := [0] }; let v : Nat := 19; bits v 4 3 = get PWR_CTRL.REST s ∧ bits v 8 1 = get PWR_CTRL.HOLD_RUN s ∧
      s.pwr.fabricStopped = false ∧ runWanted s = false ∧ 3 ≤ bits v 0 3 ∧ bits v 0 3 ≤ 5 ∧ busyForDoze s = true) ∧
    (let s := { wRun [] with now := 4095, pwr.entry := some 5, pwr.seqStopped := true, mem := [(0x60000000, 7)] }; let r : Nat := 5;
      s.pwr.entry = some r ∧ 3 ≤ r ∧ r ≤ 5 ∧ entryReady s = true ∧ runWanted s = false) ∧
    (let s := { wRun [(PWR_WAKE_EN.EN, 255), (PWR_WAKE_TMR.CYCLES, 1), (PWR_STAT.RUNG, 3)] with pwr.fabricStopped := true };
      let c : (State → Host.Outcome State Fault Refusal) × Nat × Nat := (execWakeN, 0, 1); s.pwr.fabricStopped = true ∧ s.pwr.exit = none ∧
      bit (get PWR_WAKE_EN.EN s) c.snd.fst = true ∧ s.boot.presN = false ∧ get PWR_WAKE_TMR.CYCLES s ≠ 0) ∧
    (let s := { wRun [] with pwr.exit := some ⟨3, true, 50⟩, pwr.good := true, pwr.fabricStopped := true }; let x : PwrExit := ⟨3, true, 50⟩;
      s.pwr.exit = some x ∧ x.from_ = 3 ∧ x.idle = true ∧ s.pwr.good = true ∧ s.abort.held = 0 ∧ s.record.startWaits = false) ∧
    (let s := { wRun [] with pwr.exit := some ⟨2, false, 50⟩, pwr.good := true }; let x : PwrExit := { from_ := 2, idle := false, since := 50 };
      s.pwr.exit = some x ∧ x.from_ ≤ 2 ∧ s.record.startWaits = false) ∧
    (let s := wRun [(PWR_WAKE_EN.EN, 0)]; bit (get PWR_WAKE_EN.EN s) 0 = false) := by decide

theorem test_meets_supply_is_watched_and_adapts :
    (let s := { wRun [] with pwr.exit := some ⟨4, false, 50⟩, mem := [(0x60000000, 7)] }; let vid : Nat := get PWR_AVS_STAT.VID s; let m : Int := 0;
      s.pwr.exit.isSome = true ∧ s.pwr.good = false ∧ s.pwr.lateLogged = false ∧ s.tickOn = true ∧ s.pwr.fabricStopped = false ∧
      s.pwr.lastEval = none ∧ 0 ≤ m ∧ m < ↑(get PWR_AVS_CFG.TGT s) ∧ get PWR_AVS_LIM.FLOOR s ≤ vid ∧ vid < get PWR_AVS_LIM.CEIL s ∧ vid < 40) ∧
    (let s := { wRun [] with pwr.exit := some ⟨4, false, 50⟩, mem := [(0x60000000, 7)] }; let vid : Nat := get PWR_AVS_STAT.VID s;
      let m : Int := -1; s.tickOn = true ∧ s.pwr.fabricStopped = false ∧ s.pwr.lastEval = none ∧ m < 0 ∧ get PWR_AVS_LIM.FLOOR s ≤ vid ∧
      vid < get PWR_AVS_LIM.CEIL s ∧ vid < 40 ∧ bit (get SQ_PLAN_STAT.MSTOP_CAUSE s) 1 = false ∧ get SQ_PLAN_STAT.MARGIN_STOP s = 0) ∧
    (let v : Nat := 0; bits v 0 6 ≤ bits v 8 6) ∧
    (let v : Nat := 1029; bits v 8 6 < bits v 0 6) ∧
    (let s := { wRun [] with pwr.good := true }; s.pwr.good = true ∧ s.boot.phase = .done ∧ s.pwr.fabricStopped = false ∧ s.abort.since = none) ∧
    (let s := wRun [(PWR_AVS_LIM.CEIL, 40), (PWR_AVS_STAT.VID, 40), (PWR_AVS_CFG.TGT, 5)]; let vid : Nat := get PWR_AVS_STAT.VID s;
      let m : Int := 0; s.tickOn = true ∧ s.pwr.fabricStopped = false ∧ s.pwr.lastEval = none ∧ 0 ≤ m ∧ m < ↑(get PWR_AVS_CFG.TGT s) ∧
      vid = get PWR_AVS_LIM.CEIL s ∧ vid ≤ 40 ∧ get PWR_AVS_STAT.PINNED s = 0 ∧ get PWR_CNT.PINS s < 65535) := by decide

theorem test_meets_log_ring_and_supply_loss_keep_the_record :
    (let s := { wRun [(LOG_IDX.WR, 255)] with memory.logTurn := some 100, log.hold := [log0] }; let e : LogEntry := log0;
      let rest : List LogEntry := []; let rail : Nat := 0; s.memory.logTurn = some s.now ∧ s.log.hold = e :: rest ∧ get LOG_IDX.WR s < 256 ∧
      get LOG_STAT.DEPTH s < 256 ∧ s.memory.upsets = [] ∧ get LOG_STAT.DEPTH s = 0 ∧ (2 ≤ rail ∨ railsMasked s = false)) ∧
    (let s := wRun [(LOG_STAT.DEPTH, 256)]; 0 < get LOG_STAT.DEPTH s ∧ get LOG_STAT.DEPTH s ≤ 256) ∧
    (let s := { wRun [(LOG_STAT.DEPTH, 3), (SYS_BOOT_CTRL.TRY_SLOT, 2), (PWR_STAT.RUNG, 5)] with mem := [(0x60000000, 7)], pwr.fabricStopped := true, pending := [.wakeN], boot.presN := true };
      let rail : Nat := 0; rail < 2 ∧ railsMasked s = true) := by decide

theorem test_meets_global_aborts_stop_the_units :
    (let s := wRun []; s.boot.phase = .done ∧ s.pwr.fabricStopped = false ∧ s.abort.since = none ∧ get LOG_ABORT_STAT.COUNT s < 255) ∧
    (let s := {wRun [] with boot.sp1Open := true}; s.boot.phase = .done ∧ s.pwr.fabricStopped = false ∧ s.abort.since = none ∧
      get LOG_ABORT_STAT.COUNT s < 255 ∧ s.boot.presN = false ∧ s.boot.sp1Open = true ∧ s.pwr.entry = none) ∧
    (let s := {wRun [] with boot.presN := true}; s.boot.presN = true) ∧
    (let s := { State.reset with boot.phase := .streaming }; s.boot.phase = .streaming ∧ bit s.abort.held 2 = false) ∧
    (let s := { wRun [(PWR_CTRL.HOLD_RUN, 1)] with abort.since := some 99, record.recs := [rec0 .capturing] , record.running := true};
      let w : Nat := 99; s.boot.phase = .done ∧ s.pwr.fabricStopped = false ∧ s.abort.since.isSome = true ∧ get LOG_ABORT_STAT.MERGED s < 255 ∧
      s.abort.since = some w ∧ s.abort.acted = false ∧ w < s.now) ∧
    (let s := { wRun [(LOG_ABORT_STAT.SRC, 3)] with abort.since := some 99, abort.acted := true }; let w : Nat := 99; s.abort.since = some w ∧
      s.abort.acted = true ∧ abortDone s = true) := by decide

theorem test_meets_registers_are_reached_by_their_addresses :
    (let a : Addr := 0; busMapped a = false) ∧
    (let s := State.reset; s.boot.phase ≠ .test) ∧
    (let s := wRun [(TRG_BCAST_GROUP.MASK, 5)]; get TRG_BCAST_GROUP.MASK s = 5) ∧
    (let s := wRun [(TRG_BCAST_GROUP.MASK, 3), (TRG_LEVEL.LVL_A 1, 9)]; get TRG_BCAST_GROUP.MASK s = 3 ∧
      get (TRG_LEVEL.LVL_B 0) s = get (TRG_LEVEL.LVL_B 1) s) ∧
    (let s := { State.reset with boot.phase := .test }; s.boot.phase = .test) := by decide

theorem test_meets_eret_with_an_interrupt :
    (match exec .eret wIrq with | .next t => (irqNow { t with now := 200 }).isSome && otherOk [] wIrq | _ => false) = true := by decide

theorem test_meets_encode : (encodeCore (.jalr 15 15 0x3FFF)).isSome = true ∧ (encodeCore (.bext 0 15 31 0)).isSome = true ∧
    (encodeCore (.lui 15 0x3FFFF)).isSome = true := by decide

/-- The trims of a cycle pass for a factory table at R117's nominal values (the table is free: Config). -/
theorem test_meets_calibration_pass (hm : Config.factoryMid 16 = 0) (hs : Config.factorySpan 16 = 1536 * 65536) :
    calTrims 16 (1280 * 4096) (2816 * 4096) wCal = (0, 32768, 0, 0) := by
  unfold calTrims
  rw [hm, hs]
  decide

/-- A step from a memory in its form: a store in front of the buffer goes to DTCM. -/
theorem test_meets_memory_form :
    (let s := { wStore 0x11FFFF 1 none with pending := [.storeDrain] }
     Memory.wf (lossOf s) s.mem = true ∧ (match step s with | .next t => Memory.wf (lossOf t) t.mem && decide (t.mem ≠ []) | _ => false) = true) := by decide

theorem test_meets_parse : (match parseImage image0.toArray 832 with | .ok x => x.sigOfs == 0x280 | .error _ => false) = true := by decide +kernel

end Sys2Proof.Tests
end

section
/-! PROOFS of the family 00_scope: the reset state (O16) and the judgement of mode requests (O19). -/

namespace Sys2Proof.Machine

/-! ## Reset (R14) -/

@[simp] theorem get_reset (F : Fld) : get F State.reset = F.reset := rfl

/-- A byte below the Boulevard that nothing has written reads zero while the download area has kept its contents (log entry 26). -/
theorem readByte_unwritten (a : Nat) (s : State) (hm : s.mem = []) (hl : s.memory.areaLoss = 0) (ha : a < blvBase) :
    readByte a s = 0 := by
  have none_lost : ¬ 0 < (lossOf s).2 := by simp [lossOf, hl]
  simp [readByte, memGet, hm, sparseFind, unlisted, ha, none_lost]

/-- Settles O16: the reset state lists no field and no byte, so each reads its reset value. -/
theorem resetHoldsTheSpecifiedValues : Obligations.ResetHoldsTheSpecifiedValues := by
  unfold Obligations.ResetHoldsTheSpecifiedValues
  exact ⟨get_reset, get_reset _, get_reset _, get_reset _, get_reset _, rfl, rfl, rfl, rfl,
    fun a ha => readByte_unwritten a State.reset rfl rfl ha⟩

/-! ## What a commit leaves of a mode change

An accepted request ends with an implicit commit (R215). Its judgements log faults and write status fields, all of them at addresses
above SYS_MODE. -/

/-- The registers below SYS_BOOT_STAT, SYS_MODE among them, the plan and memory stay as they are. -/
def leavesMode (s t : State) : Prop :=
  (∀ F : Fld, F.key < SYS_BOOT_STAT.addr * 32 → get F t = get F s) ∧ t.plan = s.plan ∧ t.mem = s.mem

theorem leavesMode_of_eq {s t : State} (hr : t.regs = s.regs) (hp : t.plan = s.plan) (hm : t.mem = s.mem) : leavesMode s t :=
  ⟨fun F _ => get_congr F hr, hp, hm⟩

theorem leavesMode_refl (s : State) : leavesMode s s := leavesMode_of_eq rfl rfl rfl

theorem leavesMode.trans {s t u : State} (h : leavesMode s t) (k : leavesMode t u) : leavesMode s u := by
  obtain ⟨hf, hp, hm⟩ := h
  obtain ⟨kf, kp, km⟩ := k
  exact ⟨fun F hF => (kf F hF).trans (hf F hF), kp.trans hp, km.trans hm⟩

/-- Setting a field of SYS_BOOT_STAT or of a register after it. -/
theorem leavesMode.set {s t : State} (h : leavesMode s t) (G : Fld) (v : Nat) (hG : SYS_BOOT_STAT.addr ≤ G.addr) :
    leavesMode s (set G v t) := by
  refine h.trans ⟨fun F hF => get_set_ne F G v t (Nat.ne_of_lt (Nat.lt_of_lt_of_le hF ?_)), rfl, rfl⟩
  exact Nat.le_add_right_of_le (Nat.mul_le_mul_right 32 hG)

theorem leavesMode.setB {s t : State} (h : leavesMode s t) (G : Fld) (b : Bool) (hG : SYS_BOOT_STAT.addr ≤ G.addr) :
    leavesMode s (setB G b t) := h.set G (b2n b) hG

theorem fault_leavesMode (code unit d0 d1 : Nat) (s : State) : leavesMode s (fault code unit d0 d1 s) :=
  ⟨fun F hF => get_fault F code unit d0 d1 s (Nat.ne_of_lt (Nat.lt_trans hF (by decide))) (Nat.ne_of_lt (Nat.lt_trans hF (by decide))),
    fault_plan code unit d0 d1 s, fault_mem code unit d0 d1 s⟩

theorem leavesMode_foldl {α : Type} (f : State → α → State) (hf : ∀ s x, leavesMode s (f s x)) (l : List α) (s : State) :
    leavesMode s (l.foldl f s) := by
  induction l generalizing s with
  | nil => exact leavesMode_refl s
  | cons x l ih => exact (hf s x).trans (ih (f s x))

theorem judgeFlag_leavesMode (commit was bad log : Bool) (unit : Nat) (s : State) :
    leavesMode s (judgeFlag commit was bad log unit s) := by
  unfold judgeFlag
  split
  · exact fault_leavesMode _ _ _ _ s
  · exact leavesMode_refl s

theorem judgeTrigger_leavesMode (commit : Bool) (s : State) : leavesMode s (judgeTrigger commit s) := by
  unfold judgeTrigger
  refine (leavesMode_foldl _ (fun s n => ?units) _ s).trans (leavesMode_foldl _ (fun s n => ?decoders) _ _)
  case units =>
    refine leavesMode.setB (leavesMode.setB ?_ _ _ (Nat.le_add_right_of_le (by decide))) _ _ (Nat.le_add_right_of_le (by decide))
    exact (judgeFlag_leavesMode _ _ _ _ n s).trans (judgeFlag_leavesMode _ _ _ _ n _)
  case decoders =>
    refine leavesMode.setB (leavesMode.trans ?_ (leavesMode_of_eq rfl rfl rfl)) _ _ (Nat.le_add_right_of_le (by decide))
    exact (judgeFlag_leavesMode _ _ _ _ (4 + n) s).trans (judgeFlag_leavesMode _ _ _ _ (4 + n) _)

theorem auStat_leavesMode (n : Nat) (s : State) : leavesMode s (auStat n s) := by
  unfold auStat
  have from_boot_stat : SYS_BOOT_STAT.addr ≤ RED_AU_STAT.addr n := Nat.le_add_right_of_le (by decide)
  exact (((leavesMode_refl s).setB _ _ from_boot_stat).set _ _ from_boot_stat).set _ _ from_boot_stat

theorem auCheck_leavesMode (m : List (Nat × Nat)) (s : State) : leavesMode s (auCheck m s) := by
  unfold auCheck
  refine leavesMode_foldl _ (fun s n => ?_) _ s
  refine leavesMode.trans (leavesMode.trans ?_ (leavesMode_of_eq rfl rfl rfl)) (auStat_leavesMode n _)
  split
  · exact fault_leavesMode _ _ _ _ s
  · exact leavesMode_refl s

theorem perCheck_leavesMode (s : State) : leavesMode s (perCheck s) := by
  have logged : leavesMode s (if !perClaims s then fault 0x0504 0 0 0 s else s) := by
    split
    · exact fault_leavesMode _ _ _ _ s
    · exact leavesMode_refl s
  exact logged.trans (leavesMode_of_eq rfl rfl rfl)

theorem commitOuts_leavesMode (s : State) : leavesMode s (commitOuts s) := leavesMode_of_eq rfl rfl rfl

theorem afterCommit_leavesMode (s : State) : leavesMode s (afterCommit s) := by
  have judged := (judgeTrigger_leavesMode true s).trans (auCheck_leavesMode (judgeTrigger true s).committed _)
  have outs := (judged.trans (perCheck_leavesMode _)).trans (commitOuts_leavesMode _)
  unfold afterCommit
  exact outs.trans (leavesMode_of_eq rfl rfl rfl)

theorem nextGen_leavesMode (carry : Bool) (s : State) : leavesMode s (nextGen carry s) := by
  have gen : leavesMode s (count REC_GEN.GEN { s with record.carry := carry }) :=
    (leavesMode_of_eq rfl rfl rfl).set REC_GEN.GEN _ (by decide)
  unfold nextGen
  split
  · exact gen
  · exact gen.set REC_EPOCH.EPOCH _ (by decide)

theorem takeStaging_leavesMode (carry : Bool) (s : State) : leavesMode s (takeStaging carry s) :=
  (leavesMode_of_eq rfl rfl rfl).trans (nextGen_leavesMode carry { s with committed := keptPart s.regs })

theorem startLedger_leavesMode (s : State) : leavesMode s (startLedger s) := by
  unfold startLedger
  split
  · exact leavesMode_of_eq rfl rfl rfl
  · exact (leavesMode_of_eq rfl rfl rfl).set SYS_LEDGER.WRITING _ (by decide)

theorem implicitCommit_leavesMode (s : State) : leavesMode s (implicitCommit s) := by
  have close (t : State) : leavesMode t (startLedger (afterCommit t)) := (afterCommit_leavesMode t).trans (startLedger_leavesMode _)
  unfold implicitCommit
  split
  · exact (nextGen_leavesMode false s).trans (close _)
  · exact (takeStaging_leavesMode false s).trans (close _)

theorem pendSwap_keepsFields (n : Nat) (s : State) : keepsFields [SQ_PLAN_STAT.PENDING, SQ_PLAN_STAT.SWAP_PENDING] s (pendSwap n s) := by
  intro F hF
  unfold pendSwap
  rw [get_set_ne F _ _ _ (hF _ (by simp)), get_set_ne F _ _ _ (hF _ (by simp))]
  rfl

/-! ## The choice of a plan (R9) -/

theorem mem_of_choosePlan {m n : Nat} {l : List Nat} {s : State} (h : choosePlan m l s = some n) : n ∈ l := by
  unfold choosePlan at h
  split at h
  next k hk => exact Option.some.inj h ▸ List.mem_of_find?_eq_some hk
  next => exact List.mem_of_mem_head? h

theorem mem_of_chooseForMode {m n : Nat} {l : List Nat} {s : State} (h : chooseForMode m l s = some n) : n ∈ l := by
  unfold chooseForMode at h
  split at h
  next k hk => exact Option.some.inj h ▸ (List.mem_filter.mp (mem_of_choosePlan hk)).1
  next =>
    split at h
    next k hk => exact Option.some.inj h ▸ List.mem_of_find?_eq_some hk
    next => exact mem_of_choosePlan h

theorem choosePlan_eq_none {m : Nat} {l : List Nat} {s : State} (h : choosePlan m l s = none) : l = [] := by
  unfold choosePlan at h
  split at h
  next => cases h
  next => exact List.head?_eq_none_iff.mp h

/-- R9 finds no plan only where none is eligible. -/
theorem chooseForMode_eq_none_iff (m : Nat) (l : List Nat) (s : State) : chooseForMode m l s = none ↔ l = [] := by
  constructor
  · intro h
    unfold chooseForMode at h
    split at h
    next => cases h
    next =>
      split at h
      next => cases h
      next => exact choosePlan_eq_none h
  · rintro rfl
    rfl

/-! ## Requests and their refusals (R8, R11, R17) -/

/-- A refusal changes MODE_REFUSED and its cause only. -/
theorem refuseMode_spec (c : Nat) (hc : c < 8) (s : State) :
    get SYS_MODE.MODE_REFUSED (refuseMode c s) = 1 ∧ get SYS_MODE.REFUSE_CAUSE (refuseMode c s) = c ∧
      keepsFields [SYS_MODE.MODE_REFUSED, SYS_MODE.REFUSE_CAUSE] s (refuseMode c s) ∧
      refuseMode c s = { s with regs := (refuseMode c s).regs } := by
  refine ⟨get_set_same _ _ _, ?_, fun F hF => ?_, rfl⟩
  · exact (get_set_ne _ _ _ _ (by decide)).trans ((get_set_same _ _ _).trans (Nat.mod_eq_of_lt hc))
  · exact (get_set_ne F _ _ _ (hF _ (by simp))).trans (get_set_ne F _ _ _ (hF _ (by simp)))

/-- MODE_REFUSED and its cause cleared (R17). -/
def clearRefusal (s : State) : State := set SYS_MODE.MODE_REFUSED 0 (set SYS_MODE.REFUSE_CAUSE 0 s)

theorem clearRefusal_keepsFields (s : State) : keepsFields [SYS_MODE.MODE_REFUSED, SYS_MODE.REFUSE_CAUSE] s (clearRefusal s) :=
  fun F hF => (get_set_ne F _ _ _ (hF _ (by simp))).trans (get_set_ne F _ _ _ (hF _ (by simp)))

theorem clearRefusal_spec (s : State) :
    get SYS_MODE.MODE_REFUSED (clearRefusal s) = 0 ∧ get SYS_MODE.REFUSE_CAUSE (clearRefusal s) = 0 ∧
      keepsFields [SYS_MODE.MODE_REFUSED, SYS_MODE.REFUSE_CAUSE] s (clearRefusal s) ∧
      clearRefusal s = { s with regs := (clearRefusal s).regs } :=
  ⟨get_set_same _ _ _, (get_set_ne _ _ _ _ (by decide)).trans (get_set_same _ _ _), clearRefusal_keepsFields s, rfl⟩

/-- A write without bit 16 judges MODE alone. -/
theorem modeWrite_mode (m : Fin 8) (s : State) :
    modeWrite m s = if m.val = get SYS_MODE.MODE s then s else modeRequest m s := by
  have hm : bits m 0 3 = m := by simp [bits]
  have h16 : bit m 16 = false := by have := m.isLt; simp [bit]; omega
  simp [modeWrite, hm, h16]

/-- A write with bit 16 and the MODE value that stands there clears the refusal and requests nothing. -/
theorem modeWrite_clear (m : Fin 8) (s : State) (h : m.val = get SYS_MODE.MODE s) : modeWrite (65536 + m) s = clearRefusal s := by
  have hm : bits (65536 + m) 0 3 = m := by simp only [bits]; omega
  have h16 : bit (65536 + m) 16 = true := by have := m.isLt; simp [bit]; omega
  have hk : get SYS_MODE.MODE (clearRefusal s) = get SYS_MODE.MODE s := clearRefusal_keepsFields s _ (by decide)
  unfold modeWrite
  rw [if_pos h16]
  exact if_pos (by rw [hm, h, ← hk]; rfl)

theorem exec_modeChangeRequest (v : Nat) (s : State) : exec (.modeChangeRequest v) s = .next (modeWrite v s) := rfl

theorem exec_modeChangeRequest_ne (m : Fin 8) (s : State) (h : m.val ≠ get SYS_MODE.MODE s) :
    exec (.modeChangeRequest m) s = .next (modeRequest m s) := by
  rw [exec_modeChangeRequest, modeWrite_mode, if_neg h]

/-- The store slots that hold a plan of a mode. -/
def modeFamily (m : Nat) (s : State) : List Nat := (List.range 8).filter (fun n => storeHolds n s && storeMode n s == m)

theorem mem_modeFamily {m n : Nat} {s : State} : n ∈ modeFamily m s ↔ n < 8 ∧ storeHolds n s = true ∧ storeMode n s = m := by
  simp [modeFamily]

/-- Those of them that are valid. -/
def modeEligible (m : Nat) (s : State) : List Nat := (modeFamily m s).filter (fun n => slotValid n s)

theorem mem_modeEligible {m n : Nat} {s : State} :
    n ∈ modeEligible m s ↔ (n < 8 ∧ storeHolds n s = true ∧ storeMode n s = m) ∧ slotValid n s = true := by
  rw [modeEligible, List.mem_filter, mem_modeFamily]

/-- A mode change and the swap to store slot `n` that serves it become pending (R8, R9). -/
def pendMode (m n : Nat) (s : State) : State :=
  set SYS_MODE.SWAP_PENDING 1 (set SYS_MODE.MODE m { pendSwap n s with plan.modeChange := some m })

/-- The judgement of R11 in its order. -/
theorem modeRequest_eq (m : Nat) (s : State) :
    modeRequest m s =
      if s.abort.since = some s.now then refuseMode 4 s
      else if get PWR_STAT.RUNG s ≠ 1 ∧ get PWR_STAT.RUNG s ≠ 2 then refuseMode 1 s
      else if modeFamily m s = [] then refuseMode 2 s
      else (chooseForMode m (modeEligible m s) s).elim (refuseMode 3 s) (fun n => implicitCommit (pendMode m n s)) := by
  simp only [modeRequest, modeFamily, modeEligible, List.isEmpty_iff]
  cases chooseForMode m _ s <;> rfl

section
variable {m : Nat} {s : State}

theorem modeRequest_in_abort (h : s.abort.since = some s.now) : modeRequest m s = refuseMode 4 s := by
  rw [modeRequest_eq, if_pos h]

theorem modeRequest_outside_idle_poised (ha : s.abort.since ≠ some s.now) (h1 : get PWR_STAT.RUNG s ≠ 1) (h2 : get PWR_STAT.RUNG s ≠ 2) :
    modeRequest m s = refuseMode 1 s := by
  rw [modeRequest_eq, if_neg ha, if_pos ⟨h1, h2⟩]

/-- In IDLE and POISED the plans of the mode decide. -/
theorem modeRequest_judged (ha : s.abort.since ≠ some s.now) (hr : get PWR_STAT.RUNG s = 1 ∨ get PWR_STAT.RUNG s = 2) :
    modeRequest m s = if modeFamily m s = [] then refuseMode 2 s
      else (chooseForMode m (modeEligible m s) s).elim (refuseMode 3 s) (fun n => implicitCommit (pendMode m n s)) := by
  rw [modeRequest_eq, if_neg ha, if_neg (by omega)]

theorem modeRequest_without_plan (ha : s.abort.since ≠ some s.now) (hr : get PWR_STAT.RUNG s = 1 ∨ get PWR_STAT.RUNG s = 2)
    (h : modeFamily m s = []) : modeRequest m s = refuseMode 2 s := by
  rw [modeRequest_judged ha hr, if_pos h]

theorem modeRequest_without_valid_plan (ha : s.abort.since ≠ some s.now) (hr : get PWR_STAT.RUNG s = 1 ∨ get PWR_STAT.RUNG s = 2)
    (hf : modeFamily m s ≠ []) (he : modeEligible m s = []) : modeRequest m s = refuseMode 3 s := by
  rw [modeRequest_judged ha hr, if_neg hf, (chooseForMode_eq_none_iff _ _ _).mpr he]
  rfl

theorem modeRequest_accepted (ha : s.abort.since ≠ some s.now) (hr : get PWR_STAT.RUNG s = 1 ∨ get PWR_STAT.RUNG s = 2)
    (he : modeEligible m s ≠ []) : ∃ n ∈ modeEligible m s, modeRequest m s = implicitCommit (pendMode m n s) := by
  have hf : modeFamily m s ≠ [] := fun e => he (by rw [modeEligible, e]; rfl)
  obtain ⟨n, hn⟩ := Option.ne_none_iff_exists'.mp (mt (chooseForMode_eq_none_iff m (modeEligible m s) s).mp he)
  exact ⟨n, mem_of_chooseForMode hn, by rw [modeRequest_judged ha hr, if_neg hf, hn]; rfl⟩

end

theorem pendMode_spec (m n : Nat) (hm : m < 8) (s : State) :
    get SYS_MODE.MODE (pendMode m n s) = m ∧ get SYS_MODE.SWAP_PENDING (pendMode m n s) = 1 ∧
      get SYS_MODE.ACTIVE (pendMode m n s) = get SYS_MODE.ACTIVE s := by
  refine ⟨?mode, get_set_same _ _ _, ?active⟩
  case mode => exact (get_set_ne _ _ _ _ (by decide)).trans ((get_set_same _ _ _).trans (Nat.mod_eq_of_lt hm))
  case active =>
    exact ((get_set_ne _ _ _ _ (by decide)).trans (get_set_ne _ _ _ _ (by decide))).trans
      (pendSwap_keepsFields n s SYS_MODE.ACTIVE (by decide))

/-- An accepted request is pending, with the swap that serves it; the mode in effect and the active plan stay. -/
theorem implicitCommit_pendMode (m n : Nat) (hm : m < 8) (s : State) :
    let t := implicitCommit (pendMode m n s)
    get SYS_MODE.MODE t = m ∧ get SYS_MODE.SWAP_PENDING t = 1 ∧ t.plan.modeChange = some m ∧ t.plan.swap = some (n, s.now) ∧
      get SYS_MODE.ACTIVE t = get SYS_MODE.ACTIVE s ∧ t.plan.active = s.plan.active ∧ t.mem = s.mem := by
  obtain ⟨fields, plan, mem⟩ := implicitCommit_leavesMode (pendMode m n s)
  obtain ⟨mode, pending, active⟩ := pendMode_spec m n hm s
  exact ⟨(fields _ (by decide)).trans mode, (fields _ (by decide)).trans pending, by rw [plan]; rfl, by rw [plan]; rfl,
    (fields _ (by decide)).trans active, by rw [plan]; rfl, mem⟩

/-- Settles O19: the write is judged in the order of `modeRequest_eq`; a swap of R9 exists exactly where a valid plan of the mode does. -/
theorem modeRequestsAreJudged : Obligations.ModeRequestsAreJudged := by
  unfold Obligations.ModeRequestsAreJudged
  intro s m
  refine ⟨fun same => ⟨⟨s, ?_, rfl⟩, ?_⟩, fun other abort => ?_, fun other abort => ⟨fun h1 h2 => ?_, fun rung noPlan => ?_,
    fun rung ⟨n, hn, plan⟩ invalid => ?_, fun rung ⟨n, hn, holds, mode, valid⟩ => ?_⟩⟩
  · rw [exec_modeChangeRequest, modeWrite_mode, if_pos same]
  · exact ⟨_, by rw [exec_modeChangeRequest, modeWrite_clear m s same], clearRefusal_spec s⟩
  · exact ⟨_, by rw [exec_modeChangeRequest_ne m s other, modeRequest_in_abort abort], refuseMode_spec 4 (by decide) s⟩
  · exact ⟨_, by rw [exec_modeChangeRequest_ne m s other, modeRequest_outside_idle_poised abort h1 h2], refuseMode_spec 1 (by decide) s⟩
  · have family : modeFamily m s = [] := List.eq_nil_iff_forall_not_mem.mpr fun k hk =>
      have ⟨hk8, holds, mode⟩ := mem_modeFamily.mp hk
      noPlan k hk8 holds mode
    exact ⟨_, by rw [exec_modeChangeRequest_ne m s other, modeRequest_without_plan abort rung family], refuseMode_spec 2 (by decide) s⟩
  · have family : modeFamily m s ≠ [] := List.ne_nil_of_mem (mem_modeFamily.mpr ⟨hn, plan⟩)
    have eligible : modeEligible m s = [] := List.eq_nil_iff_forall_not_mem.mpr fun k hk => by
      obtain ⟨⟨hk8, holds, mode⟩, valid⟩ := mem_modeEligible.mp hk
      simp [invalid k hk8 holds mode] at valid
    exact ⟨_, by rw [exec_modeChangeRequest_ne m s other, modeRequest_without_valid_plan abort rung family eligible],
      refuseMode_spec 3 (by decide) s⟩
  · obtain ⟨k, hk, e⟩ := modeRequest_accepted abort rung (List.ne_nil_of_mem (mem_modeEligible.mpr ⟨⟨hn, holds, mode⟩, valid⟩))
    obtain ⟨⟨hk8, -, kMode⟩, kValid⟩ := mem_modeEligible.mp hk
    obtain ⟨newMode, pending, change, swap, kept⟩ := implicitCommit_pendMode m k m.isLt s
    exact ⟨_, k, by rw [exec_modeChangeRequest_ne m s other, e], newMode, pending, change, swap, hk8, kMode, kValid, kept⟩

end Sys2Proof.Machine
end

section
/-! PROOFS of the family 05_records: the engine's runs, releases and pops (O33), how records end, are numbered and commit (O34), and how
commits and arms take settings (O35). -/

namespace Sys2Proof.Machine

/-! ## Streams

What replaces streams leaves the rest of the state. -/

theorem foldl_setStream {α : Type} (l : List α) (i : α → Nat) (f : α → Stream → Stream) (s : State) :
    ∃ streams, l.foldl (fun s x => setStream (i x) (f x) s) s = { s with record.streams := streams } := by
  induction l generalizing s with
  | nil => exact ⟨s.record.streams, rfl⟩
  | cons x l ih =>
    obtain ⟨streams, e⟩ := ih (setStream (i x) (f x) s)
    exact ⟨streams, e⟩

theorem armStreams_eq (pos : Nat) (a : Int) (s : State) : ∃ streams, armStreams pos a s = { s with record.streams := streams } :=
  foldl_setStream _ _ _ s

theorem streamsStart_eq (b : Int) (s : State) :
    streamsStart b s = { s with record.startBeat := b, record.streams := (streamsStart b s).record.streams } := by
  obtain ⟨streams, e⟩ : ∃ streams, streamsStart b s = { s with record.startBeat := b, record.streams := streams } := foldl_setStream ..
  rw [e]

/-- Dropping the armed record changes the records and the streams (R216, R217). -/
theorem dropArmed_eq {r : Rec} {s : State} (h : armed s = some r) :
    ∃ streams, dropArmed s = { s with record.recs := s.record.recs.filter (fun x => x.id != r.id), record.streams := streams } := by
  unfold dropArmed
  rw [show s.record.recs.find? _ = some r from h]
  exact ⟨_, rfl⟩

theorem dropArmed_of_none {s : State} (h : armed s = none) : dropArmed s = s := by
  unfold dropArmed
  rw [show s.record.recs.find? _ = none from h]

/-! ## A generation comes into force (R212) -/

/-- The newest generation is in force, and its settings with it; beside them trigger units and decoders may begin anew. -/
theorem applyGen_eq (s : State) : ∃ units decs, applyGen s =
    { s with applied := s.committed, record.appliedGen := get REC_GEN.GEN s, trg.units := units, trg.decs := decs } := by
  unfold applyGen
  split
  next h =>
    obtain ⟨gen, settings⟩ := h
    exact ⟨s.trg.units, s.trg.decs, congr (congrArg (fun a g => { s with applied := a, record.appliedGen := g }) settings) gen⟩
  next => exact ⟨_, _, rfl⟩

theorem noteArm_eq (s : State) : noteArm s =
    { s with regs := (noteArm s).regs, record.appliedId := s.record.nextId + 1, ave.phaseRecs := s.ave.phaseRecs + 1 } := rfl

theorem noteArm_keepsFields (s : State) : keepsFields [REC_GEN.APPLIED, AVE_ET_STAT.CUR, AVE_ET_STAT.COUNT] s (noteArm s) := by
  intro F hF
  unfold noteArm countPhase
  rw [get_set_ne F _ _ _ (hF _ (by simp)), get_set_ne F _ _ _ (hF _ (by simp))]
  exact get_set_ne F _ _ _ (hF _ (by simp))

theorem get_noteArm_applied (s : State) : get REC_GEN.APPLIED (noteArm s) = get REC_GEN.GEN s % 2 ^ 16 := by
  unfold noteArm countPhase
  rw [get_set_ne _ _ _ _ (by decide), get_set_ne _ _ _ _ (by decide)]
  exact get_set_same _ _ _

/-! ## Holds (R194) -/

/-- A MARGIN_STOP holds every arm. -/
theorem heldFor_of_marginStop {u : Nat} {s : State} (h : get SQ_PLAN_STAT.MARGIN_STOP s = 1) : 8 ≤ heldFor u s := by
  simp [heldFor, heldWith, on, h, b2n]

/-- An engine that does not run is held. -/
theorem running_of_heldFor_eq_zero {u : Nat} {s : State} (h : heldFor u s = 0) : s.record.running = true := by
  simp only [heldFor, heldWith] at h
  cases hr : s.record.running
  · simp [hr, b2n] at h
  · rfl

/-! ## Arms in SLOT placement (R191, R192) -/

/-- The state in which a record arms: the newest generation in force, the arm noted in REC_GEN.APPLIED and the phase statistics (R212, R220). -/
def armingState (s : State) : State := noteArm (applyGen s)

theorem armingState_eq (s : State) : ∃ regs units decs, armingState s =
    { s with regs := regs, applied := s.committed, ave.phaseRecs := s.ave.phaseRecs + 1, trg.units := units, trg.decs := decs,
             record.appliedGen := get REC_GEN.GEN s, record.appliedId := s.record.nextId + 1 } := by
  obtain ⟨units, decs, e⟩ := applyGen_eq s
  rw [armingState, noteArm_eq, e]
  exact ⟨_, units, decs, rfl⟩

theorem armingState_keepsFields (s : State) :
    keepsFields [REC_GEN.APPLIED, AVE_ET_STAT.CUR, AVE_ET_STAT.COUNT] s (armingState s) := by
  obtain ⟨units, decs, e⟩ := applyGen_eq s
  exact fun F hF => (noteArm_keepsFields (applyGen s) F hF).trans (by rw [e]; rfl)

/-- The record that an arm adds. -/
def armRec (s : State) : Rec :=
  let t := armingState s
  { newRec 0 0 0 false (beatAfter t.now) (beatAfter t.now) (beatAfter t.now) 0 (nextSlotPos t) t with phase := .armed }

/-- The record of an arm joins the open ones, and the streams take up its ring slot. -/
def armedState (s : State) : State :=
  addRec (armRec s) (armStreams (nextSlotPos (armingState s)) (beatAfter (armingState s).now) (armingState s))

/-- REC_COUNT.RECYCLED counts an arm into a ring slot that was not released (R197). -/
def countRecycled (s : State) : State := if slotTaken (armingState s) then bump REC_COUNT.RECYCLED (armedState s) else armedState s

theorem armSlot_eq (s : State) : armSlot s =
    { countRecycled s with
      record.slots := (countRecycled s).record.slots.filter (fun x => x.pos != nextSlotPos (armingState s)), record.dead := false } := rfl

theorem countRecycled_eq (s : State) : countRecycled s = { armedState s with regs := (countRecycled s).regs } := by
  unfold countRecycled
  split
  · rfl
  · rfl

theorem armedState_eq (s : State) : ∃ streams, armedState s =
    { armingState s with record.recs := (armingState s).record.recs ++ [armRec s], record.nextId := (armingState s).record.nextId + 1,
                         record.streams := streams } := by
  obtain ⟨streams, e⟩ := armStreams_eq (nextSlotPos (armingState s)) (beatAfter (armingState s).now) (armingState s)
  exact ⟨streams, congrArg (addRec (armRec s)) e⟩

section
variable (s : State)

theorem armRec_id : (armRec s).id = s.record.nextId := by
  obtain ⟨regs, units, decs, e⟩ := armingState_eq s
  show (armingState s).record.nextId = _
  rw [e]

/-- The record takes the numbers of the newest generation and its epoch. -/
theorem armRec_gen : (armRec s).gen.gen = get REC_GEN.GEN s ∧ (armRec s).gen.epoch = get REC_EPOCH.EPOCH s :=
  ⟨armingState_keepsFields s _ (by decide), armingState_keepsFields s _ (by decide)⟩

/-- The record takes the committed settings. -/
theorem armRec_settings : (armRec s).gen.length = com REC_LEN.LENGTH s ∧ (armRec s).gen.pre = com REC_PRE.PRE s ∧
    (armRec s).gen.streams = com REC_CFG.STREAMS s := by
  obtain ⟨regs, units, decs, e⟩ := armingState_eq s
  have taken (F : Fld) : app F (armingState s) = com F s := by rw [e]; rfl
  exact ⟨taken _, taken _, taken _⟩

/-- The record takes the ring slot that is next. -/
theorem armRec_pos : (armRec s).pos = s.record.nextPos % Nat.max 1 (com REC_RING_LEN.LEN s) := by
  obtain ⟨regs, units, decs, e⟩ := armingState_eq s
  show nextSlotPos (armingState s) = _
  rw [e]
  rfl

theorem armRec_armBeat : (armRec s).armBeat = beatAfter s.now := by
  obtain ⟨regs, units, decs, e⟩ := armingState_eq s
  show beatAfter (armingState s).now = _
  rw [e]

/-- An arm adds its record to the open ones. -/
theorem armSlot_recs : (armSlot s).record.recs = s.record.recs ++ [armRec s] := by
  obtain ⟨streams, e⟩ := armedState_eq s
  obtain ⟨regs, units, decs, g⟩ := armingState_eq s
  rw [armSlot_eq, countRecycled_eq, e, g]

/-- An arm takes the newest settings into force, and leaves the committed ones and memory. -/
theorem armSlot_settings : (armSlot s).applied = s.committed ∧ (armSlot s).committed = s.committed ∧ (armSlot s).mem = s.mem := by
  obtain ⟨streams, e⟩ := armedState_eq s
  obtain ⟨regs, units, decs, g⟩ := armingState_eq s
  rw [armSlot_eq, countRecycled_eq, e, g]
  exact ⟨rfl, rfl, rfl⟩

theorem get_armSlot (F : Fld) (hF : F.key ≠ REC_COUNT.RECYCLED.key) : get F (armSlot s) = get F (armingState s) := by
  obtain ⟨streams, e⟩ := armedState_eq s
  have counted : get F (countRecycled s) = get F (armedState s) := by
    unfold countRecycled
    split
    · exact get_bump_ne F _ _ hF
    · rfl
  exact counted.trans (by rw [e]; rfl)

theorem get_applied_armSlot : get REC_GEN.APPLIED (armSlot s) = get REC_GEN.GEN s % 2 ^ 16 := by
  obtain ⟨units, decs, e⟩ := applyGen_eq s
  rw [get_armSlot s _ (by decide), armingState, get_noteArm_applied, e]
  rfl

end

/-- An arm in SLOT placement is due, nothing holds it, and no change of the phase delays it (R191, R192, R194, R121). -/
structure ReadyToArm (s : State) : Prop where
  place : s.record.place = 0
  placeKept : com REC_CFG.PLACE s = 0
  armDue : s.record.armDue ≤ s.now
  started : s.record.startDue.getD 0 ≤ s.now
  noRecord : s.record.recs = []
  notHeld : heldFor 4 s = 0
  awake : awake s = true
  mode : mode s = 0
  notAdvancing : etDue s = false
  phaseKept : com AVE_ET_CTRL.PHASE s = s.ave.phaseBase
  settled : s.ave.settling ≤ s.now

theorem recordArm_of_ready {s : State} (h : ReadyToArm s) : recordArm s = armSlot s := by
  have running := running_of_heldFor_eq_zero h.notHeld
  have idle : sampling s = false := by simp [sampling, h.noRecord]
  have placeStays : placeChanges s = false := by simp [placeChanges, h.place, h.placeKept]
  have segments : segClosed 4 s = false := by simp [segClosed, h.mode]
  have phaseStays : newPhase s = s := if_pos h.phaseKept
  have armDue := Nat.not_lt.mpr h.armDue
  have started := Nat.not_lt.mpr h.started
  have settled := Nat.not_lt.mpr h.settled
  simp [recordArm, running, idle, placeStays, segments, phaseStays, h.place, armDue, started, settled, h.notHeld, h.awake, h.mode,
    h.notAdvancing]

/-- A hold beside that of a full ring lets nothing arm. -/
theorem recordArm_of_held {s : State} (h : 8 ≤ heldFor 4 s) : recordArm s = s := by
  unfold recordArm
  split
  next => rfl
  next =>
    split
    next => exact if_pos (by omega)
    next => exact if_pos (.inr (.inr (.inl (by omega))))

/-! ## Commits (R211, R213, R214) -/

/-- The status fields that a commit's judgement writes, and those that its faults write. -/
def judgedFields : List Fld :=
  [LOG_ESEQ.NEXT, LOG_STAT.LOST] ++ (List.range 4).flatMap (fun n =>
    [TRG_STAT.CFG_ERR n, TRG_STAT.NO_SRC n, DEC_STAT.CFG_ERR n, RED_AU_STAT.NREC n, RED_AU_STAT.ACTIVE n, RED_AU_STAT.PLAN_SHORT n])

theorem mem_judgedFields {n : Nat} {F : Fld} (hn : n ∈ List.range 4)
    (hF : F ∈ [TRG_STAT.CFG_ERR n, TRG_STAT.NO_SRC n, DEC_STAT.CFG_ERR n, RED_AU_STAT.NREC n, RED_AU_STAT.ACTIVE n, RED_AU_STAT.PLAN_SHORT n]) :
    F ∈ judgedFields :=
  List.mem_append_right _ (List.mem_flatMap.mpr ⟨n, hn, hF⟩)

/-- `t` differs from `s` by a judgement: the judged fields apart, fields and settings are as they were. -/
structure Judged (s t : State) : Prop where
  fields : keepsFields judgedFields s t
  committed : t.committed = s.committed
  applied : t.applied = s.applied

theorem Judged.refl (s : State) : Judged s s := ⟨fun _ _ => rfl, rfl, rfl⟩

theorem Judged.set {s t : State} (h : Judged s t) {G : Fld} (hG : G ∈ judgedFields) (v : Nat) : Judged s (set G v t) :=
  ⟨fun F hF => (get_set_ne F G v t (hF G hG)).trans (h.fields F hF), h.committed, h.applied⟩

theorem Judged.trg {s t : State} (h : Judged s t) (x : TrgState) : Judged s { t with trg := x } := ⟨h.fields, h.committed, h.applied⟩

theorem Judged.red {s t : State} (h : Judged s t) (x : RedState) : Judged s { t with red := x } := ⟨h.fields, h.committed, h.applied⟩

theorem Judged.line {s t : State} (h : Judged s t) (x : LineSideState) : Judged s { t with line := x } := ⟨h.fields, h.committed, h.applied⟩

theorem Judged.fault {s t : State} (h : Judged s t) (code unit d0 d1 : Nat) : Judged s (fault code unit d0 d1 t) := by
  refine ⟨fun F hF => ?_, (fault_committed ..).trans h.committed, (fault_applied ..).trans h.applied⟩
  exact (get_fault F code unit d0 d1 t (hF _ (by simp [judgedFields])) (hF _ (by simp [judgedFields]))).trans (h.fields F hF)

theorem Judged.faultIf {s t : State} (h : Judged s t) (b : Bool) (code unit d0 d1 : Nat) :
    Judged s (if b then Machine.fault code unit d0 d1 t else t) := by
  split
  · exact h.fault ..
  · exact h

theorem Judged.judgeFlag {s t : State} (h : Judged s t) (commit was bad log : Bool) (unit : Nat) :
    Judged s (judgeFlag commit was bad log unit t) := h.faultIf ..

theorem judgeTrigger_judged (commit : Bool) (s : State) : Judged s (judgeTrigger commit s) := by
  unfold judgeTrigger
  refine List.foldlRecOn _ _ (List.foldlRecOn _ _ (Judged.refl s) fun t h n hn => ?units) fun t h n hn => ?decoders
  case units =>
    have noSrc := mem_judgedFields (F := TRG_STAT.NO_SRC n) hn (by simp)
    have cfgErr := mem_judgedFields (F := TRG_STAT.CFG_ERR n) hn (by simp)
    exact (((h.judgeFlag ..).judgeFlag ..).set noSrc _).set cfgErr _
  case decoders =>
    have cfgErr := mem_judgedFields (F := DEC_STAT.CFG_ERR n) hn (by simp)
    exact (((h.judgeFlag ..).judgeFlag ..).trg _).set cfgErr _

theorem Judged.auStat {s t : State} (h : Judged s t) {n : Nat} (hn : n ∈ List.range 4) : Judged s (auStat n t) := by
  have short := mem_judgedFields (F := RED_AU_STAT.PLAN_SHORT n) hn (by simp)
  have active := mem_judgedFields (F := RED_AU_STAT.ACTIVE n) hn (by simp)
  have nrec := mem_judgedFields (F := RED_AU_STAT.NREC n) hn (by simp)
  exact ((h.set short _).set active _).set nrec _

theorem Judged.auCheck {s t : State} (h : Judged s t) (m : List (Nat × Nat)) : Judged s (auCheck m t) := by
  unfold Machine.auCheck
  exact List.foldlRecOn _ _ h fun t h n hn => ((h.faultIf ..).red _).auStat hn

theorem afterCommit_judged (s : State) : Judged s (afterCommit s) := by
  have units := (judgeTrigger_judged true s).auCheck (judgeTrigger true s).committed
  have passes : Judged s (perCheck _) := (units.faultIf ..).red _
  exact (passes.red _).line _

theorem startLedger_keepsFields (s : State) : keepsFields [SYS_LEDGER.WRITING] s (startLedger s) := by
  intro F hF
  unfold startLedger
  split
  · rfl
  · exact get_set_ne F _ _ _ (hF _ (by simp))

theorem startLedger_settings (s : State) : (startLedger s).committed = s.committed ∧ (startLedger s).applied = s.applied := by
  unfold startLedger
  split
  · exact ⟨rfl, rfl⟩
  · exact ⟨rfl, rfl⟩

/-- Without CARRY all staging copies are committed, and GEN and EPOCH advance. -/
theorem takeStaging_spec (s : State) : (takeStaging false s).committed = keptPart s.regs ∧ (takeStaging false s).applied = s.applied ∧
    (takeStaging false s).mem = s.mem ∧ get REC_GEN.GEN (takeStaging false s) = (get REC_GEN.GEN s + 1) % 2 ^ 16 ∧
    get REC_EPOCH.EPOCH (takeStaging false s) = (get REC_EPOCH.EPOCH s + 1) % 2 ^ 16 := by
  refine ⟨rfl, rfl, rfl, ?gen, ?epoch⟩
  case gen => exact (get_count_ne _ _ _ (by decide)).trans (get_count_same _ _)
  case epoch =>
    refine (get_count_same _ _).trans ?_
    rw [get_count_ne _ _ _ (by decide)]
    rfl

/-- What a valid commit leaves after it took the staging copies: settings, memory and the numbers of the generation. -/
theorem closeCommit_spec (s : State) : (startLedger (afterCommit s)).committed = s.committed ∧
    (startLedger (afterCommit s)).applied = s.applied ∧ (startLedger (afterCommit s)).mem = s.mem ∧
    get REC_GEN.GEN (startLedger (afterCommit s)) = get REC_GEN.GEN s ∧
    get REC_EPOCH.EPOCH (startLedger (afterCommit s)) = get REC_EPOCH.EPOCH s := by
  obtain ⟨fields, committed, applied⟩ := afterCommit_judged s
  obtain ⟨ledgerCommitted, ledgerApplied⟩ := startLedger_settings (afterCommit s)
  have ledgerFields := startLedger_keepsFields (afterCommit s)
  obtain ⟨-, -, mem⟩ := (afterCommit_leavesMode s).trans (startLedger_leavesMode (afterCommit s))
  exact ⟨ledgerCommitted.trans committed, ledgerApplied.trans applied, mem,
    (ledgerFields _ (by decide)).trans (fields _ (by decide)), (ledgerFields _ (by decide)).trans (fields _ (by decide))⟩

theorem holdEntry_log (e : LogEntry) (s : State) : (holdEntry e s).log =
    if s.log.hold.length < 16 then { s.log with hold := insertEntry { e with eseq := get LOG_ESEQ.NEXT s, time := tick s } s.log.hold }
    else s.log := apply_ite State.log ..

/-- The log after a fault depends on no field but the next ESEQ. -/
theorem fault_log_set {F : Fld} (hF : LOG_ESEQ.NEXT.key ≠ F.key) (v code unit d0 d1 : Nat) (s : State) :
    (fault code unit d0 d1 (set F v s)).log = (fault code unit d0 d1 s).log := by
  have held (e : LogEntry) : (holdEntry e (set F v s)).log = (holdEntry e s).log := by
    rw [holdEntry_log, holdEntry_log, get_set_ne _ F v s hF]
    rfl
  by_cases ticking : s.tickOn = true
  · simp [fault, ticking, held]
  · simp [fault, ticking]

/-- A refused commit shows its cause, logs it, and leaves the settings, memory and the number of the generation (R214). -/
theorem refuseCommit_spec {cause : Nat} (hc : cause < 4) (s : State) :
    ((refuseCommit cause s).committed = s.committed ∧ (refuseCommit cause s).applied = s.applied ∧ (refuseCommit cause s).mem = s.mem) ∧
      (get REC_EPOCH.REFUSED (refuseCommit cause s) = 1 ∧ get REC_EPOCH.CAUSE (refuseCommit cause s) = cause ∧
        get REC_GEN.GEN (refuseCommit cause s) = get REC_GEN.GEN s) ∧ logs 0x0403 0 0 cause s (refuseCommit cause s) := by
  unfold refuseCommit
  refine ⟨⟨fault_committed .., fault_applied .., fault_mem ..⟩, ⟨?refused, ?cause, ?gen⟩, ?log⟩
  case refused =>
    rw [get_fault _ _ _ _ _ _ (by decide) (by decide), get_set_ne _ _ _ _ (by decide)]
    exact get_set_same _ _ _
  case cause =>
    rw [get_fault _ _ _ _ _ _ (by decide) (by decide), get_set_same]
    exact Nat.mod_eq_of_lt hc
  case gen =>
    rw [get_fault _ _ _ _ _ _ (by decide) (by decide), get_set_ne _ _ _ _ (by decide), get_set_ne _ _ _ _ (by decide)]
  case log => exact (fault_log_set (by decide) ..).trans (fault_log_set (by decide) ..)

theorem exec_commit (v : Nat) (s : State) : exec (.commit v) s = .next (commitCmd v s) := rfl

theorem exec_commit_plain (s : State) : exec (.commit 1) s = .next (writtenCommit false s) := by simp [exec_commit, commitCmd, bit]

theorem exec_commit_carry (s : State) : exec (.commit 3) s = .next (writtenCommit true s) := by simp [exec_commit, commitCmd, bit]

theorem writtenCommit_valid {s : State} (h : commitInvalid (keptPart s.regs) s = false) :
    writtenCommit false s = startLedger (afterCommit (takeStaging false s)) := by
  simp [writtenCommit, h]

/-- A commit whose settings fail a check is refused with cause 2; one that would start a stimulus against the kerb check logs it too. -/
theorem writtenCommit_invalid {s : State} (h : commitInvalid (keptPart s.regs) s = true) :
    writtenCommit false s = if stimInvalid (keptPart s.regs) (mode s) s then fault 0x0D04 0 0 2 (refuseCommit 2 s) else refuseCommit 2 s := by
  simp [writtenCommit, h]

theorem writtenCommit_carryBreaks {s : State} (h : carryBreaks s = true) : writtenCommit true s = refuseCommit 1 s := by
  simp [writtenCommit, h]

/-- Settles O35: a valid commit is `takeStaging` and a judgement that leaves settings and numbers, a refused one `refuseCommit`; an arm that is
due and not held is `armSlot`. -/
theorem commitsAndArmsTakeSettings : Obligations.CommitsAndArmsTakeSettings := by
  unfold Obligations.CommitsAndArmsTakeSettings
  refine ⟨fun s => ⟨fun valid => ?_, fun invalid => ?_, fun breaks => ?_⟩,
    fun s place armDue noRecord notHeld placeKept wake plain notAdvancing started phaseKept settled => ?_⟩
  · obtain ⟨committed, applied, mem, gen, epoch⟩ := closeCommit_spec (takeStaging false s)
    obtain ⟨staged, stagedApplied, stagedMem, stagedGen, stagedEpoch⟩ := takeStaging_spec s
    exact ⟨_, by rw [exec_commit_plain, writtenCommit_valid valid], committed.trans staged, gen.trans stagedGen, epoch.trans stagedEpoch,
      applied.trans stagedApplied, mem.trans stagedMem⟩
  · obtain ⟨⟨committed, applied, mem⟩, ⟨refused, cause, gen⟩, -⟩ := refuseCommit_spec (cause := 2) (by decide) s
    obtain ⟨fields, kerbCommitted, kerbApplied⟩ :=
      (Judged.refl (refuseCommit 2 s)).faultIf (stimInvalid (keptPart s.regs) (mode s) s) 0x0D04 0 0 2
    refine ⟨_, by rw [exec_commit_plain, writtenCommit_invalid invalid], kerbCommitted.trans committed, (fields _ (by decide)).trans refused,
      (fields _ (by decide)).trans cause, (fields _ (by decide)).trans gen, kerbApplied.trans applied, ?_⟩
    split
    · exact (fault_mem ..).trans mem
    · exact mem
  · obtain ⟨⟨committed, -, -⟩, ⟨refused, cause, gen⟩, logged⟩ := refuseCommit_spec (cause := 1) (by decide) s
    exact ⟨_, by rw [exec_commit_carry, writtenCommit_carryBreaks breaks], committed, refused, cause, gen, logged⟩
  · have ready : ReadyToArm s := ⟨place, placeKept, armDue, started, noRecord, notHeld, wake, plain, notAdvancing, phaseKept, settled⟩
    obtain ⟨gen, epoch⟩ := armRec_gen s
    obtain ⟨length, pre, streams⟩ := armRec_settings s
    obtain ⟨applied, committed, mem⟩ := armSlot_settings s
    have recs : (armSlot s).record.recs = [armRec s] := by rw [armSlot_recs, noRecord]; rfl
    exact ⟨_, armRec s, congrArg Host.Outcome.next (recordArm_of_ready ready), recs, rfl, gen, epoch, length, pre, streams, armRec_pos s,
      armRec_armBeat s, applied, get_applied_armSlot s, committed, mem⟩

/-! ## Records end and are numbered (R190, R195, R196) -/

theorem endsNow_iff (now : Nat) (r : Rec) :
    endsNow now r = true ↔ r.phase = .capturing ∧ r.ended = false ∧ endSlot r ≤ (now : Int) := by
  simp only [endsNow, Bool.and_eq_true, beq_iff_eq, Bool.not_eq_true', decide_eq_true_eq, and_assoc]

theorem mem_recordEnd {r : Rec} {s : State} (h : r ∈ s.record.recs) :
    (if endsNow s.now r then { r with ended := true, queued := r.confirmed } else r) ∈ (recordEnd s).record.recs :=
  List.mem_map_of_mem h

/-- A segment index changes the segment sequences alone in the state. -/
theorem takeSeg_state (r : Rec) (s : State) : (takeSeg r s).2 = { s with record.segs := (takeSeg r s).2.record.segs } := by
  unfold takeSeg
  split
  · rfl
  · rfl

theorem takeSeg_time (r : Rec) (s : State) : (takeSeg r s).1.time = r.time := by
  unfold takeSeg
  split
  · rfl
  · rfl

/-- A record as its numbering leaves it: the next sequence number, its segment index, and the flags of its window (R196, R198, R201). -/
def numberedRec (r : Rec) (s : State) : Rec :=
  let x := (takeSeg r (count REC_SEQ.NEXT s)).1
  { x with phase := .numbered, seq := get REC_SEQ.NEXT s, flags := x.flags ||| windowFlags x s,
           hdr := if isLate 0x0B 0 s then 0 else x.hdr, queued := x.queued && !(isLate 0x0B 0 s) }

section
variable {r : Rec} {s : State} (recs : s.record.recs = [r]) (measured : r.mu ≠ [])
include recs measured

theorem measureDue_single : measureDue s = s := by
  simp [measureDue, recs, measured]

theorem numberRec_single : numberRec r s =
    { count REC_SEQ.NEXT s with record.segs := (takeSeg r (count REC_SEQ.NEXT s)).2.record.segs, record.recs := [numberedRec r s] } := by
  have taken := takeSeg_state r (count REC_SEQ.NEXT s)
  simp only [numberRec, List.isEmpty_eq_false_iff.mpr measured, recs, Bool.false_eq_true, if_false, List.find?_cons, beq_self_eq_true,
    Option.getD_some]
  rw [taken]
  simp only [count_record, recs, List.map_cons, List.map_nil, beq_self_eq_true, if_true]
  rfl

/-- HEADER_READY with one record, measured before and ready now, numbers it. -/
theorem headerReady_single (wants : wantsNumber s.now r = true) : headerReady s = numberRec r s := by
  simp [headerReady, recs, wants, insertRec, measureDue_single recs measured]

end

/-! ## Commits of records (R195, R202) -/

/-- What takes a record at its commit before the engine lets it go: measurement statistics, persistence and accumulation change their own
state and register fields. -/
def reductionOnly (s t : State) : Prop := t = { s with regs := t.regs, red := t.red }

theorem reductionOnly.trans {s t u : State} (h : reductionOnly s t) (k : reductionOnly t u) : reductionOnly s u := by
  unfold reductionOnly at *
  rw [k, h]

theorem reductionOnly.setAu {s t : State} (h : reductionOnly s t) (n : Nat) (f : AuState → AuState) : reductionOnly s (setAu n f t) :=
  h.trans rfl

theorem perStep_reductionOnly (s : State) : reductionOnly s (perStep s) := by
  unfold perStep
  refine List.foldlRecOn _ _ rfl fun t h m _ => h.trans ?_
  dsimp only
  split
  · rfl
  · rfl

theorem perCommit_reductionOnly (r : Rec) (s : State) : reductionOnly s (perCommit r s) := by
  unfold perCommit
  split
  · rfl
  · split
    · rfl
    · refine reductionOnly.trans ?_ (perStep_reductionOnly _)
      rfl

theorem auCommit_reductionOnly (r : Rec) (s : State) : reductionOnly s (auCommit r s) := by
  unfold auCommit
  refine List.foldlRecOn _ _ rfl fun t h n _ => ?_
  split
  next => exact h
  next c _ =>
    have joined : reductionOnly s (if c.begun then
        setArrayAt n c.array (fun a => { a with flags := a.flags ||| (r.flags % 32), dirty := true }) t else t) := by
      split
      · exact h.setAu ..
      · exact h
    dsimp only
    split
    · exact joined.setAu ..
    · exact joined.setAu ..

/-- A record's takers leave everything outside the reduction stage but register fields. -/
theorem takers_reductionOnly (r : Rec) (s : State) : reductionOnly s (auCommit r (perCommit r (muCommit r s))) := by
  have statistics : reductionOnly s (muCommit r s) := rfl
  exact (statistics.trans (perCommit_reductionOnly r _)).trans (auCommit_reductionOnly r _)

theorem showOpening_eq (r : Rec) (s : State) : ∃ regs appliedId phaseRecs,
    showOpening r s = { s with regs := regs, record.appliedId := appliedId, ave.phaseRecs := phaseRecs } := by
  unfold showOpening
  split
  · exact ⟨_, _, _, rfl⟩
  · dsimp only
    split
    · split
      · exact ⟨_, _, _, rfl⟩
      · exact ⟨_, _, _, rfl⟩
    · split
      · exact ⟨_, _, _, rfl⟩
      · exact ⟨_, _, _, rfl⟩

theorem maybeStop_eq (s : State) : ∃ running stopping startDue dead, maybeStop s =
    { s with record.running := running, record.stopping := stopping, record.startDue := startDue, record.dead := dead } := by
  unfold maybeStop
  split
  · exact ⟨_, _, _, _, rfl⟩
  · exact ⟨_, _, _, _, rfl⟩

theorem raise_raises (src : Nat) (s : State) : raises src s (raise src s) := by
  intro none
  have allowed : raisedNow src s < (if src = 0x08 then 3 else 1) := by
    rw [none]
    split
    · decide
    · decide
  simp [raise, allowed]

/-- A commit that closes no segment sequence and finds no CORRUPT record takes the record off, queues its descriptor and raises REC_COMMIT. -/
theorem commitRec_spec {r : Rec} {s : State} (segment : r.segLast = false) (sound : bit r.flags 4 = false) :
    (commitRec r s).record.recs = s.record.recs.filter (fun x => x.id != r.id) ∧
      (commitRec r s).record.queue = s.record.queue ++ [descriptorOf r] ∧ raises 0x08 s (commitRec r s) ∧ (commitRec r s).mem = s.mem := by
  unfold commitRec
  simp only [commitSegment, segment, sound, Bool.false_and, Bool.false_eq_true, if_false]
  generalize gone : bump REC_COUNT.COMMITTED _ = u
  obtain ⟨regs, appliedId, phaseRecs, opened⟩ := showOpening_eq r (raise 0x08 u)
  obtain ⟨running, stopping, startDue, dead, stopped⟩ := maybeStop_eq (showOpening r (raise 0x08 u))
  have raised := raise_raises 0x08 u
  rw [stopped, opened]
  simp only [raise_record, raise_mem]
  subst gone
  exact ⟨rfl, rfl, raised, rfl⟩

/-- The takers of a record change nothing that its commit shows. -/
theorem commitOne_spec {r : Rec} {s : State} (segment : r.segLast = false) (sound : bit r.flags 4 = false) :
    (commitOne r s).record.recs = s.record.recs.filter (fun x => x.id != r.id) ∧
      (commitOne r s).record.queue = s.record.queue ++ [descriptorOf r] ∧ raises 0x08 s (commitOne r s) ∧ (commitOne r s).mem = s.mem := by
  obtain ⟨regs, red, taken⟩ : ∃ regs red, auCommit r (perCommit r (muCommit r s)) = { s with regs := regs, red := red } :=
    ⟨_, _, takers_reductionOnly r s⟩
  unfold commitOne
  rw [taken]
  exact commitRec_spec segment sound

/-- With one record, complete, RECORD_COMMIT commits it and then finds none. -/
theorem recordCommits_single {r : Rec} {s : State} (recs : s.record.recs = [r]) (numbered : r.phase = .numbered) (complete : r.complete = true)
    (segment : r.segLast = false) (sound : bit r.flags 4 = false) :
    (recordCommits 3 s).record.recs = [] ∧ (recordCommits 3 s).record.queue = s.record.queue ++ [descriptorOf r] ∧
      raises 0x08 s (recordCommits 3 s) ∧ (recordCommits 3 s).mem = s.mem := by
  obtain ⟨left, committed⟩ := commitOne_spec (s := s) segment sound
  have none_left : (commitOne r s).record.recs = [] := by simp [left, recs]
  have first : committable s = some r := by simp [committable, recs, numbered, lowest, complete]
  have second : committable (commitOne r s) = none := by simp [committable, none_left]
  have once : recordCommits 3 s = commitOne r s := by simp only [recordCommits, first, second]
  rw [once]
  exact ⟨none_left, committed⟩

theorem exec_recordEnd (s : State) : exec .recordEnd s = .next (recordEnd s) := rfl

theorem exec_headerReady (s : State) : exec .headerReady s = .next (headerReady s) := rfl

theorem exec_recordCommit (s : State) : exec .recordCommit s = .next (recordCommits 3 s) := rfl

/-- Settles O34: RECORD_END marks exactly the records of `endsNow_iff`, HEADER_READY numbers the record that wants it, and RECORD_COMMIT takes
the complete record off. -/
theorem recordsEndAreNumberedAndCommit : Obligations.RecordsEndAreNumberedAndCommit := by
  unfold Obligations.RecordsEndAreNumberedAndCommit
  refine fun s => ⟨fun r hr => ⟨_, exec_recordEnd s, fun capturing taking due => ?_, fun other => ?_, rfl⟩, fun r recs wants measured => ?_,
    fun r recs numbered complete segment sound => ⟨_, exec_recordCommit s, recordCommits_single recs numbered complete segment sound⟩⟩
  · have ends : endsNow s.now r = true := (endsNow_iff s.now r).mpr ⟨capturing, taking, due⟩
    have marked := mem_recordEnd hr
    rwa [if_pos ends] at marked
  · have stays : ¬ endsNow s.now r = true := fun ends => by
      obtain ⟨capturing, taking, due⟩ := (endsNow_iff s.now r).mp ends
      unfold endSlot at due
      rcases other with h | h | h
      · exact h capturing
      · simp [taking] at h
      · omega
    have kept := mem_recordEnd hr
    rwa [if_neg stays] at kept
  · have numbers := (headerReady_single recs measured wants).trans (numberRec_single recs measured)
    refine ⟨_, numberedRec r s, (exec_headerReady s).trans (congrArg _ numbers), rfl, rfl, rfl, takeSeg_time _ _, get_count_same _ _,
      fun F hF => get_count_ne F _ s (hF _ (by simp)), rfl⟩

/-! ## START and STOP (R188, R216, R260) -/

/-- The running engine before it enters its placement, with sequence numbers from 0. -/
def startedState (s : State) : State :=
  set REC_SEQ.NEXT 0 { s with record.running := true, record.stopping := false, record.segs := [], record.segsDone := [], record.dead := false }

theorem get_startedState {F : Fld} (hF : F.key ≠ REC_SEQ.NEXT.key) (s : State) : get F (startedState s) = get F s := get_set_ne F _ 0 _ hF

theorem get_next_startedState (s : State) : get REC_SEQ.NEXT (startedState s) = 0 := get_set_same REC_SEQ.NEXT 0 _

theorem engineStart_of_running {s : State} (running : s.record.running = true) : engineStart s = s := by
  simp [engineStart, running]

/-- Nothing holds a START back: streams may start where they would, and the Boulevard is there. -/
theorem engineStart_of_stopped {s : State} (stopped : s.record.running = false) (boulevard : blvHold s = false) (plain : mode s = 0)
    (streams : com REC_CFG.PLACE s = 0 ∨ awake s = true) : engineStart s = enterPlace (startedState s) := by
  have free : (blvHold s || ((com REC_CFG.PLACE s == 1 || mode s == 4) && !(awake s))) = false := by
    rcases streams with place | wake
    · simp [boulevard, plain, place]
    · simp [boulevard, wake]
  simp only [engineStart, stopped, free, Bool.false_eq_true, if_false]
  rfl

/-- SLOT placement is neither CONTINUOUS nor ROLL. -/
theorem not_streaming {s : State} (place : s.record.place = 0) (plain : mode s = 0) : ¬ (s.record.place = 1 ∨ mode s = 4) := by
  simp [place, plain]

theorem enterPlace_slot {s : State} (place : com REC_CFG.PLACE s = 0) (plain : mode s = 0) : enterPlace s =
    { s with record.place := 0, record.startDue := some s.now, record.armDue := Nat.max s.now s.record.armDue, record.nextPos := 0 } := by
  unfold enterPlace
  rw [place]
  exact if_neg (not_streaming (s := { s with record.place := 0 }) rfl plain)

/-- In CONTINUOUS placement the newest generation comes into force, and the streams start with the start or, with a ring in the Square, at a
period boundary. -/
theorem enterPlace_continuous {s : State} (place : com REC_CFG.PLACE s = 1) : (enterPlace s).record.running = s.record.running ∧
    (enterPlace s).record.place = 1 ∧ (enterPlace s).applied = s.committed ∧
    (enterPlace s).record.startDue = some (if startsInSquare s.committed then boundaryAfter s 2 else s.now) ∧
    (enterPlace s).record.recs = s.record.recs ∧ (enterPlace s).mem = s.mem := by
  unfold enterPlace
  rw [place]
  dsimp only
  rw [if_pos (.inl rfl), streamsStart_eq]
  obtain ⟨units, decs, e⟩ := applyGen_eq { s with record.place := 1 }
  rw [e]
  exact ⟨rfl, rfl, rfl, rfl, rfl, rfl⟩

theorem maybeStop_done {s : State} (running : s.record.running = true) (stopping : s.record.stopping = true) (done : s.record.recs = []) :
    maybeStop s = { s with record.running := false, record.stopping := false, record.startDue := none, record.dead := false } := by
  simp [maybeStop, running, stopping, done]

theorem maybeStop_open {s : State} (left : s.record.recs ≠ []) : maybeStop s = s := by
  simp [maybeStop, left]

/-- STOP in SLOT placement with no record armed waits for the open records alone. -/
theorem engineStop_slot {s : State} (running : s.record.running = true) (waits : s.record.startWaits = false) (place : s.record.place = 0)
    (plain : mode s = 0) (unarmed : armed s = none) : engineStop s = maybeStop { s with record.stopping := true } := by
  have kept : dropArmed { s with record.stopping := true } = { s with record.stopping := true } := dropArmed_of_none unarmed
  unfold engineStop
  rw [if_neg (by simp [running]), if_neg (by simp [waits]), kept]
  exact congrArg maybeStop (if_neg (not_streaming place plain))

/-! ## REARM (R217) -/

/-- The engine after REARM has dropped an armed record, with an arm due now. -/
def rearmingState (s : State) : State := { dropArmed s with record.dead := false, record.armDue := s.now }

theorem rearmingState_eq {r : Rec} {s : State} (h : armed s = some r) : ∃ streams, rearmingState s =
    { s with record.recs := s.record.recs.filter (fun x => x.id != r.id), record.streams := streams, record.dead := false,
             record.armDue := s.now } := by
  obtain ⟨streams, e⟩ := dropArmed_eq h
  exact ⟨streams, by rw [rearmingState, e]⟩

theorem engineRearm_slot {r : Rec} {s : State} (place : s.record.place = 0) (h : armed s = some r) :
    engineRearm s = recordArm (rearmingState s) := if_pos ⟨place, by rw [h]; rfl⟩

/-- REARM while a MARGIN_STOP lasts drops the record and arms none. -/
theorem engineRearm_held {r : Rec} {s : State} (place : s.record.place = 0) (h : armed s = some r) (stop : get SQ_PLAN_STAT.MARGIN_STOP s = 1) :
    engineRearm s = rearmingState s := by
  obtain ⟨streams, e⟩ := rearmingState_eq h
  have stopped : get SQ_PLAN_STAT.MARGIN_STOP (rearmingState s) = 1 := by rw [e]; exact stop
  rw [engineRearm_slot place h, recordArm_of_held (heldFor_of_marginStop stopped)]

/-! ## REC_RELEASE and POP (R197, R206) -/

/-- A committed ring slot after a release up to sequence number `v`. -/
def releasedSlot (v : Nat) (x : RingSlot) : RingSlot := if (v % 2 ^ 32 + 2 ^ 32 - x.seq) % 2 ^ 32 < 2 ^ 31 then { x with released := true } else x

theorem release_eq (v : Nat) (s : State) :
    release v s = { set REC_RELEASE.SEQ v s with record.slots := s.record.slots.map (releasedSlot v) } := rfl

theorem mem_release {v : Nat} {x : RingSlot} {s : State} (h : x ∈ s.record.slots) : releasedSlot v x ∈ (release v s).record.slots := by
  rw [release_eq]
  exact List.mem_map_of_mem h

/-- REC_CQ_OUT with four words written. -/
def cqOut (a b c d : Nat) (s : State) : State :=
  set (REC_CQ_OUT.WORD 0) a (set (REC_CQ_OUT.WORD 1) b (set (REC_CQ_OUT.WORD 2) c (set (REC_CQ_OUT.WORD 3) d s)))

theorem get_cqOut (a b c d : Nat) (s : State) : get (REC_CQ_OUT.WORD 0) (cqOut a b c d s) = a % 2 ^ 32 ∧
    get (REC_CQ_OUT.WORD 1) (cqOut a b c d s) = b % 2 ^ 32 ∧ get (REC_CQ_OUT.WORD 2) (cqOut a b c d s) = c % 2 ^ 32 ∧
    get (REC_CQ_OUT.WORD 3) (cqOut a b c d s) = d % 2 ^ 32 := by
  unfold cqOut
  refine ⟨get_set_same _ _ _, ?_, ?_, ?_⟩
  · rw [get_set_ne _ _ _ _ (by decide), get_set_same]
  · rw [get_set_ne _ _ _ _ (by decide), get_set_ne _ _ _ _ (by decide), get_set_same]
  · rw [get_set_ne _ _ _ _ (by decide), get_set_ne _ _ _ _ (by decide), get_set_ne _ _ _ _ (by decide), get_set_same]

theorem cqPop_cons {a b c d : Nat} {rest : List (List Nat)} {s : State} (queue : s.record.queue = [a, b, c, d] :: rest) :
    cqPop s = cqOut a b c d { s with record.queue := rest } := by
  simp only [cqPop, queue]
  rfl

theorem cqPop_nil {s : State} (queue : s.record.queue = []) : cqPop s = cqOut 0 0 0 0 s := by
  simp only [cqPop, queue]
  rfl

theorem exec_start {s : State} (net : com ERL_NET.ARM_EN s = 0) : exec .start s = .next (engineStart s) := by
  show Host.Outcome.next (localStart s) = _
  simp [localStart, net]

theorem exec_stop {s : State} (net : com ERL_NET.ARM_EN s = 0) : exec .stop s = .next (engineStop s) := by
  show Host.Outcome.next (localStop s) = _
  simp [localStop, net]

theorem exec_rearm (s : State) : exec .rearm s = .next (engineRearm s) := rfl

theorem exec_recRelease (v : Nat) (s : State) : exec (.recRelease v) s = .next (release v s) := rfl

theorem exec_pop (s : State) : exec .pop s = .next (cqPop s) := rfl

/-- Settles O33: each command is its engine function, by the case of its state. -/
theorem engineRunsReleasesAndPops : Obligations.EngineRunsReleasesAndPops := by
  unfold Obligations.EngineRunsReleasesAndPops
  refine ⟨fun s net plain => ⟨fun stopped boulevard => ⟨fun place => ?_, fun place wake => ?_⟩, fun running => ?_,
    fun running waits place done => ?_, fun r running waits place recs taken => ?_, fun r place held stop => ?_,
    fun r place recs isArmed notHeld wake started placeKept notAdvancing phaseKept settled => ?_⟩,
    fun s => ⟨fun v hv => ?_, fun a b c d rest queue => ?_, fun queue => ?_⟩⟩
  · have enters := (engineStart_of_stopped stopped boulevard plain (.inl place)).trans
      (enterPlace_slot place ((get_startedState (by decide) s).trans plain))
    exact ⟨_, (exec_start net).trans (congrArg _ enters), rfl, rfl, rfl, rfl, rfl, get_next_startedState s, rfl⟩
  · obtain ⟨running, placed, applied, due, recs, mem⟩ := enterPlace_continuous (s := startedState s) place
    exact ⟨_, (exec_start net).trans (congrArg _ (engineStart_of_stopped stopped boulevard plain (.inr wake))), running, placed, applied, due,
      recs, mem⟩
  · exact ⟨s, (exec_start net).trans (congrArg _ (engineStart_of_running running)), rfl⟩
  · have unarmed : armed s = none := by simp [armed, done]
    have stops := (engineStop_slot running waits place plain unarmed).trans (maybeStop_done running rfl done)
    exact ⟨_, (exec_stop net).trans (congrArg _ stops), rfl, rfl, rfl, rfl⟩
  · have unarmed : armed s = none := by simp [armed, recs, taken]
    have left : s.record.recs ≠ [] := by simp [recs]
    have waits := (engineStop_slot running waits place plain unarmed).trans (maybeStop_open (s := { s with record.stopping := true }) left)
    exact ⟨_, (exec_stop net).trans (congrArg _ waits), running, rfl, recs, rfl⟩
  · obtain ⟨streams, e⟩ := rearmingState_eq held
    exact ⟨_, (exec_rearm s).trans (congrArg _ ((engineRearm_held place held stop).trans e)), rfl, rfl⟩
  · have held : armed s = some r := by simp [armed, recs, isArmed]
    have dropped : s.record.recs.filter (fun x => x.id != r.id) = [] := by simp [recs]
    obtain ⟨streams, e⟩ := rearmingState_eq held
    rw [dropped] at e
    have ready : ReadyToArm (rearmingState s) := by
      rw [e]
      exact ⟨place, placeKept, Nat.le_refl _, started, rfl, notHeld, wake, plain, notAdvancing, phaseKept, settled⟩
    have arms := (engineRearm_slot place held).trans (recordArm_of_ready ready)
    obtain ⟨-, -, mem⟩ := armSlot_settings (rearmingState s)
    refine ⟨_, armRec (rearmingState s), (exec_rearm s).trans (congrArg _ arms), ?_, rfl, (armRec_id _).trans ?_, (armRec_armBeat _).trans ?_,
      mem.trans ?_⟩
    · rw [armSlot_recs, e]
      rfl
    · rw [e]
    · rw [e]
    · rw [e]
  · have width : v % 2 ^ 32 = v := Nat.mod_eq_of_lt hv
    refine ⟨_, exec_recRelease v s, (get_set_same _ _ s).trans width, fun x hx => ?_, List.length_map .., fun F hF => ?_, rfl⟩
    · have kept := mem_release (v := v) hx
      rw [releasedSlot, width] at kept
      split
      next released => rwa [if_pos released] at kept
      next stays => rwa [if_neg stays] at kept
    · exact get_set_ne F _ v s (hF _ (by simp))
  · obtain ⟨w0, w1, w2, w3⟩ := get_cqOut a b c d { s with record.queue := rest }
    exact ⟨_, (exec_pop s).trans (congrArg _ (cqPop_cons queue)), rfl, w0, w1, w2, w3, rfl⟩
  · obtain ⟨w0, w1, w2, w3⟩ := get_cqOut 0 0 0 0 s
    refine ⟨_, (exec_pop s).trans (congrArg _ (cqPop_nil queue)), fun i hi => ?_, rfl⟩
    match i, hi with
    | 0, _ => exact w0
    | 1, _ => exact w1
    | 2, _ => exact w2
    | 3, _ => exact w3

end Sys2Proof.Machine
end

section
/-! PROOFS of the family 06_reduction: what RESTART, the delivery of reduction values, a persistence pass and TAKE do (O36). -/

namespace Sys2Proof.Machine

/-! ## Entries of a list by place -/

theorem modifyNth_eq_modify {α : Type} (f : α → α) (i : Nat) (l : List α) : modifyNth f i l = l.modify i f := by
  induction l generalizing i with
  | nil => rw [modifyNth, List.modify_nil]
  | cons x l ih =>
    cases i with
    | zero => rfl
    | succ i => simp [modifyNth, ih]

theorem nth_modifyNth_same {α : Type} (f : α → α) {i : Nat} {l : List α} (d : α) (h : i < l.length) :
    nth (modifyNth f i l) i d = f (nth l i d) := by
  simp [nth, modifyNth_eq_modify, h]

theorem nth_modifyNth_ne {α : Type} (f : α → α) {i k : Nat} (l : List α) (d : α) (h : k ≠ i) :
    nth (modifyNth f i l) k d = nth l k d := by
  simp [nth, modifyNth_eq_modify, h.symm]

theorem nth_map {α β : Type} (f : α → β) (i : Nat) (l : List α) (d : α) : nth (l.map f) i (f d) = f (nth l i d) := by
  simp only [nth, List.getD_eq_getElem?_getD, List.getElem?_map, Option.getD_map]

/-- What a change of an entry keeps of it, every entry keeps. -/
theorem map_modifyNth {α β : Type} (g : α → β) {f : α → α} (h : ∀ x, g (f x) = g x) (i : Nat) (l : List α) :
    (modifyNth f i l).map g = l.map g := by
  induction l generalizing i with
  | nil => rw [modifyNth]
  | cons x l ih =>
    cases i with
    | zero => simp [modifyNth, h]
    | succ i => simp [modifyNth, ih]

/-! ## RESTART (R233) -/

theorem auOf_setAu_same {n : Nat} (f : AuState → AuState) {s : State} (h : n < s.red.aus.length) : auOf n (setAu n f s) = f (auOf n s) :=
  nth_modifyNth_same f _ h

theorem auOf_setAu_ne {n k : Nat} (f : AuState → AuState) (s : State) (h : k ≠ n) : auOf k (setAu n f s) = auOf k s :=
  nth_modifyNth_ne f _ _ h

theorem exec_restart (n : Nat) (s : State) : exec (.restart n) s = .next (setAu n (fun u => { u with restartAsked := true }) s) := rfl

/-! ## Steps of a fold

What every step of a fold keeps of the state, the fold keeps. -/

theorem foldl_keeps {α β : Type} (g : State → β) {f : State → α → State} (h : ∀ s x, g (f s x) = g s) (l : List α) (s : State) :
    g (l.foldl f s) = g s :=
  List.foldlRecOn (motive := fun t => g t = g s) l f rfl fun t kept x _ => (h t x).trans kept

/-- Lines asked for change the accesses that wait, and nothing else. -/
theorem foldl_addAcc {α : Type} (l : List α) (a : State → α → Acc) (s : State) :
    ∃ acc, l.foldl (fun s x => addAcc (a s x) s) s = { s with memory.acc := acc } := by
  induction l generalizing s with
  | nil => exact ⟨s.memory.acc, rfl⟩
  | cons x l ih =>
    obtain ⟨acc, e⟩ := ih (addAcc (a s x) s)
    exact ⟨acc, e⟩

/-! ## The delay of the outputs (R224)

The delivery of a value changes what an output holds for its sink, and not what still waits in its delay. -/

/-- What waits in the delay of each output. -/
def delays (s : State) : List (List RedDue) := s.red.outs.map RedOut.due

theorem due_outOf (n : Nat) (s : State) : (outOf n s).due = nth (delays s) n [] :=
  (nth_map RedOut.due n s.red.outs {}).symm

theorem delays_congr {s t : State} (h : t.red.outs = s.red.outs) : delays t = delays s := congrArg (List.map RedOut.due) h

theorem delays_of_red {s t : State} (h : t.red = s.red) : delays t = delays s := delays_congr (congrArg RedState.outs h)

theorem outOf_setOut_same {n : Nat} (f : RedOut → RedOut) {s : State} (h : n < s.red.outs.length) : outOf n (setOut n f s) = f (outOf n s) :=
  nth_modifyNth_same f _ h

@[simp] theorem delays_setOut {f : RedOut → RedOut} (h : ∀ o, (f o).due = o.due) (n : Nat) (s : State) : delays (setOut n f s) = delays s :=
  map_modifyNth RedOut.due h n s.red.outs

@[simp] theorem delays_set (F : Fld) (v : Nat) (s : State) : delays (set F v s) = delays s := rfl

@[simp] theorem delays_setB (F : Fld) (b : Bool) (s : State) : delays (setB F b s) = delays s := rfl

@[simp] theorem delays_bump (F : Fld) (s : State) : delays (bump F s) = delays s := rfl

@[simp] theorem delays_fault (code unit d0 d1 : Nat) (s : State) : delays (fault code unit d0 d1 s) = delays s := delays_of_red (by simp)

@[simp] theorem delays_addTap (i b : Nat) (v : List Int) (flags : Nat) (s : State) : delays (addTap i b v flags s) = delays s := rfl

@[simp] theorem delays_outStat (n : Nat) (s : State) : delays (outStat n s) = delays s := rfl

@[simp] theorem delays_pushLine (n : Nat) (s : State) : delays (pushLine n s) = delays s := by
  unfold pushLine
  dsimp only
  split
  · rfl
  · split
    · split
      · simp
      · simp
    · simp

theorem delays_deliverOne (n : Nat) (d : RedDue) (s : State) : delays (deliverOne n d s) = delays s := by
  unfold deliverOne
  split
  case h_1 x _ =>
    simp only [delays_outStat]
    rw [delays_setOut (f := fun o => { o with out := x }) (fun _ => rfl)]
    split
    · rfl
    · exact delays_pushLine n s
  case h_2 =>
    dsimp only
    split
    · rfl
    · split
      · simp
      · simp

theorem delays_streamsReduced (out : Nat) (b : Int) (values : List Int) (s : State) : delays (streamsReduced out b values s) = delays s := by
  refine foldl_keeps delays (fun t i => ?_) _ s
  split
  · rfl
  · rfl

/-- Of its delay a delivery takes what is due. -/
theorem delays_deliverOut (n : Nat) (s : State) :
    delays (deliverOut n s) = delays (setOut n (fun o => { o with due := o.due.filter (fun d => s.now < d.slot) }) s) := by
  unfold deliverOut
  dsimp only
  split
  · rw [delays_streamsReduced, foldl_keeps delays (fun t d => delays_deliverOne n d t)]
  · exact foldl_keeps delays (fun t d => delays_deliverOne n d t) _ _

/-! ## Units behind the outputs

A step of an accumulation unit or of the persistence unit leaves the outputs. -/

@[simp] theorem setAu_outs (n : Nat) (f : AuState → AuState) (s : State) : (setAu n f s).red.outs = s.red.outs := rfl

@[simp] theorem setAuRec_outs (n id : Nat) (f : AuRecord → AuRecord) (s : State) : (setAuRec n id f s).red.outs = s.red.outs := rfl

@[simp] theorem setArrayAt_outs (n i : Nat) (f : AuArray → AuArray) (s : State) : (setArrayAt n i f s).red.outs = s.red.outs := rfl

@[simp] theorem auStat_outs (n : Nat) (s : State) : (auStat n s).red.outs = s.red.outs := rfl

@[simp] theorem addAcc_outs (a : Acc) (s : State) : (addAcc a s).red.outs = s.red.outs := rfl

@[simp] theorem auRestart_outs (n : Nat) (c : AuRecord) (s : State) : (auRestart n c s).red.outs = s.red.outs := by
  unfold auRestart
  dsimp only
  rw [foldl_keeps (·.red.outs) (fun t k => by simp [auCountOut, auLineOut]), setArrayAt_outs]

@[simp] theorem auSwitch_outs (n : Nat) (c : AuRecord) (s : State) : (auSwitch n c s).red.outs = s.red.outs := by
  unfold auSwitch
  dsimp only
  split
  · exact setAu_outs ..
  · split
    · rw [setArrayAt_outs, setAu_outs]
    · rfl

theorem auOpen_outs (n : Nat) (c : AuRecord) (s : State) : (auOpen n c s).red.outs = s.red.outs := by
  unfold auOpen
  dsimp only
  split
  case isTrue restarts =>
    split
    · simp
    · simp
  case isFalse goesOn =>
    split
    · simp
    · simp

theorem auStep_outs (n : Nat) (s : State) : (auStep n s).red.outs = s.red.outs := by
  unfold auStep
  split
  · rfl
  · split
    · rfl
    next c0 _ =>
      have opened : (if c0.begun then s else auOpen n c0 s).red.outs = s.red.outs := by
        split
        · rfl
        · exact auOpen_outs n c0 s
      dsimp only
      generalize (if c0.begun then s else auOpen n c0 s) = t at opened ⊢
      split
      · exact opened
      · split
        · exact opened
        · rw [setAuRec_outs, foldl_keeps (·.red.outs) (fun u l => addAcc_outs _ u), opened]

theorem perStep_outs (s : State) : (perStep s).red.outs = s.red.outs := by
  refine foldl_keeps (·.red.outs) (fun t m => ?_) _ s
  dsimp only
  split
  · rfl
  · rfl

theorem exec_reductionValueDelivery (n : Nat) (s : State) :
    exec (.reductionValueDelivery n) s = .next (perStep ((List.range 4).foldl (fun s k => auStep k s) (deliverOut n s))) := rfl

theorem outs_unitsStep (s : State) : (perStep ((List.range 4).foldl (fun s k => auStep k s) s)).red.outs = s.red.outs :=
  (perStep_outs _).trans (foldl_keeps (·.red.outs) (fun t k => auStep_outs k t) _ s)

/-! ## Persistence passes (R239) -/

/-- What PASS shows of a pass. -/
def passCode : PassKind → Nat
  | .clear => 1
  | .record _ _ => 2
  | .decay => 3

theorem passCode_shown (k : PassKind) : passCode k % 2 ^ 3 ≠ 0 := by
  cases k with
  | clear => decide
  | record seq bins => exact (by decide : 2 % 2 ^ 3 ≠ 0)
  | decay => decide

/-- The first waiting pass starts: beside the unit's own state and PASS, the accesses for its lines are all that is new. -/
theorem persistencePassStart_eq {k : PassKind} {rest : List PassKind} {s : State} (idle : s.red.per.pass = none)
    (waiting : s.red.per.waiting = k :: rest) (claims : s.red.per.noClaims = false) : ∃ acc, persistencePassStart s =
      { set RED_PER_STAT.PASS (passCode k) { s with red.per.pass := some (k, (passLines k).length), red.per.waiting := rest } with
        memory.acc := acc } := by
  unfold persistencePassStart
  rw [idle, waiting]
  dsimp only
  rw [if_neg (by simp [claims])]
  exact foldl_addAcc ..

/-- A pass without a line left ends; the bitmaps it leaves are those that wait for another pass. -/
theorem persistencePassEnd_eq {k : PassKind} {s : State} (done : s.red.per.pass = some (k, 0)) :
    ∃ maps, persistencePassEnd s = set RED_PER_STAT.PASS 0 { s with red.per.pass := none, red.per.maps := maps } := by
  unfold persistencePassEnd
  rw [done]
  exact ⟨_, rfl⟩

theorem keepsFields_set (F : Fld) (v : Nat) {s t : State} (h : t.regs = s.regs) : keepsFields [F] s (set F v t) := fun G hG =>
  (get_set_ne G F v t (hG F (by simp))).trans (congrArg (regGet G) h)

theorem exec_persistencePassStart (s : State) : exec .persistencePassStart s = .next (persistencePassStart s) := rfl

theorem exec_persistencePassEnd (s : State) : exec .persistencePassEnd s = .next (persistencePassEnd s) := rfl

/-! ## TAKE (R250) -/

/-- Sets register fields, each to the value that stands with it. -/
def setAll (l : List (Fld × Nat)) (s : State) : State := l.foldr (fun e s => set e.1 e.2 s) s

theorem setAll_eq (l : List (Fld × Nat)) (s : State) : setAll l s = { s with regs := (setAll l s).regs } := by
  induction l with
  | nil => rfl
  | cons e l ih => exact congrArg (set e.1 e.2) ih

theorem get_setAll_other {F : Fld} {l : List (Fld × Nat)} (h : ∀ e ∈ l, F.key ≠ e.1.key) (s : State) : get F (setAll l s) = get F s := by
  induction l with
  | nil => rfl
  | cons e l ih =>
    obtain ⟨head, tail⟩ := List.forall_mem_cons.mp h
    exact (get_set_ne F e.1 e.2 _ head).trans (ih tail)

theorem get_setAll {l : List (Fld × Nat)} (distinct : l.Pairwise (fun a b => a.1.key ≠ b.1.key)) {e : Fld × Nat} (h : e ∈ l) (s : State) :
    get e.1 (setAll l s) = e.2 % 2 ^ e.1.width := by
  induction l with
  | nil => cases h
  | cons a l ih =>
    obtain ⟨apart, rest⟩ := List.pairwise_cons.mp distinct
    rcases List.mem_cons.mp h with rfl | h
    · exact get_set_same ..
    · exact (get_set_ne e.1 a.1 a.2 _ (apart e h).symm).trans (ih rest h)

/-- The statistics registers of unit `n` with what TAKE copies to them. -/
def statFields (n : Nat) (t : MuStat) : List (Fld × Nat) :=
  [(MU_ST_N.N n, t.n), (MU_ST_MIN.VALUE n, t.mn), (MU_ST_MAX.VALUE n, t.mx), (MU_ST_MEAN.VALUE n, t.mean), (MU_ST_SD.VALUE n, statSd t),
   (MU_ST_NAN.NANS n, t.nans), (MU_ST_EPOCH.EPOCH n, t.epoch)]

/-- The registers of a unit lie in 64 bytes of its own. -/
theorem statFields_block (n : Nat) (t : MuStat) : ∀ e ∈ statFields n t, e.1.key / 2048 = 0x1012000 + n := by
  simp only [statFields, List.forall_mem_cons, List.not_mem_nil, false_imp_iff, implies_true, and_true, Fld.key]
  omega

theorem statFields_distinct (n : Nat) (t : MuStat) : (statFields n t).Pairwise (fun a b => a.1.key ≠ b.1.key) := by
  simp only [statFields, List.pairwise_cons, List.forall_mem_cons, List.not_mem_nil, false_imp_iff, implies_true, and_true,
    List.Pairwise.nil, Fld.key]
  omega

/-- The statistics of unit `n` go to its registers. -/
def takeStat (s : State) (n : Nat) : State := setAll (statFields n (nth s.red.stats n {})) s

theorem muTake_eq (s : State) : muTake s = (List.range 16).foldl takeStat s := rfl

theorem takeStat_red (s : State) (n : Nat) : (takeStat s n).red = s.red := by rw [takeStat, setAll_eq]

theorem get_takeStat_other {F : Fld} {n : Nat} (h : F.key / 2048 ≠ 0x1012000 + n) (s : State) : get F (takeStat s n) = get F s :=
  get_setAll_other (fun e he same => h (same ▸ statFields_block n _ e he)) s

theorem get_takeStat {n : Nat} {s : State} {e : Fld × Nat} (he : e ∈ statFields n (nth s.red.stats n {})) :
    get e.1 (takeStat s n) = e.2 % 2 ^ e.1.width :=
  get_setAll (statFields_distinct n (nth s.red.stats n {})) he s

theorem get_foldl_takeStat_other {F : Fld} {l : List Nat} (h : ∀ n ∈ l, F.key / 2048 ≠ 0x1012000 + n) (s : State) :
    get F (l.foldl takeStat s) = get F s :=
  List.foldlRecOn (motive := fun t => get F t = get F s) l takeStat rfl fun t kept n hn => (get_takeStat_other (h n hn) t).trans kept

/-- After units have been taken one by one, the registers of each show its statistics. -/
theorem get_foldl_takeStat {l : List Nat} (once : l.Nodup) {n : Nat} (hn : n ∈ l) {s : State} {e : Fld × Nat}
    (he : e ∈ statFields n (nth s.red.stats n {})) : get e.1 (l.foldl takeStat s) = e.2 % 2 ^ e.1.width := by
  induction l generalizing s with
  | nil => cases hn
  | cons m l ih =>
    obtain ⟨fresh, rest⟩ := List.nodup_cons.mp once
    rw [List.foldl_cons]
    rcases List.mem_cons.mp hn with rfl | hn
    · have apart : ∀ k ∈ l, e.1.key / 2048 ≠ 0x1012000 + k := fun k hk same =>
        fresh (Nat.add_left_cancel ((statFields_block n _ e he).symm.trans same) ▸ hk)
      rw [get_foldl_takeStat_other apart, get_takeStat he]
    · exact ih rest hn (by rwa [takeStat_red])

theorem muTake_frame (s : State) : muTake s = { s with regs := (muTake s).regs } := by
  rw [muTake_eq]
  refine List.foldlRecOn (motive := fun t : State => t = { s with regs := t.regs }) _ takeStat rfl fun t h n _ => ?_
  rw [takeStat, setAll_eq, h]

theorem exec_take (s : State) : exec .take s = .next (muTake s) := rfl

/-- Settles O36: RESTART is a change of one unit, a delivery keeps of its output's delay what is not due, a pass starts and ends by
`persistencePassStart_eq` and `persistencePassEnd_eq`, and TAKE sets each unit's own registers. -/
theorem reductionCommandsAct : Obligations.ReductionCommandsAct := by
  intro s
  refine ⟨fun n hn => ?restart, fun n hn => ?delivery, fun k rest idle waiting claims => ?passStart, fun k done => ?passEnd, ?take⟩
  case restart => exact ⟨_, exec_restart n s, auOf_setAu_same _ hn, fun k hk => auOf_setAu_ne _ s hk, rfl⟩
  case delivery =>
    refine ⟨_, exec_reductionValueDelivery n s, ?_⟩
    rw [due_outOf, delays_congr (outs_unitsStep _), delays_deliverOut, ← due_outOf, outOf_setOut_same _ hn]
  case passStart =>
    obtain ⟨acc, started⟩ := persistencePassStart_eq idle waiting claims
    refine ⟨_, exec_persistencePassStart s, ?_⟩
    rw [started]
    exact ⟨rfl, rfl, fun h => passCode_shown k ((get_set_same RED_PER_STAT.PASS (passCode k) _).symm.trans h), keepsFields_set _ _ rfl, rfl⟩
  case passEnd =>
    obtain ⟨maps, ended⟩ := persistencePassEnd_eq done
    refine ⟨_, exec_persistencePassEnd s, ?_⟩
    rw [ended]
    exact ⟨rfl, get_set_same .., keepsFields_set _ _ rfl, rfl⟩
  case take =>
    refine ⟨_, exec_take s, fun n => ?_, muTake_frame s⟩
    have shown : ∀ e ∈ statFields n (nth s.red.stats n {}), get e.1 (muTake s) = e.2 % 2 ^ e.1.width := fun e he =>
      get_foldl_takeStat List.nodup_range (List.mem_range.mpr n.isLt) he
    simpa [statFields] using shown

end Sys2Proof.Machine
end

section
/-! PROOFS of the family 07_square_and_boulevard: how training of the Boulevard ends (O37), and how the register bus and the test port reach
registers (O58). -/

namespace Sys2Proof.Machine

/-! ## The densities that the channels report (R274) -/

theorem reportDensity_same (a : Nat) (s : State) : reportDensity [a, a] s = set BLV_STAT.DENSITY a s := by
  simp [reportDensity, nth]

theorem reportDensity_differ {a b : Nat} (h : a ≠ b) (s : State) :
    reportDensity [a, b] s = fault 0x0607 0 0 0 (set BLV_STAT.DENS_MISMATCH 1 (set BLV_STAT.DENSITY (Nat.min a b) s)) := by
  simp [reportDensity, nth, h]

theorem reportDensity_frame (a b : Nat) (s : State) :
    reportDensity [a, b] s = { s with regs := (reportDensity [a, b] s).regs, log := (reportDensity [a, b] s).log } := by
  by_cases h : a = b
  · subst h
    rw [reportDensity_same]
    rfl
  · rw [reportDensity_differ h, fault_frame]
    rfl

theorem mem_reportDensity (a b : Nat) (s : State) : (reportDensity [a, b] s).mem = s.mem := by rw [reportDensity_frame]

theorem get_density_reportDensity {a b : Nat} (ha : a < 8) (hb : b < 8) (s : State) :
    get BLV_STAT.DENSITY (reportDensity [a, b] s) = Nat.min a b := by
  have fits : Nat.min a b % 2 ^ BLV_STAT.DENSITY.width = Nat.min a b := Nat.mod_eq_of_lt (by simp only [Nat.min_def]; split <;> omega)
  by_cases h : a = b
  · subst h
    rw [reportDensity_same, get_set_same, ← fits, show Nat.min a a = a from Nat.min_self a]
  · rw [reportDensity_differ h, get_fault _ _ _ _ _ _ (by decide) (by decide), get_set_ne _ _ _ _ (by decide), get_set_same, fits]

theorem get_mismatch_reportDensity {a b : Nat} (h : a ≠ b) (s : State) : get BLV_STAT.DENS_MISMATCH (reportDensity [a, b] s) = 1 := by
  rw [reportDensity_differ h, get_fault _ _ _ _ _ _ (by decide) (by decide)]
  exact get_set_same ..

theorem get_up_reportDensity (a b : Nat) (s : State) : get BLV_STAT.UP (reportDensity [a, b] s) = get BLV_STAT.UP s := by
  by_cases h : a = b
  · subst h
    rw [reportDensity_same, get_set_ne _ _ _ _ (by decide)]
  · rw [reportDensity_differ h, get_fault _ _ _ _ _ _ (by decide) (by decide), get_set_ne _ _ _ _ (by decide),
      get_set_ne _ _ _ _ (by decide)]

theorem log_reportDensity_same (a : Nat) (s : State) : (reportDensity [a, a] s).log = s.log := by
  rw [reportDensity_same, set_log]

theorem logs_reportDensity_differ {a b : Nat} (h : a ≠ b) (s : State) : logs 0x0607 0 0 0 s (reportDensity [a, b] s) := by
  rw [logs, reportDensity_differ h, fault_log_set (by decide), fault_log_set (by decide)]

/-! ## The end of training (R273, R274) -/

/-- The Boulevard after a training that ended well. -/
def trainedUp (s : State) : State :=
  set BLV_STAT.UP 1 (set BLV_STAT.INIT_FAIL 0 (set PWR_STAT.BLV_WAIT 0 { s with memory.training := false }))

theorem get_up_trainedUp (s : State) : get BLV_STAT.UP (trainedUp s) = 1 := get_set_same ..

theorem get_initFail_trainedUp (s : State) : get BLV_STAT.INIT_FAIL (trainedUp s) = 0 :=
  (get_set_ne _ _ _ _ (by decide)).trans (get_set_same ..)

theorem trainedUp_keepsFields (s : State) : keepsFields [BLV_STAT.UP, BLV_STAT.INIT_FAIL, PWR_STAT.BLV_WAIT] s (trainedUp s) := fun F hF =>
  ((get_set_ne F _ _ _ (hF _ (by simp))).trans (get_set_ne F _ _ _ (hF _ (by simp)))).trans (get_set_ne F _ _ _ (hF _ (by simp)))

/-- The log after a fault does not depend on what the memory side holds. -/
theorem fault_log_memory (code unit d0 d1 : Nat) (m : MemState) (s : State) :
    (fault code unit d0 d1 { s with memory := m }).log = (fault code unit d0 d1 s).log := by
  have held (e : LogEntry) : (holdEntry e { s with memory := m }).log = (holdEntry e s).log := by
    rw [holdEntry_log, holdEntry_log]
    rfl
  unfold fault
  dsimp only
  split
  · exact held _
  · rfl

/-- The Boulevard after the second training that failed. -/
def initFailed (s : State) : State := fault 0x0608 0 0 0 (set BLV_STAT.INIT_FAIL 1 { s with memory.training := false })

theorem get_initFail_initFailed (s : State) : get BLV_STAT.INIT_FAIL (initFailed s) = 1 :=
  (get_fault _ _ _ _ _ _ (by decide) (by decide)).trans (get_set_same ..)

theorem get_up_initFailed (s : State) : get BLV_STAT.UP (initFailed s) = get BLV_STAT.UP s :=
  (get_fault _ _ _ _ _ _ (by decide) (by decide)).trans (get_set_ne _ _ _ _ (by decide))

theorem initFailed_logs (s : State) : logs 0x0608 0 0 0 s (initFailed s) :=
  (fault_log_set (by decide) ..).trans (fault_log_memory ..)

/-- No START waits for the Boulevard, so the end of training starts nothing (R519). -/
theorem startRelease_trainedUp {s : State} (h : s.record.startWaits = false) : startRelease (trainedUp s) = trainedUp s := by
  have kept : (trainedUp s).record.startWaits = false := h
  simp [startRelease, kept]

section
variable {s : State} (training : s.memory.training = true) (due : trainingDue s = true)
include training due

theorem trainingEnd_up_first (start : s.record.startWaits = false) (first : s.memory.blvTries = 0) (a b : Nat) :
    trainingEnd true [a, b] s = trainedUp (reportDensity [a, b] s) := by
  have kept : (reportDensity [a, b] s).record.startWaits = false := by rw [reportDensity_frame]; exact start
  simp only [trainingEnd, training, due, first, Bool.and_self, if_true]
  exact startRelease_trainedUp kept

theorem trainingEnd_up_repeat (start : s.record.startWaits = false) (again : s.memory.blvTries ≠ 0) (d : List Nat) :
    trainingEnd true d s = trainedUp s := by
  simp only [trainingEnd, training, due, again, Bool.and_self, if_true, if_false]
  exact startRelease_trainedUp start

theorem trainingEnd_fails_first (first : s.memory.blvTries = 0) (a b : Nat) : trainingEnd false [a, b] s =
    { reportDensity [a, b] s with memory := { s.memory with blvTries := 1, trainDue := s.memory.trainDue + 2744320 } } := by
  have kept : (reportDensity [a, b] s).memory = s.memory := by rw [reportDensity_frame]
  simp [trainingEnd, training, due, first, kept]

theorem trainingEnd_fails_repeat (again : s.memory.blvTries ≠ 0) (d : List Nat) : trainingEnd false d s = initFailed s := by
  simp [trainingEnd, training, due, again, initFailed]

end

theorem trainingEnd_not_due {s : State} (h : s.memory.training = false ∨ trainingDue s = false) (ok : Bool) (d : List Nat) :
    trainingEnd ok d s = s := by
  rcases h with h | h <;> simp [trainingEnd, h]

theorem exec_boulevardTrainingEnd (ok : Bool) (d : List Nat) (s : State) :
    exec (.boulevardTrainingEnd ok d) s = .next (trainingEnd ok d s) := rfl

/-- Settles O37: the first training reports its densities and then the two tries differ only in what a failure does; `trainedUp` and
`initFailed` are the two final ends. -/
theorem trainingEndsUpOrFails : Obligations.TrainingEndsUpOrFails := by
  intro s ok a b ha hb
  refine ⟨fun training due => ⟨fun start first => ?upFirst, fun start again => ?upRepeat, fun first => ?failsFirst,
    fun again => ?failsRepeat⟩, fun idle => ⟨_, exec_boulevardTrainingEnd .., trainingEnd_not_due idle ok _⟩⟩
  case upFirst =>
    refine ⟨_, exec_boulevardTrainingEnd .., ?_⟩
    rw [trainingEnd_up_first training due start first]
    have kept := trainedUp_keepsFields (reportDensity [a, b] s)
    refine ⟨get_up_trainedUp _, get_initFail_trainedUp _, ⟨?density, fun differ => ?mismatch⟩, rfl, ?mem, fun same => ?silent,
      fun differ => logs_reportDensity_differ differ s⟩
    case density => exact (kept _ (by decide)).trans (get_density_reportDensity ha hb s)
    case mismatch => exact (kept _ (by decide)).trans (get_mismatch_reportDensity differ s)
    case mem => exact mem_reportDensity a b s
    case silent =>
      subst same
      exact log_reportDensity_same a s
  case upRepeat =>
    refine ⟨_, exec_boulevardTrainingEnd .., ?_⟩
    rw [trainingEnd_up_repeat training due start again]
    exact ⟨get_up_trainedUp s, get_initFail_trainedUp s, trainedUp_keepsFields s _ (by decide), rfl, rfl, rfl⟩
  case failsFirst =>
    refine ⟨_, exec_boulevardTrainingEnd .., ?_⟩
    rw [trainingEnd_fails_first training due first]
    exact ⟨⟨get_density_reportDensity ha hb s, fun differ => get_mismatch_reportDensity differ s⟩, training, rfl, rfl,
      get_up_reportDensity a b s, mem_reportDensity a b s⟩
  case failsRepeat =>
    refine ⟨_, exec_boulevardTrainingEnd .., ?_⟩
    rw [trainingEnd_fails_repeat training due again]
    exact ⟨get_initFail_initFailed s, get_up_initFailed s, by simp [initFailed], initFailed_logs s, by simp [initFailed]⟩

/-! ## Registers and their fields (R548, R575) -/

theorem fieldsAt_recLen : fieldsAt REC_LEN.addr = [⟨REC_LEN.LENGTH, .rw, true, true⟩] := by decide

theorem fieldsAt_sysId : fieldsAt SYS_ID.addr =
    [⟨SYS_ID.MINOR, .ro, false, false⟩, ⟨SYS_ID.MAJOR, .ro, false, false⟩, ⟨SYS_ID.PART, .ro, false, false⟩] := by decide

theorem fieldsAt_trgLevel : ∀ n < 4, fieldsAt (TRG_LEVEL.addr n) =
    [⟨TRG_LEVEL.LVL_A n, .rw, true, false⟩, ⟨TRG_LEVEL.LVL_B n, .rw, true, false⟩] := by decide

theorem trgUnit_cases {n : Nat} (hn : n < 4) : n = 0 ∨ n = 1 ∨ n = 2 ∨ n = 3 := by omega

/-- Fields of different registers have different keys. -/
theorem key_ne_of_addr_ne {F G : Fld} (h : F.addr ≠ G.addr) (hF : F.lo < 32) (hG : G.lo < 32) : F.key ≠ G.key := by
  have apart : @Ne Nat F.addr G.addr := h
  simp only [Fld.key]
  omega

/-- A register shows the same value where its fields do. -/
theorem regValue_congr {a : Addr} {s t : State} (h : ∀ f ∈ fieldsAt a, get f.fld t = get f.fld s) : regValue a t = regValue a s := by
  unfold regValue
  rw [List.map_congr_left fun f hf => by rw [h f hf]]

theorem regValue_pair {a : Addr} {f g : FieldRow} (fields : fieldsAt a = [f, g]) (hf : f.acc = .rw) (hg : g.acc = .rw) (s : State) :
    regValue a s = get f.fld s * 2 ^ f.fld.lo + get g.fld s * 2 ^ g.fld.lo := by
  simp [regValue, fields, hf, hg]

/-- What sets listed fields keeps the others. -/
theorem keepsFields_setAll {L : List Fld} {l : List (Fld × Nat)} (h : ∀ e ∈ l, e.1 ∈ L) (s : State) : keepsFields L s (setAll l s) :=
  fun _ hF => get_setAll_other (fun e he => hF e.1 (h e he)) s

/-! ## Writes of registers (R575) -/

theorem regWrite_recLen (v : Nat) (s : State) : regWrite REC_LEN.addr v s = set REC_LEN.LENGTH (v % 2 ^ 32) s := by
  have plain : regWrite REC_LEN.addr v s = plainWrite REC_LEN.addr (v % 2 ^ 32) s := rfl
  simp [plain, plainWrite, fieldsAt_recLen]

theorem get_length_set (v : Nat) (s : State) : get REC_LEN.LENGTH (set REC_LEN.LENGTH (v % 2 ^ 32) s) = v % 2 ^ 25 :=
  (get_set_same ..).trans (Nat.mod_mod_of_dvd v (by decide))

/-- SYS_ID has RO fields only. -/
theorem regWrite_sysId (v : Nat) (s : State) : regWrite SYS_ID.addr v s = s := by
  have plain : regWrite SYS_ID.addr v s = plainWrite SYS_ID.addr (v % 2 ^ 32) s := rfl
  simp [plain, plainWrite, fieldsAt_sysId]

/-- The levels of a trigger unit with the parts of a word that a write gives them. -/
def levelFields (w n : Nat) : List (Fld × Nat) := [(TRG_LEVEL.LVL_B n, w / 2 ^ 16), (TRG_LEVEL.LVL_A n, w)]

theorem regWrite_trgLevel {n : Nat} (hn : n < 4) (v : Nat) (s : State) :
    regWrite (TRG_LEVEL.addr n) v s = setAll (levelFields (v % 2 ^ 32) n) s := by
  have plain : regWrite (TRG_LEVEL.addr n) v s = plainWrite (TRG_LEVEL.addr n) (v % 2 ^ 32) s := by
    rcases trgUnit_cases hn with rfl | rfl | rfl | rfl <;> rfl
  simp [plain, plainWrite, fieldsAt_trgLevel n hn, setAll, levelFields]

/-! ## Reads of registers (R575) -/

theorem refreshTrgStat_eq (n : Nat) (s : State) : ∃ holdoff seq armed, refreshTrgStat n s =
    setAll [(TRG_STAT.HOLDOFF n, holdoff), (TRG_STAT.SEQ n, seq), (TRG_STAT.ARMED n, armed)] s := ⟨_, _, _, rfl⟩

theorem get_refreshTrgStat {F : Fld} {n : Nat} (h : F.addr ≠ TRG_STAT.addr n) (hF : F.lo < 32) (s : State) :
    get F (refreshTrgStat n s) = get F s := by
  obtain ⟨holdoff, seq, armed, e⟩ := refreshTrgStat_eq n s
  rw [e]
  refine get_setAll_other (fun e he => ?_) s
  simp only [List.mem_cons, List.not_mem_nil, or_false] at he
  rcases he with rfl | rfl | rfl <;> exact key_ne_of_addr_ne h hF (by simp)

/-- What TRG_LEVEL of a unit shows. -/
def levelValue (n : Nat) (s : State) : Nat := get (TRG_LEVEL.LVL_A n) s + get (TRG_LEVEL.LVL_B n) s * 2 ^ 16

theorem regValue_trgLevel {n : Nat} (hn : n < 4) (s : State) : regValue (TRG_LEVEL.addr n) s = levelValue n s := by
  rw [regValue_pair (fieldsAt_trgLevel n hn) rfl rfl, Nat.pow_zero, Nat.mul_one, levelValue]

theorem levels_refreshTrgStat (n m : Nat) (s : State) :
    get (TRG_LEVEL.LVL_A n) (refreshTrgStat m s) = get (TRG_LEVEL.LVL_A n) s ∧
      get (TRG_LEVEL.LVL_B n) (refreshTrgStat m s) = get (TRG_LEVEL.LVL_B n) s := by
  have apart : TRG_LEVEL.addr n ≠ TRG_STAT.addr m := by simp only [TRG_LEVEL.addr, TRG_STAT.addr]; omega
  exact ⟨get_refreshTrgStat apart (by simp) s, get_refreshTrgStat apart (by simp) s⟩

theorem levelValue_refreshTrgStat (n m : Nat) (s : State) : levelValue n (refreshTrgStat m s) = levelValue n s := by
  obtain ⟨a, b⟩ := levels_refreshTrgStat n m s
  rw [levelValue, a, b, levelValue]

/-- A read of TRG_LEVEL changes nothing but its unit's status, which it brings up to date. -/
theorem regRead_trgLevel {n : Nat} (hn : n < 4) (s : State) : regRead (TRG_LEVEL.addr n) s = (levelValue n s, refreshTrgStat n s) := by
  have refreshed : regRead (TRG_LEVEL.addr n) s = (regValue (TRG_LEVEL.addr n) (refreshTrgStat n s),
      readClear (TRG_LEVEL.addr n) (refreshTrgStat n s)) := by rcases trgUnit_cases hn with rfl | rfl | rfl | rfl <;> rfl
  have still (t : State) : readClear (TRG_LEVEL.addr n) t = t := by
    have remembered : forgetLogged (TRG_LEVEL.addr n) t = t := by rcases trgUnit_cases hn with rfl | rfl | rfl | rfl <;> rfl
    simp [readClear, fieldsAt_trgLevel n hn, remembered]
  rw [refreshed, still, regValue_trgLevel hn, levelValue_refreshTrgStat]

/-- The live fields of SYS are brought up to date. -/
theorem refreshSys_eq (s : State) : ∃ copy gen lvl code dirty, refreshLedger (refreshSeq s) = setAll [(SYS_LEDGER.COPY, copy),
    (SYS_LEDGER.GEN, gen), (SYS_SEQ_STAT.LVL, lvl), (SYS_SEQ_STAT.CODE, code), (SYS_SEQ_COV.DIRTY, dirty)] s := by
  unfold refreshLedger
  split
  · exact ⟨_, _, _, _, _, rfl⟩
  · exact ⟨_, _, _, _, _, rfl⟩

theorem sysId_apart : ∀ f ∈ fieldsAt SYS_ID.addr, ∀ G ∈ [SYS_LEDGER.COPY, SYS_LEDGER.GEN, SYS_SEQ_STAT.LVL, SYS_SEQ_STAT.CODE,
    SYS_SEQ_COV.DIRTY], f.fld.key ≠ G.key := by decide

/-- A read of SYS_ID leaves memory and the test port and shows its fields. -/
theorem regRead_sysId (s : State) : ∃ regs, regRead SYS_ID.addr s = (regValue SYS_ID.addr s, { s with regs := regs }) := by
  have refreshed : regRead SYS_ID.addr s = (regValue SYS_ID.addr (refreshLedger (refreshSeq s)),
      readClear SYS_ID.addr (refreshLedger (refreshSeq s))) := rfl
  have still (t : State) : readClear SYS_ID.addr t = t := by
    have remembered : forgetLogged SYS_ID.addr t = t := rfl
    simp [readClear, fieldsAt_sysId, remembered]
  obtain ⟨copy, gen, lvl, code, dirty, e⟩ := refreshSys_eq s
  have shown : regValue SYS_ID.addr (refreshLedger (refreshSeq s)) = regValue SYS_ID.addr s := by
    have kept : keepsFields [SYS_LEDGER.COPY, SYS_LEDGER.GEN, SYS_SEQ_STAT.LVL, SYS_SEQ_STAT.CODE, SYS_SEQ_COV.DIRTY] s
        (refreshLedger (refreshSeq s)) := e ▸ keepsFields_setAll (by simp) s
    exact regValue_congr fun f hf => kept f.fld (sysId_apart f hf)
  rw [refreshed, still, shown, e, setAll_eq]
  exact ⟨_, rfl⟩

/-! ## The bus (R257, R549) -/

theorem busWrite_mapped {a : Addr} (mapped : busMapped a = true) (plain : bcastAt a = none) (o : Owner) (v : Nat) (s : State) :
    (busWrite o a v s).2 = regWrite a v s := by
  simp [busWrite, mapped, plain]

theorem busWrite_window {a : Addr} {b : Bcast} {ofs : Nat} (mapped : busMapped a = true) (window : bcastAt a = some (b, ofs)) (o : Owner)
    (v : Nat) (s : State) : (busWrite o a v s).2 = bcastWrite b ofs (v % 2 ^ 32) s := by
  simp [busWrite, mapped, window]

theorem busWrite_unmapped {a : Addr} (h : busMapped a = false) (o : Owner) (v : Nat) (s : State) :
    (busWrite o a v s).2 = faultAddr 0x0605 o a s := by
  simp [busWrite, h, unmapped]

theorem busRead_mapped {a : Addr} (mapped : busMapped a = true) (plain : bcastAt a = none) (o : Owner) (s : State) :
    (busRead o a s).2 = regRead a s := by
  simp [busRead, mapped, plain]

theorem busRead_window {a : Addr} {b : Bcast} {ofs : Nat} (mapped : busMapped a = true) (window : bcastAt a = some (b, ofs)) (o : Owner)
    (s : State) : (busRead o a s).2 = bcastRead b ofs s := by
  simp [busRead, mapped, window]

theorem busWrite_recLen (o : Owner) (v : Nat) (s : State) :
    (busWrite o REC_LEN.addr v s).2 = set REC_LEN.LENGTH (v % 2 ^ 32) s :=
  (busWrite_mapped (by decide) (by decide) o v s).trans (regWrite_recLen v s)

theorem busWrite_sysId (o : Owner) (v : Nat) (s : State) : (busWrite o SYS_ID.addr v s).2 = s :=
  (busWrite_mapped (by decide) (by decide) o v s).trans (regWrite_sysId v s)

/-! ## The trigger units' window (R550, R551) -/

/-- The address of TRG_LEVEL in the window. -/
abbrev levelWindow : Addr := 0x4020F000 + 4

theorem levelWindow_mapped : busMapped levelWindow = true ∧ bcastAt levelWindow = some (.trg, 4) := by decide

theorem bcastUnits_trg_five {s : State} (mask : get TRG_BCAST_GROUP.MASK s = 5) : bcastUnits .trg s = [0, 2] := by
  rw [bcastUnits, mask]
  decide

theorem bcastUnits_trg_three {s : State} (mask : get TRG_BCAST_GROUP.MASK s = 3) : bcastUnits .trg s = [0, 1] := by
  rw [bcastUnits, mask]
  decide

/-- With units 0 and 2 selected a write sets the levels of both. -/
theorem busWrite_levelWindow {s : State} (mask : get TRG_BCAST_GROUP.MASK s = 5) (o : Owner) (v : Nat) :
    (busWrite o levelWindow v s).2 = setAll (levelFields (v % 2 ^ 32) 2 ++ levelFields (v % 2 ^ 32) 0) s := by
  obtain ⟨mapped, window⟩ := levelWindow_mapped
  rw [busWrite_window mapped window, bcastWrite, bcastUnits_trg_five mask]
  have unit0 := regWrite_trgLevel (n := 0) (by decide) (v % 2 ^ 32) s
  have unit2 := regWrite_trgLevel (n := 2) (by decide) (v % 2 ^ 32) (setAll (levelFields (v % 2 ^ 32) 0) s)
  rw [Nat.mod_mod] at unit0 unit2
  rw [setAll, List.foldr_append]
  exact (congrArg _ unit0).trans unit2

/-- With units 0 and 1 selected a read sets the mismatch flag where their levels differ. -/
theorem busRead_levelWindow {s : State} (mask : get TRG_BCAST_GROUP.MASK s = 3) (o : Owner) :
    (busRead o levelWindow s).2.2 = if levelValue 0 s = levelValue 1 s then refreshTrgStat 1 (refreshTrgStat 0 s)
      else set TRG_GSTAT.BCAST_MISMATCH 1 (refreshTrgStat 1 (refreshTrgStat 0 s)) := by
  obtain ⟨mapped, window⟩ := levelWindow_mapped
  have unit0 : regRead (Bcast.trg.origin.1 + 0 * Bcast.trg.origin.2 + 4) s = (levelValue 0 s, refreshTrgStat 0 s) :=
    regRead_trgLevel (n := 0) (by decide) s
  have unit1 : regRead (Bcast.trg.origin.1 + 1 * Bcast.trg.origin.2 + 4) (refreshTrgStat 0 s) =
      (levelValue 1 s, refreshTrgStat 1 (refreshTrgStat 0 s)) := by
    rw [← levelValue_refreshTrgStat 1 0 s]
    exact regRead_trgLevel (n := 1) (by decide) (refreshTrgStat 0 s)
  rw [busRead_window mapped window, bcastRead, bcastUnits_trg_three mask]
  simp only [List.foldl_cons, List.foldl_nil, unit0, unit1, List.nil_append, List.cons_append]
  by_cases same : levelValue 0 s = levelValue 1 s
  · simp [same]
  · simp [same, Ne.symm same, bcastMismatch]

theorem levelFields_distinct (w : Nat) : (levelFields w 2 ++ levelFields w 0).Pairwise (fun a b => a.1.key ≠ b.1.key) := by
  simp only [levelFields, List.cons_append, List.nil_append, List.pairwise_cons, List.forall_mem_cons, List.not_mem_nil, false_imp_iff,
    implies_true, and_true, List.Pairwise.nil, Fld.key]
  omega

/-- Each selected unit shows its parts of the word written. -/
theorem get_levels_written (v : Nat) (s : State) : ∀ n ∈ [0, 2],
    get (TRG_LEVEL.LVL_A n) (setAll (levelFields (v % 2 ^ 32) 2 ++ levelFields (v % 2 ^ 32) 0) s) = v % 2 ^ 12 ∧
      get (TRG_LEVEL.LVL_B n) (setAll (levelFields (v % 2 ^ 32) 2 ++ levelFields (v % 2 ^ 32) 0) s) = v / 2 ^ 16 % 2 ^ 12 := by
  intro n hn
  simp only [List.mem_cons, List.not_mem_nil, or_false] at hn
  have shown {e : Fld × Nat} (he : e ∈ levelFields (v % 2 ^ 32) n) :=
    get_setAll (levelFields_distinct (v % 2 ^ 32)) (e := e) (by
      rcases hn with rfl | rfl
      · exact List.mem_append_right _ he
      · exact List.mem_append_left _ he) s
  have a := shown (e := (TRG_LEVEL.LVL_A n, v % 2 ^ 32)) (by simp [levelFields])
  have b := shown (e := (TRG_LEVEL.LVL_B n, v % 2 ^ 32 / 2 ^ 16)) (by simp [levelFields])
  exact ⟨a.trans (by dsimp only; omega), b.trans (by dsimp only; omega)⟩

theorem levelValue_eq_iff {s : State} (same : get (TRG_LEVEL.LVL_B 0) s = get (TRG_LEVEL.LVL_B 1) s) :
    levelValue 0 s = levelValue 1 s ↔ get (TRG_LEVEL.LVL_A 0) s = get (TRG_LEVEL.LVL_A 1) s := by
  rw [levelValue, levelValue, same, Nat.add_right_cancel_iff]

theorem refreshTrgStat_mem (n : Nat) (s : State) : (refreshTrgStat n s).mem = s.mem := rfl

theorem refreshedUnits_mem (s : State) : (refreshTrgStat 1 (refreshTrgStat 0 s)).mem = s.mem :=
  (refreshTrgStat_mem 1 _).trans (refreshTrgStat_mem 0 s)

theorem refreshedUnits_keeps (s : State) :
    get TRG_GSTAT.BCAST_MISMATCH (refreshTrgStat 1 (refreshTrgStat 0 s)) = get TRG_GSTAT.BCAST_MISMATCH s ∧
      ∀ n, get (TRG_LEVEL.LVL_A n) (refreshTrgStat 1 (refreshTrgStat 0 s)) = get (TRG_LEVEL.LVL_A n) s :=
  ⟨(get_refreshTrgStat (by decide) (by decide) _).trans (get_refreshTrgStat (by decide) (by decide) s),
    fun n => (levels_refreshTrgStat n 1 _).1.trans (levels_refreshTrgStat n 0 s).1⟩

/-! ## The test access port (R572, R573) -/

theorem jtagCode_eq (v : Nat) : jtagCode v = if v % 16 ∈ [0, 1, 2, 3, 4, 8] then v % 16 else 15 := by simp [jtagCode]

theorem exec_regacc (a : Addr) (w : Bool) (v : Nat) (s : State) : exec (.regacc a w v) s = .next (regacc a w v s) := rfl

theorem regacc_off_test {s : State} (h : s.boot.phase ≠ .test) (a : Addr) (w : Bool) (v : Nat) :
    regacc a w v s = { s with jtag.instruction := 8 } := by
  simp [regacc, h]

theorem regacc_write {s : State} (h : s.boot.phase = .test) {a : Addr} (word : a % 2 ^ 32 / 4 * 4 = a) (v : Nat) :
    regacc a true v s =
      { (busWrite hostOwner a v { s with jtag.instruction := 8 }).2 with jtag.data := v % 2 ^ 32, jtag.done := true } := by
  simp only [regacc, h, word, if_true]

theorem regacc_read {s : State} (h : s.boot.phase = .test) {a : Addr} (word : a % 2 ^ 32 / 4 * 4 = a) (v : Nat) :
    regacc a false v s =
      let r := (busRead hostOwner a { s with jtag.instruction := 8 }).2
      { r.2 with jtag.data := r.1 % 2 ^ 32, jtag.done := true } := by
  simp only [regacc, h, word, if_true, Bool.false_eq_true, if_false]

theorem exec_registerWrite (a v : Nat) (s : State) : exec (.registerWrite a v) s = .next (busWrite hostOwner a v s).2 := rfl

theorem exec_broadcastWrite (a v : Nat) (s : State) : exec (.broadcastWrite a v) s = .next (busWrite hostOwner a v s).2 := rfl

theorem exec_broadcastRead (a : Nat) (s : State) : exec (.broadcastRead a) s = .next (busRead hostOwner a s).2.2 := rfl

theorem exec_testInstruction (v : Nat) (s : State) : exec (.testInstruction v) s = .next { s with jtag.instruction := jtagCode v } := rfl

/-- Settles O58: each access is one of the bus to a register with known fields, or to the trigger units' window; the test port adds its data
register. -/
theorem registersAreReachedByTheirAddresses : Obligations.RegistersAreReachedByTheirAddresses := by
  intro s v
  refine ⟨?rw, ?ro, fun a hole => ?unmapped, by decide, by decide, fun mask => ?window, fun mask same => ?mismatch, ?instruction,
    fun test => ⟨?testWrite, ?testRead⟩, fun off a w => ⟨_, exec_regacc .., regacc_off_test off a w v⟩⟩
  case rw =>
    refine ⟨_, exec_registerWrite .., ?_⟩
    rw [busWrite_recLen]
    exact ⟨get_length_set v s, keepsFields_set _ _ rfl, rfl⟩
  case ro => exact ⟨_, exec_registerWrite .., busWrite_sysId _ v s⟩
  case unmapped =>
    refine ⟨_, exec_registerWrite .., ?_⟩
    rw [busWrite_unmapped hole]
    exact ⟨rfl, fun F hF => get_faultAddr F _ _ _ s (hF _ (by simp)) (hF _ (by simp)), fault_frame ..⟩
  case window =>
    refine ⟨_, exec_broadcastWrite .., ?_⟩
    rw [busWrite_levelWindow mask]
    exact ⟨get_levels_written v s, keepsFields_setAll (by simp [levelFields]) s, setAll_eq ..⟩
  case mismatch =>
    refine ⟨_, exec_broadcastRead .., ?_⟩
    simp only [busRead_levelWindow mask, levelValue_eq_iff same]
    obtain ⟨flag, levels⟩ := refreshedUnits_keeps s
    split
    · exact ⟨flag, fun n _ => levels n, refreshedUnits_mem s⟩
    · refine ⟨get_set_same .., fun n _ => (get_set_ne _ _ _ _ ?_).trans (levels n), refreshedUnits_mem s⟩
      simp only [Fld.key]
      omega
  case instruction => exact ⟨_, exec_testInstruction .., by rw [jtagCode_eq]⟩
  case testWrite =>
    refine ⟨_, exec_regacc .., ?_⟩
    rw [regacc_write test (by decide), busWrite_recLen]
    exact ⟨get_length_set v s, keepsFields_set _ _ rfl, rfl, rfl⟩
  case testRead =>
    refine ⟨_, exec_regacc .., ?_⟩
    obtain ⟨regs, e⟩ := regRead_sysId { s with jtag.instruction := 8 }
    rw [regacc_read test (by decide), busRead_mapped (by decide) (by decide), e]
    exact ⟨rfl, rfl⟩

end Sys2Proof.Machine
end

section
/-! PROOFS of the family 08_roundabout_dma: how the Roundabout's channels start and load descriptors (O38), and how they move lines, end, abort
and take register writes (O39). -/

namespace Sys2Proof.Machine

/-! ## A channel and its status -/

theorem chOf_setCh_same {n : Nat} (f : DmaCh → DmaCh) {s : State} (h : n < s.dma.chans.length) : chOf n (setCh n f s) = f (chOf n s) :=
  nth_modifyNth_same f _ h

theorem chOf_setCh_ne {n k : Nat} (f : DmaCh → DmaCh) (s : State) (h : k ≠ n) : chOf k (setCh n f s) = chOf k s :=
  nth_modifyNth_ne f _ _ h

theorem length_setCh (n : Nat) (f : DmaCh → DmaCh) (s : State) : (setCh n f s).dma.chans.length = s.dma.chans.length := by
  simp [setCh, modifyNth_eq_modify]

theorem chOf_congr {s t : State} (h : t.dma = s.dma) (n : Nat) : chOf n t = chOf n s := by rw [chOf, chOf, h]

/-- The fields in which channel `n` shows where it stands (R308). -/
def shownFields (n : Nat) : List Fld := [DMA_CH_STAT.STATE n, DMA_CH_STAT.STAGED n, DMA_CH_PACE.ON n]

theorem notShown {F : Fld} {n : Nat} (h : F.key ≠ (DMA_CH_STAT.STATE n).key ∧ F.key ≠ (DMA_CH_STAT.STAGED n).key ∧
    F.key ≠ (DMA_CH_PACE.ON n).key) : ∀ G ∈ shownFields n, F.key ≠ G.key := by
  simpa [shownFields] using h

theorem err_notShown (n : Nat) : ∀ G ∈ shownFields n, (DMA_CH_STAT.ERR n).key ≠ G.key := notShown (by simp only [Fld.key]; omega)

theorem tag_notShown (n : Nat) : ∀ G ∈ shownFields n, (DMA_CH_TAG.TAG n).key ≠ G.key := notShown (by simp only [Fld.key]; omega)

theorem eseq_notShown (n : Nat) : ∀ G ∈ shownFields n, LOG_ESEQ.NEXT.key ≠ G.key := notShown (by simp only [Fld.key]; omega)

theorem refreshCh_fetching {n : Nat} {s : State} (active : (chOf n s).active = true) (fetch : (chOf n s).fetch.isSome = true) :
    refreshCh n s = set (DMA_CH_STAT.STAGED n) (chOf n s).staged.length
      (setB (DMA_CH_PACE.ON n) (chOf n s).pacedOn (set (DMA_CH_STAT.STATE n) 1 s)) := by
  simp [refreshCh, active, fetch]

theorem refreshCh_idle {n : Nat} {s : State} (h : (chOf n s).active = false) : refreshCh n s =
    set (DMA_CH_STAT.STAGED n) (chOf n s).staged.length (setB (DMA_CH_PACE.ON n) false s) := by
  simp [refreshCh, h]

theorem refreshCh_frame (n : Nat) (s : State) : refreshCh n s = { s with regs := (refreshCh n s).regs } := by
  unfold refreshCh
  dsimp only
  split
  · rfl
  · rfl

theorem refreshCh_keepsFields (n : Nat) (s : State) : keepsFields (shownFields n) s (refreshCh n s) := by
  intro F hF
  simp only [shownFields, List.forall_mem_cons] at hF
  obtain ⟨state, staged, paced, -⟩ := hF
  unfold refreshCh
  dsimp only
  rw [get_set_ne _ _ _ _ staged, get_setB_ne _ _ _ _ paced]
  split
  · exact get_set_ne _ _ _ _ state
  · rfl

@[simp] theorem chOf_refreshCh (n k : Nat) (s : State) : chOf k (refreshCh n s) = chOf k s := by
  rw [refreshCh_frame]
  rfl

@[simp] theorem refreshCh_mem (n : Nat) (s : State) : (refreshCh n s).mem = s.mem := by rw [refreshCh_frame]

@[simp] theorem refreshCh_dma (n : Nat) (s : State) : (refreshCh n s).dma = s.dma := by rw [refreshCh_frame]

theorem state_key_ne (n : Nat) : (DMA_CH_STAT.STATE n).key ≠ (DMA_CH_STAT.STAGED n).key ∧
    (DMA_CH_STAT.STATE n).key ≠ (DMA_CH_PACE.ON n).key := by
  simp only [Fld.key]
  omega

theorem get_state_refreshCh_fetch {n : Nat} {s : State} (active : (chOf n s).active = true) (fetch : (chOf n s).fetch.isSome = true) :
    get (DMA_CH_STAT.STATE n) (refreshCh n s) = 1 := by
  obtain ⟨staged, paced⟩ := state_key_ne n
  rw [refreshCh_fetching active fetch, get_set_ne _ _ _ _ staged, get_setB_ne _ _ _ _ paced]
  exact get_set_same ..

theorem get_state_refreshCh_idle {n : Nat} {s : State} (idle : (chOf n s).active = false) :
    get (DMA_CH_STAT.STATE n) (refreshCh n s) = get (DMA_CH_STAT.STATE n) s := by
  obtain ⟨staged, paced⟩ := state_key_ne n
  rw [refreshCh_idle idle, get_set_ne _ _ _ _ staged, get_setB_ne _ _ _ _ paced]

/-! ## A channel leaves activity (R290, R305) -/

theorem chStop_frame (n st : Nat) (s : State) :
    chStop n st s = { s with regs := (chStop n st s).regs, dma := (chStop n st s).dma } := by
  rw [chStop, refreshCh_frame]
  rfl

theorem chOf_chStop_same (st : Nat) {n : Nat} {s : State} (h : n < s.dma.chans.length) : chOf n (chStop n st s) =
    { reads := (chOf n s).reads, writes := (chOf n s).writes, total := (chOf n s).total, dstPtr := (chOf n s).dstPtr,
      readSince := (chOf n s).readSince } := by
  rw [chStop, chOf_refreshCh]
  exact chOf_setCh_same _ h

theorem chOf_chStop_ne (st : Nat) {n k : Nat} (s : State) (h : k ≠ n) : chOf k (chStop n st s) = chOf k s := by
  rw [chStop, chOf_refreshCh]
  exact chOf_setCh_ne _ s h

theorem get_state_chStop {st n : Nat} {s : State} (h : n < s.dma.chans.length) (hst : st < 8) :
    get (DMA_CH_STAT.STATE n) (chStop n st s) = st := by
  have idle : (chOf n (chStop n st s)).active = false := by rw [chOf_chStop_same st h]
  rw [chStop, chOf_refreshCh] at idle
  rw [chStop, get_state_refreshCh_idle idle, get_set_same]
  exact Nat.mod_eq_of_lt hst

theorem chStop_keepsFields (n st : Nat) (s : State) : keepsFields (shownFields n) s (chStop n st s) := fun F hF =>
  (refreshCh_keepsFields n _ F hF).trans (get_set_ne _ _ _ _ (hF _ (by simp [shownFields])))

/-- What the log gains by a fault depends on the log, the time and the next ESEQ. -/
theorem fault_log_congr {s t : State} (log : t.log = s.log) (ticking : t.tickOn = s.tickOn) (time : tick t = tick s)
    (eseq : get LOG_ESEQ.NEXT t = get LOG_ESEQ.NEXT s) (code unit d0 d1 : Nat) :
    (fault code unit d0 d1 t).log = (fault code unit d0 d1 s).log := by
  have held (e : LogEntry) : (holdEntry e t).log = (holdEntry e s).log := by rw [holdEntry_log, holdEntry_log, log, time, eseq]
  unfold fault
  dsimp only
  rw [ticking]
  split
  · exact held _
  · rw [log]

/-- The memory side, the channels and the host frames have no part in it. -/
theorem fault_log_of_frame {s t : State} (h : t = { s with memory := t.memory, dma := t.dma, hfr := t.hfr }) (code unit d0 d1 : Nat) :
    (fault code unit d0 d1 t).log = (fault code unit d0 d1 s).log := by
  rw [h]
  exact fault_log_congr (s := s) (t := { s with memory := t.memory, dma := t.dma, hfr := t.hfr }) rfl rfl rfl rfl ..

theorem fault_log_chStop (n st code unit d0 d1 : Nat) (s : State) :
    (fault code unit d0 d1 (chStop n st s)).log = (fault code unit d0 d1 s).log := by
  have eseq := chStop_keepsFields n st s _ (eseq_notShown n)
  have log : (chStop n st s).log = s.log := by rw [chStop_frame]
  have ticking : (chStop n st s).tickOn = s.tickOn := by rw [chStop_frame]
  have time : tick (chStop n st s) = tick s := by
    rw [chStop_frame]
    rfl
  exact fault_log_congr log ticking time eseq ..

/-- The status register of a channel is none of the log's. -/
theorem get_fault_chStat {F : Fld} {n : Nat} (addr : F.addr = DMA_CH_STAT.addr n) (lo : F.lo < 16) (code unit d0 d1 : Nat) (s : State) :
    get F (fault code unit d0 d1 s) = get F s := by
  have key : F.key = (0x40700004 + 0x40 * n) * 32 + F.lo := by rw [Fld.key, addr]
  refine get_fault _ _ _ _ _ _ ?_ ?_
  · rw [key]
    simp only [Fld.key]
    omega
  · rw [key]
    simp only [Fld.key]
    omega

theorem get_err_chHalt {n err : Nat} (code : Nat) (s : State) (h : err < 8) : get (DMA_CH_STAT.ERR n) (chHalt n err code s) = err := by
  rw [chHalt, get_fault_chStat rfl (by simp), get_set_same]
  exact Nat.mod_eq_of_lt h

theorem get_state_chHalt {n : Nat} (err code : Nat) {s : State} (h : n < s.dma.chans.length) :
    get (DMA_CH_STAT.STATE n) (chHalt n err code s) = 4 := by
  rw [chHalt, get_fault_chStat rfl (by simp), get_set_ne _ _ _ _ (by simp only [Fld.key]; omega)]
  exact get_state_chStop h (by decide)

theorem chOf_chHalt (n err code k : Nat) (s : State) : chOf k (chHalt n err code s) = chOf k (chStop n 4 s) :=
  chOf_congr (fault_dma ..) k

theorem chHalt_logs (n err code : Nat) (s : State) : logs code n 0 0 s (chHalt n err code s) := by
  rw [logs, chHalt, fault_log_set (by simp only [Fld.key]; omega), fault_log_chStop]

theorem chHalt_mem (n err code : Nat) (s : State) : (chHalt n err code s).mem = s.mem := by
  rw [chHalt, fault_mem, set_mem, chStop_frame]

/-! ## Start (R290, R307) -/

theorem memLine_congr {s t : State} (h : get BLV_STAT.DENSITY t = get BLV_STAT.DENSITY s) (a : Addr) : memLine a t = memLine a s := by
  have capacity : blvCapacity t = blvCapacity s := by rw [blvCapacity, blvCapacity, h]
  simp only [memLine, inBlv, capacity]

theorem descOk_congr {s t : State} (h : get BLV_STAT.DENSITY t = get BLV_STAT.DENSITY s) (b : List Nat) (d : Desc) :
    descOk b d t = descOk b d s := by
  simp only [descOk, memLine_congr h]

theorem cqMode_eq_false {n : Nat} {s : State} (h : get (DMA_CH_CTRL.DSRC n) s = 0) : cqMode n s = false := by
  simp [cqMode, on, h]

theorem dmaStart_active {n : Nat} {s : State} (h : (chOf n s).active = true) : dmaStart n s = set (DMA_CH_STAT.BUSY_WR n) 1 s := by
  rw [dmaStart, if_pos h]

/-- The channel of a START: it fetches its first descriptor. -/
def startedCh (a : Addr) : DmaCh := { active := true, fetch := some a }

theorem dmaStart_idle {n : Nat} {s : State} (idle : (chOf n s).active = false) (unpaced : get (DMA_CH_PACE.MODE n) s ≠ 2)
    (fromMemory : get (DMA_CH_CTRL.DSRC n) s = 0) (line : memLine (descAddr n s) s = true) :
    dmaStart n s = refreshCh n (setCh n (fun _ => startedCh (descAddr n s)) (set (DMA_CH_STAT.ERR n) 0 s)) := by
  have keeps {F : Fld} (h : F.key ≠ (DMA_CH_STAT.ERR n).key) := get_set_ne F (DMA_CH_STAT.ERR n) 0 s h
  have mode := keeps (F := DMA_CH_PACE.MODE n) (by simp only [Fld.key]; omega)
  have source := keeps (F := DMA_CH_CTRL.DSRC n) (by simp only [Fld.key]; omega)
  have density := keeps (F := BLV_STAT.DENSITY) (by simp only [Fld.key]; omega)
  have addr : descAddr n (set (DMA_CH_STAT.ERR n) 0 s) = descAddr n s := by
    rw [descAddr, keeps (by simp only [Fld.key]; omega), keeps (by simp only [Fld.key]; omega), descAddr]
  simp [dmaStart, idle, mode, unpaced, cqMode_eq_false (source.trans fromMemory), addr, memLine_congr density, line, startedCh]

theorem exec_dmaStart {n : Nat} (h : n < 32) (s : State) : exec (.dmaStart n) s = .next (dmaStart n s) :=
  congrArg Host.Outcome.next (if_pos h)

/-! ## Descriptors (R290) -/

theorem noteRead_clean {f : Flight} (fenced : f.fenced = false) (bad : f.bad = false) (n : Nat) (s : State) : noteRead n f s = s := by
  simp [noteRead, fenced, bad]

theorem dueFlights_dropFlights (n : Nat) (s : State) : dueFlights n (dropFlights n s) = [] := by
  simp [dueFlights, dropFlights, List.filter_filter]

/-- Channel `n` has its descriptor line and fetches no more. -/
def fetched (n : Nat) (s : State) : State :=
  setCh n (fun c => { c with fetch := none, fetchIssued := false, inFlight := c.inFlight - 1 }) (dropFlights n s)

/-- Channel `n` works on a descriptor from its first line. -/
def takeDesc (n : Nat) (d : Desc) (s : State) : State :=
  setCh n (fun c => { c with desc := some d, reads := 0, writes := 0, total := d.slen * d.scnt / 64 }) s

theorem chOf_fetched_same {n : Nat} {s : State} (h : n < s.dma.chans.length) : chOf n (fetched n s) =
    { chOf n s with fetch := none, fetchIssued := false, inFlight := (chOf n s).inFlight - 1 } :=
  chOf_setCh_same (s := dropFlights n s) _ h

theorem chOf_fetched_ne {n k : Nat} (s : State) (h : k ≠ n) : chOf k (fetched n s) = chOf k s := chOf_setCh_ne _ (dropFlights n s) h

theorem length_fetched (n : Nat) (s : State) : (fetched n s).dma.chans.length = s.dma.chans.length := length_setCh n _ (dropFlights n s)

section
variable {n : Nat} {s : State} {f : Flight} (due : dueFlights n s = [f]) (fenced : f.fenced = false) (bad : f.bad = false)
  (active : (chOf n s).active = true) (issued : (chOf n s).fetchIssued = true) (running : (chOf n s).aborting = none)
  (fromMemory : get (DMA_CH_CTRL.DSRC n) s = 0)
include due fenced bad active issued running fromMemory

theorem descriptorLoaded_ok (ok : descOk f.data (descOf f.data) s = true) (noQueue : (descOf f.data).skind ≠ 1) :
    descriptorLoaded n s = refreshCh n (takeDesc n (descOf f.data) (fetched n s)) := by
  have kept : descOk f.data (descOf f.data) (fetched n s) = true := (descOk_congr rfl ..).trans ok
  have memory : cqMode n (fetched n s) = false := cqMode_eq_false fromMemory
  unfold fetched at kept memory ⊢
  simp [descriptorLoaded, due, active, issued, running, noteRead_clean fenced bad, memory, kept, noQueue, takeDesc]

theorem descriptorLoaded_bad (wrong : descOk f.data (descOf f.data) s = false) :
    descriptorLoaded n s = chHalt n 1 0x0701 (fetched n s) := by
  have kept : descOk f.data (descOf f.data) (fetched n s) = false := (descOk_congr rfl ..).trans wrong
  have memory : cqMode n (fetched n s) = false := cqMode_eq_false fromMemory
  unfold fetched at kept memory ⊢
  simp [descriptorLoaded, due, active, issued, running, noteRead_clean fenced bad, memory, kept]

end

theorem exec_descriptorLoaded (n : Nat) (s : State) : exec (.descriptorLoaded n) s = .next (descriptorLoaded n s) := rfl

/-- Settles O38: an idle channel's START is `dmaStart_idle`; a loaded descriptor is taken up or halts the channel by its rules. -/
theorem channelsStartAndLoadDescriptors : Obligations.ChannelsStartAndLoadDescriptors := by
  intro s n chans
  have inList : n.val < s.dma.chans.length := by omega
  have inFetched : n.val < (fetched n s).dma.chans.length := by rwa [length_fetched]
  refine ⟨fun idle unpaced fromMemory line => ?start, fun active => ⟨_, exec_dmaStart n.isLt s, dmaStart_active active⟩,
    fun f due fenced bad active issued running fromMemory => ⟨fun ok noQueue => ?taken, fun wrong => ?halted⟩⟩
  case start =>
    refine ⟨_, exec_dmaStart n.isLt s, ?_⟩
    rw [dmaStart_idle idle unpaced fromMemory line]
    have chan := chOf_setCh_same (fun _ => startedCh (descAddr n s)) (s := set (DMA_CH_STAT.ERR n) 0 s) inList
    refine ⟨(chOf_refreshCh ..).trans chan, fun k hk => ?others, ?state, ?err, ?frame⟩
    case others => exact (chOf_refreshCh ..).trans (chOf_setCh_ne _ _ (Fin.val_ne_of_ne hk))
    case state => exact get_state_refreshCh_fetch (by rw [chan]; rfl) (by rw [chan]; rfl)
    case err => exact (refreshCh_keepsFields n _ _ (err_notShown n)).trans (get_set_same _ 0 s)
    case frame =>
      rw [refreshCh_frame]
      rfl
  case taken =>
    refine ⟨_, exec_descriptorLoaded n s, ?_⟩
    rw [descriptorLoaded_ok due fenced bad active issued running fromMemory ok noQueue, chOf_refreshCh, takeDesc, chOf_setCh_same _ inFetched,
      chOf_fetched_same inList]
    refine ⟨rfl, rfl, rfl, rfl, rfl, fun k hk => ?_, refreshCh_mem ..⟩
    rw [chOf_refreshCh, chOf_setCh_ne _ _ (Fin.val_ne_of_ne hk), chOf_fetched_ne _ (Fin.val_ne_of_ne hk)]
  case halted =>
    refine ⟨_, exec_descriptorLoaded n s, ?_⟩
    rw [descriptorLoaded_bad due fenced bad active issued running fromMemory wrong]
    refine ⟨?idle, get_state_chHalt 1 _ inFetched, get_err_chHalt _ _ (by decide), ?log, fun k hk => ?others, chHalt_mem ..⟩
    case idle => rw [chOf_chHalt, chOf_chStop_same 4 inFetched]
    case log => exact (chHalt_logs ..).trans (fault_log_of_frame (s := s) (t := fetched n s) rfl ..)
    case others => rw [chOf_chHalt, chOf_chStop_ne 4 _ (Fin.val_ne_of_ne hk), chOf_fetched_ne _ (Fin.val_ne_of_ne hk)]

/-! ## Lines (R282, R285) -/

theorem dmaLineArrival_single {n : Nat} {s : State} {f : Flight} (line : (chOf n s).fetchIssued = false) (due : dueFlights n s = [f])
    (fenced : f.fenced = false) (bad : f.bad = false) : dmaLineArrival n s =
      refreshCh n (setCh n (fun c => { c with staged := c.staged ++ [⟨s.now, f.data⟩], inFlight := c.inFlight - 1 }) (dropFlights n s)) := by
  simp only [dmaLineArrival, line, due, List.foldl_cons, List.foldl_nil, noteRead_clean fenced bad]
  rfl

theorem exec_dmaLineArrival (n : Nat) (s : State) : exec (.dmaLineArrival n) s = .next (dmaLineArrival n s) := rfl

theorem dmaPortLineOut_fifo {n : Nat} {s : State} {l : Staged} {rest : List Staged} (staged : (chOf n s).staged = l :: rest)
    (active : (chOf n s).active = true) (running : (chOf n s).aborting = none) (old : l.arrived + 4 ≤ s.now)
    (toFifo : (chDest (chOf n s)).1 = 1) (room : s.dma.fifo.length < 64) :
    dmaPortLineOut n s = unstage n { s with dma.fifo := s.dma.fifo ++ [l.data] } := by
  have young : ¬ s.now < l.arrived + 4 := by omega
  simp [dmaPortLineOut, staged, active, running, young, toFifo, room]

theorem chOf_unstage_same {n : Nat} {s : State} (h : n < s.dma.chans.length) : chOf n (unstage n s) =
    { chOf n s with staged := (chOf n s).staged.drop 1, writes := (chOf n s).writes + 1 } :=
  (chOf_refreshCh ..).trans (chOf_setCh_same _ h)

theorem chOf_unstage_ne {n k : Nat} (s : State) (h : k ≠ n) : chOf k (unstage n s) = chOf k s :=
  (chOf_refreshCh ..).trans (chOf_setCh_ne _ s h)

theorem exec_dmaPortLineOut (n : Nat) (s : State) : exec (.dmaPortLineOut n) s = .next (dmaPortLineOut n s) := rfl

/-! ## Completion (R291) -/

theorem frameCh_eq_false {c : DmaCh} {d : Desc} (desc : c.desc = some d) (source : d.skind < 3) (dest : d.dkind < 3) : frameCh c = false := by
  have s3 : d.skind ≠ 3 := by omega
  have d3 : d.dkind ≠ 3 := by omega
  simp [frameCh, desc, s3, d3]

theorem raise_frame (src : Nat) (s : State) : raise src s = { s with evt := (raise src s).evt } := by
  unfold raise
  by_cases allowed : raisedNow src s < (if src = 0x08 then 3 else 1)
  · rw [if_pos allowed]
  · rw [if_neg allowed]

/-- Channel `n` is through with descriptor `d`: TAG shows its tag and PULSE raises the channel's event (R291). -/
def descDone (n : Nat) (d : Desc) (s : State) : State :=
  setCh n (fun c => { c with desc := none, granted := false })
    (if d.pulse then raise (0x40 + n) (set (DMA_CH_TAG.TAG n) d.tag s) else set (DMA_CH_TAG.TAG n) d.tag s)

theorem descDone_eq (n : Nat) (d : Desc) (s : State) : ∃ evt, descDone n d s =
    setCh n (fun c => { c with desc := none, granted := false }) { set (DMA_CH_TAG.TAG n) d.tag s with evt := evt } := by
  unfold descDone
  split
  · rw [raise_frame]
    exact ⟨_, rfl⟩
  · exact ⟨_, rfl⟩

theorem length_descDone (n : Nat) (d : Desc) (s : State) : (descDone n d s).dma.chans.length = s.dma.chans.length := by
  obtain ⟨evt, e⟩ := descDone_eq n d s
  rw [e, length_setCh]
  rfl

theorem chOf_descDone {n : Nat} (d : Desc) {s : State} (h : n < s.dma.chans.length) :
    chOf n (descDone n d s) = { chOf n s with desc := none, granted := false } := by
  obtain ⟨evt, e⟩ := descDone_eq n d s
  rw [e]
  exact chOf_setCh_same _ h

theorem get_tag_descDone (n : Nat) (d : Desc) (s : State) : get (DMA_CH_TAG.TAG n) (descDone n d s) = d.tag % 2 ^ 32 := by
  obtain ⟨evt, e⟩ := descDone_eq n d s
  rw [e]
  exact get_set_same (DMA_CH_TAG.TAG n) d.tag s

theorem descDone_mem (n : Nat) (d : Desc) (s : State) : (descDone n d s).mem = s.mem := by
  obtain ⟨evt, e⟩ := descDone_eq n d s
  rw [e]
  rfl

theorem descDone_raises {n : Nat} {d : Desc} (pulse : d.pulse = true) (s : State) : raises (0x40 + n) s (descDone n d s) := by
  rw [descDone, if_pos pulse]
  exact raise_raises (0x40 + n) (set (DMA_CH_TAG.TAG n) d.tag s)

/-- Channel `n` fetches the descriptor at `a`, which DMA_CH_DESC shows (R291). -/
def fetchNext (n : Nat) (a : Nat) (s : State) : State :=
  refreshCh n (setCh n (fun c => { c with fetch := some a, fetchIssued := false })
    (set (DMA_CH_DESC_LO.ADDR n) (a / 64) (set (DMA_CH_DESC_HI.ADDR n) (a / 2 ^ 32) s)))

theorem chOf_fetchNext {n : Nat} (a : Nat) {s : State} (h : n < s.dma.chans.length) :
    chOf n (fetchNext n a s) = { chOf n s with fetch := some a, fetchIssued := false } :=
  (chOf_refreshCh ..).trans (chOf_setCh_same _ h)

theorem get_tag_fetchNext (n a : Nat) (s : State) : get (DMA_CH_TAG.TAG n) (fetchNext n a s) = get (DMA_CH_TAG.TAG n) s := by
  refine (refreshCh_keepsFields n _ _ (tag_notShown n)).trans ((get_set_ne _ _ _ _ ?_).trans (get_set_ne _ _ _ _ ?_))
  · simp only [Fld.key]
    omega
  · simp only [Fld.key]
    omega

theorem dmaDescriptorComplete_memory {n : Nat} {s : State} {d : Desc} (active : (chOf n s).active = true)
    (running : (chOf n s).aborting = none) (desc : (chOf n s).desc = some d) (source : d.skind < 3) (dest : d.dkind < 3)
    (written : (chOf n s).total ≤ (chOf n s).writes) (empty : (chOf n s).staged = []) (sound : (chOf n s).haltAtEnd = false)
    (uncounted : d.cnt = false) :
    dmaDescriptorComplete n s = if d.last then chStop n 0 (descDone n d s) else fetchNext n d.next (descDone n d s) := by
  have memory : frameCh (chOf n s) = false := frameCh_eq_false desc source dest
  have todo : ¬ (chOf n s).writes < (chOf n s).total := by omega
  unfold dmaDescriptorComplete
  simp [active, running, chBusy, desc, todo, empty, memory, frameEnd, sound, countDone, uncounted, descDone, fetchNext]

theorem exec_dmaDescriptorComplete (n : Nat) (s : State) : exec (.dmaDescriptorComplete n) s = .next (dmaDescriptorComplete n s) := rfl

/-! ## Abort (R305) -/

theorem dmaAbort_running {n : Nat} {s : State} (active : (chOf n s).active = true) (running : (chOf n s).aborting = none) :
    dmaAbort n s = setCh n (fun c => { c with aborting := some s.now }) s := by
  simp [dmaAbort, active, running]

theorem exec_dmaAbort (n : Nat) (s : State) : exec (.dmaAbort n) s = .next (dmaAbort n s) := rfl

theorem frameEnd_frame (n res : Nat) (s : State) : frameEnd n res s = { s with hfr := (frameEnd n res s).hfr } := by
  unfold frameEnd
  split
  · split
    · rfl
    · rfl
  · rfl

/-- What an aborted channel leaves: the end of a frame it carried, and no line on its way. -/
def abortLeft (n : Nat) (s : State) : State := dropFlights n (frameEnd n 0x18 s)

theorem abortLeft_frame (n : Nat) (s : State) :
    abortLeft n s = { s with memory := (abortLeft n s).memory, hfr := (abortLeft n s).hfr } := by
  rw [abortLeft, frameEnd_frame]
  rfl

/-- Channel `n` after its abort: nothing is staged, and STATE and the log show the abort (R305). -/
def abortEnd (n : Nat) (s : State) : State := fault 0x0702 n 0 0 (chStop n 5 (abortLeft n s))

theorem dmaAbortComplete_quiet {n : Nat} {s : State} (aborting : (chOf n s).aborting ≠ none) (noFlight : s.memory.flight = [])
    (noRead : s.memory.reading = []) : dmaAbortComplete n s = abortEnd n s := by
  simp [dmaAbortComplete, Option.isSome_iff_ne_none, aborting, noFlight, noRead, abortLeft, abortEnd]

section
variable {n : Nat} {s : State} (h : n < s.dma.chans.length)
include h

theorem lt_length_abortLeft : n < (abortLeft n s).dma.chans.length := by rwa [abortLeft_frame]

theorem chOf_abortEnd : (chOf n (abortEnd n s)).active = false ∧ (chOf n (abortEnd n s)).staged = [] := by
  rw [abortEnd, chOf_congr (fault_dma ..), chOf_chStop_same 5 (lt_length_abortLeft h)]
  exact ⟨rfl, rfl⟩

theorem get_state_abortEnd : get (DMA_CH_STAT.STATE n) (abortEnd n s) = 5 :=
  (get_fault_chStat rfl (by simp) ..).trans (get_state_chStop (lt_length_abortLeft h) (by decide))

end

theorem abortEnd_logs (n : Nat) (s : State) : logs 0x0702 n 0 0 s (abortEnd n s) :=
  (fault_log_chStop ..).trans (fault_log_of_frame (by rw [abortLeft_frame]) ..)

theorem abortEnd_mem (n : Nat) (s : State) : (abortEnd n s).mem = s.mem := by
  rw [abortEnd, fault_mem, chStop_frame, abortLeft_frame]

theorem exec_dmaAbortComplete (n : Nat) (s : State) : exec (.dmaAbortComplete n) s = .next (dmaAbortComplete n s) := rfl

/-! ## Register writes (R307) -/

section
variable {a n : Nat} (chan : (a - 0x40700000) / 0x40 = n) (reg : (a - 0x40700000) % 0x40 = 0x10)
include chan reg

theorem dmaApply_count (v : Nat) (s : State) : dmaApply a v s = set (DMA_CH_COUNT.COUNT n) v s := by
  unfold dmaApply
  rw [reg, chan]
  rfl

theorem dmaChRegWrite_count (known : ¬ (a < 0x40700000 ∨ 32 ≤ n)) (v : Nat) (s : State) : dmaChRegWrite a v s =
    if (chOf n s).active then set (DMA_CH_STAT.BUSY_WR n) 1 s
    else if s.plan.running then { s with evt.later := s.evt.later ++ [(a, v)] }
    else set (DMA_CH_COUNT.COUNT n) v s := by
  simp only [dmaChRegWrite, chan, reg, dmaApply_count chan reg, if_neg known]
  simp

end

theorem exec_dmaChRegWrite (a v : Nat) (s : State) : exec (.dmaChRegWrite a v) s = .next (dmaChRegWrite a v s) := rfl

/-- Settles O39: lines move by `dmaLineArrival_single` and `dmaPortLineOut_fifo`; a completion, an abort and a register write each by the
equation of their function. -/
theorem channelsMoveLinesEndAndAbort : Obligations.ChannelsMoveLinesEndAndAbort := by
  refine ⟨fun s n chans => ?lines, fun s n chans => ?ends⟩
  case lines =>
    have inList : n.val < s.dma.chans.length := by omega
    refine ⟨fun f line due fenced bad => ?arrives, fun l rest staged active running old toFifo room => ?leaves⟩
    case arrives =>
      refine ⟨_, exec_dmaLineArrival n s, ?_⟩
      rw [dmaLineArrival_single line due fenced bad, chOf_refreshCh, chOf_setCh_same (s := dropFlights n s) _ inList]
      refine ⟨rfl, rfl, fun k hk => (chOf_refreshCh ..).trans (chOf_setCh_ne _ _ (Fin.val_ne_of_ne hk)), ?gone, refreshCh_mem ..⟩
      case gone =>
        rw [refreshCh_frame]
        exact dueFlights_dropFlights n s
    case leaves =>
      refine ⟨_, exec_dmaPortLineOut n s, ?_⟩
      rw [dmaPortLineOut_fifo staged active running old toFifo room]
      have left := chOf_unstage_same (s := { s with dma.fifo := s.dma.fifo ++ [l.data] }) inList
      refine ⟨?fifo, ?_, ?_, fun k hk => chOf_unstage_ne _ (Fin.val_ne_of_ne hk), refreshCh_mem ..⟩
      case fifo => exact congrArg DmaState.fifo (refreshCh_dma ..)
      · rw [left]
        exact congrArg (List.drop 1) staged
      · rw [left]
        rfl
  case ends =>
    have inList : n.val < s.dma.chans.length := by omega
    refine ⟨fun d active running desc source dest written empty sound uncounted => ?complete, fun active running => ?abort,
      fun aborting noFlight noRead => ?aborted, fun v => ?writes⟩
    case complete =>
      have inDone : n.val < (descDone n d s).dma.chans.length := by rwa [length_descDone]
      have completed := dmaDescriptorComplete_memory active running desc source dest written empty sound uncounted
      refine ⟨fun last => ⟨_, exec_dmaDescriptorComplete n s, ?_⟩, fun more => ⟨_, exec_dmaDescriptorComplete n s, ?_⟩⟩
      · rw [completed, if_pos last, chOf_chStop_same 0 inDone]
        refine ⟨rfl, get_state_chStop inDone (by decide), ?tag, fun pulse => ?pulse, ?mem⟩
        case tag => exact (chStop_keepsFields n 0 _ _ (tag_notShown n)).trans (get_tag_descDone n d s)
        case pulse =>
          rw [raises, chStop_frame]
          exact descDone_raises pulse s
        case mem =>
          rw [chStop_frame]
          exact descDone_mem n d s
      · rw [completed, if_neg (by simp [more]), chOf_fetchNext _ inDone, chOf_descDone d inList]
        exact ⟨active, rfl, rfl, (get_tag_fetchNext ..).trans (get_tag_descDone n d s), (refreshCh_mem ..).trans (descDone_mem n d s)⟩
    case abort =>
      refine ⟨_, exec_dmaAbort n s, ?_⟩
      rw [dmaAbort_running active running]
      exact ⟨chOf_setCh_same _ inList, fun k hk => chOf_setCh_ne _ s (Fin.val_ne_of_ne hk), rfl⟩
    case aborted =>
      refine ⟨_, exec_dmaAbortComplete n s, ?_⟩
      rw [dmaAbortComplete_quiet aborting noFlight noRead]
      obtain ⟨idle, discarded⟩ := chOf_abortEnd inList
      exact ⟨idle, discarded, get_state_abortEnd inList, abortEnd_logs n s, abortEnd_mem n s⟩
    case writes =>
      have written := dmaChRegWrite_count (a := 0x40700010 + 0x40 * n.val) (n := n) (by omega) (by omega) (by omega) v s
      refine ⟨fun active => ⟨_, exec_dmaChRegWrite .., ?_⟩, fun idle slots => ⟨_, exec_dmaChRegWrite .., ?_⟩,
        fun idle noSlots => ⟨_, exec_dmaChRegWrite .., ?_⟩⟩
      · rw [written, if_pos active]
      · simp [written, idle, slots]
      · simp [written, idle, noSlots]

end Sys2Proof.Machine
end

section
/-! PROOFS of the family 09_tramlines: what the core's event instructions do (O9), how events reach their stops (O40), and what the event
registers and the EVT pins do (O41). -/

namespace Sys2Proof.Machine

/-! ## The counts of a stop (R314) -/

theorem look_put_same (l : List (Nat × Nat)) (k v d : Nat) : look (put l k v) k d = v := by simp [look, put]

theorem look_put_ne {k j : Nat} (h : j ≠ k) (l : List (Nat × Nat)) (v d : Nat) : look (put l k v) j d = look l j d := by
  have same (p : Nat × Nat) : (p.1 ≠ k ∧ p.1 = j) ↔ p.1 = j := ⟨And.right, fun e => ⟨e ▸ h, e⟩⟩
  simp [look, put, h.symm, List.find?_filter, same, Bool.beq_eq_decide_eq]

theorem hasRun_consume_ne {stop st : Nat} (h : st ≠ stop) (s : State) : hasRun st (consume stop s) = hasRun st s := by
  simp [hasRun, consume, h]

theorem canRun_of_hasRun {stop : Nat} {s : State} (h : hasRun stop s = true) : canRun stop s = false := by simp [canRun, h]

/-- What the evaluation of a slot finds at a stop: its count with the arrivals, less what its task used. -/
def slotCount (st : Nat) (s : State) : Nat := get (EVT_STOP_CNT.COUNT st) s + look s.evt.fresh st 0 - b2n (hasRun st s)

theorem evalStop_within {st : Nat} {s : State} (h : slotCount st s ≤ 15) : evalStop st s = set (EVT_STOP_CNT.COUNT st) (slotCount st s) s :=
  if_pos h

theorem evalStop_beyond {st : Nat} {s : State} (h : 15 < slotCount st s) : evalStop st s =
    if on (EVT_STOP_CNT.OVERRUN st) s then set (EVT_STOP_CNT.COUNT st) 15 s
    else fault 0x0801 st 0 0 (set (EVT_STOP_CNT.OVERRUN st) 1 (set (EVT_STOP_CNT.COUNT st) 15 s)) :=
  if_neg (Nat.not_le.mpr h)

theorem count_not_log {st : Nat} (hst : st < 64) :
    (EVT_STOP_CNT.COUNT st).key ≠ LOG_ESEQ.NEXT.key ∧ (EVT_STOP_CNT.COUNT st).key ≠ LOG_STAT.LOST.key := by
  simp only [Fld.key]
  omega

theorem overrun_not_log {st : Nat} (hst : st < 64) :
    (EVT_STOP_CNT.OVERRUN st).key ≠ LOG_ESEQ.NEXT.key ∧ (EVT_STOP_CNT.OVERRUN st).key ≠ LOG_STAT.LOST.key := by
  simp only [Fld.key]
  omega

theorem get_count_evalStop {st : Nat} (hst : st < 64) (s : State) :
    get (EVT_STOP_CNT.COUNT st) (evalStop st s) = Nat.min 15 (slotCount st s) := by
  by_cases within : slotCount st s ≤ 15
  · rw [evalStop_within within, get_set_same]
    exact (Nat.mod_eq_of_lt (by dsimp only; omega)).trans (Nat.min_eq_right within).symm
  · have beyond : 15 < slotCount st s := by omega
    have shown : get (EVT_STOP_CNT.COUNT st) (set (EVT_STOP_CNT.COUNT st) 15 s) = 15 := get_set_same ..
    obtain ⟨eseq, lost⟩ := count_not_log hst
    rw [evalStop_beyond beyond, show Nat.min 15 (slotCount st s) = 15 from Nat.min_eq_left (Nat.le_of_lt beyond)]
    split
    · exact shown
    · rw [get_fault _ _ _ _ _ _ eseq lost, get_set_ne _ _ _ _ (by simp [Fld.key]), shown]

theorem get_overrun_evalStop {st : Nat} (hst : st < 64) {s : State} (beyond : 15 < slotCount st s) :
    get (EVT_STOP_CNT.OVERRUN st) (evalStop st s) = 1 := by
  obtain ⟨eseq, lost⟩ := overrun_not_log hst
  rw [evalStop_beyond beyond]
  split
  case isTrue already =>
    rw [get_set_ne _ _ _ _ (by simp [Fld.key])]
    exact beq_iff_eq.mp already
  case isFalse =>
    rw [get_fault _ _ _ _ _ _ eseq lost]
    exact get_set_same ..

theorem evalStop_logs {st : Nat} (hst : st < 64) {s : State} (beyond : 15 < slotCount st s)
    (first : get (EVT_STOP_CNT.OVERRUN st) s = 0) : logs 0x0801 st 0 0 s (evalStop st s) := by
  have off : ¬ on (EVT_STOP_CNT.OVERRUN st) s = true := by simp [on, first]
  obtain ⟨count, -⟩ := count_not_log hst
  obtain ⟨overrun, -⟩ := overrun_not_log hst
  rw [evalStop_beyond beyond, if_neg off]
  exact (fault_log_set overrun.symm ..).trans (fault_log_set count.symm ..)

/-! ## Events of the SW sources (R312) -/

theorem raised_raise (src : Nat) (s : State) :
    (raise src s).evt.raised = s.evt.raised ++ [(s.now, src)] ∨ raise src s = s := by
  by_cases allowed : raisedNow src s < (if src = 0x08 then 3 else 1)
  · simp [raise, allowed]
  · simp [raise, allowed]

theorem raisedNow_raise_ne {a b : Nat} (h : a ≠ b) (s : State) : raisedNow a (raise b s) = raisedNow a s := by
  rcases raised_raise b s with added | same
  · simp [raisedNow, added, h.symm]
  · rw [same]

theorem mem_raised_raise {e : Nat × Nat} {s : State} (h : e ∈ s.evt.raised) (src : Nat) : e ∈ (raise src s).evt.raised := by
  rcases raised_raise src s with added | same
  · exact added ▸ List.mem_append_left _ h
  · exact same.symm ▸ h

/-- Bit `i` of EVT_SW raises the event of SW`i`. -/
def raiseSw (v : Nat) (s : State) (i : Nat) : State := if bit v i then raise (0xC0 + i) s else s

theorem raiseSw_frame (v : Nat) (s : State) (i : Nat) : raiseSw v s i = { s with evt := (raiseSw v s i).evt } := by
  unfold raiseSw
  split
  · exact raise_frame ..
  · rfl

theorem raiseAll_frame (v : Nat) (l : List Nat) (s : State) : l.foldl (raiseSw v) s = { s with evt := (l.foldl (raiseSw v) s).evt } := by
  have rest := foldl_keeps (fun t => { t with evt := s.evt }) (f := raiseSw v) (fun t i => by rw [raiseSw_frame]) l s
  exact congrArg (fun t => { t with evt := (l.foldl (raiseSw v) s).evt }) rest

theorem mem_raised_raiseSw {e : Nat × Nat} {s : State} (h : e ∈ s.evt.raised) (v i : Nat) : e ∈ (raiseSw v s i).evt.raised := by
  unfold raiseSw
  split
  · exact mem_raised_raise h _
  · exact h

theorem raisedNow_raiseSw_ne {i j : Nat} (h : i ≠ j) (v : Nat) (s : State) :
    raisedNow (0xC0 + i) (raiseSw v s j) = raisedNow (0xC0 + i) s := by
  unfold raiseSw
  split
  · exact raisedNow_raise_ne (by omega) s
  · rfl

theorem raiseAll_raises {v i : Nat} {l : List Nat} (hi : i ∈ l) (high : bit v i = true) (s : State) :
    raises (0xC0 + i) s (l.foldl (raiseSw v) s) := by
  induction l generalizing s with
  | nil => simp at hi
  | cons j l ih =>
    intro noneYet
    by_cases same : i = j
    · subst same
      have raised : (s.now, 0xC0 + i) ∈ (raiseSw v s i).evt.raised := by
        rw [raiseSw, if_pos high]
        exact raise_raises _ s noneYet
      exact List.foldlRecOn (motive := fun t => (s.now, 0xC0 + i) ∈ t.evt.raised) l (raiseSw v) raised fun _ kept k _ =>
        mem_raised_raiseSw kept v k
    · have now : (raiseSw v s j).now = s.now := by rw [raiseSw_frame]
      have tail := ih (List.mem_of_ne_of_mem same hi) (raiseSw v s j) ((raisedNow_raiseSw_ne same v s).trans noneYet)
      rwa [now] at tail

theorem evtApply_sw (v : Nat) (s : State) : evtApply EVT_SW.addr v s = (List.range 16).foldl (raiseSw v) s := rfl

/-! ## Writes of the event registers (R311, R316, R323) -/

theorem evtWrite_running {s : State} (slots : s.plan.running = true) (a v : Nat) :
    evtWrite a v s = { s with evt.later := s.evt.later ++ [(a, v)] } := if_pos slots

theorem evtWrite_stopped {s : State} (noSlots : s.plan.running = false) (a v : Nat) : evtWrite a v s = evtApply a v s := by
  simp [evtWrite, noSlots]

theorem evtApply_lineSrc {n : Nat} (hn : n < 64) (v : Nat) (s : State) :
    evtApply (0x40780000 + 4 * n) v s = set (EVT_LINE_SRC.SRC n) v s := by
  have line : (0x40780000 + 4 * n - 0x40780000) / 4 = n := by omega
  rw [evtApply, if_pos (by omega), line]

theorem evtLineSrcWrite_known {n v : Nat} (hn : n < 64) (known : sourceKnown (v % 256) = true) {s : State}
    (noSlots : s.plan.running = false) : evtLineSrcWrite n v s = set (EVT_LINE_SRC.SRC n) v (setB (EVT_LINE_SRC.BAD n) false s) := by
  rw [← evtApply_lineSrc hn, ← evtWrite_stopped (s := setB (EVT_LINE_SRC.BAD n) false s) noSlots, evtLineSrcWrite,
    if_neg (Nat.not_le.mpr hn), known]
  rfl

/-- A reserved code in the SRC of line `n` is marked and logged (R311). -/
def reservedSource (n : Nat) (s : State) : State := fault 0x0802 n 0 0 (setB (EVT_LINE_SRC.BAD n) true s)

theorem evtLineSrcWrite_reserved {n v : Nat} (hn : n < 64) (reserved : sourceKnown (v % 256) = false) {s : State}
    (slots : s.plan.running = true) :
    evtLineSrcWrite n v s = { reservedSource n s with evt.later := s.evt.later ++ [(0x40780000 + 4 * n, v)] } := by
  have running : (reservedSource n s).plan.running = true := by rw [reservedSource, fault_plan, setB_plan, slots]
  have later : (reservedSource n s).evt.later = s.evt.later := by rw [reservedSource, fault_evt, setB_evt]
  rw [evtLineSrcWrite, if_neg (Nat.not_le.mpr hn), reserved, ← later]
  exact evtWrite_running running ..

theorem stopClear_running {s : State} (slots : s.plan.running = true) (n : Nat) :
    stopClear n s = { s with evt.clears := n :: s.evt.clears } := if_pos slots

theorem stopClear_stopped {s : State} (noSlots : s.plan.running = false) (n : Nat) : stopClear n s = set (EVT_STOP_CNT.COUNT n) 0 s := by
  simp [stopClear, noSlots]

/-! ## The core's event instructions (R335) -/

/-- From `s` to `t` an instruction used a count of stop `k`, and of the state beside it only the core's own part changed. -/
def usedCount (k : Nat) (s t : State) : Prop :=
  hasRun k t = true ∧ (∀ st, st ≠ k → hasRun st t = hasRun st s) ∧
    keepsFields [SYS_SEQ_STAT.STATE, SYS_SEQ_PC.PC] s t ∧ t = { s with regs := t.regs, seq := t.seq, evt.ran := t.evt.ran } ∧
    (s.evt.fresh = [] → get (EVT_STOP_CNT.COUNT k) s ≤ 15 →
      get (EVT_STOP_CNT.COUNT k) (evalStop k t) = get (EVT_STOP_CNT.COUNT k) s - 1)

theorem hasRun_congr {s t : State} (now : t.now = s.now) (evt : t.evt = s.evt) (st : Nat) : hasRun st t = hasRun st s := by
  rw [hasRun, hasRun, now, evt]

theorem usedCount_of_consume {k : Nat} (hk : k < 64) {s t : State} (keeps : keepsFields [SYS_SEQ_STAT.STATE, SYS_SEQ_PC.PC] (consume k s) t)
    (frame : t = { consume k s with regs := t.regs, seq := t.seq }) : usedCount k s t := by
  have evt : t.evt = (consume k s).evt := by rw [frame]
  have ran := hasRun_congr (t := t) (by rw [frame]) evt
  have hasRun_k : hasRun k t = true := (ran k).trans (consume_ran k s)
  refine ⟨hasRun_k, fun st hst => (ran st).trans (hasRun_consume_ne hst s), keeps, by rw [frame]; rfl, fun noArrivals small => ?_⟩
  have count : get (EVT_STOP_CNT.COUNT k) t = get (EVT_STOP_CNT.COUNT k) s := keeps _ (by simp only [Fld.key]; simp; omega)
  have total : slotCount k t = get (EVT_STOP_CNT.COUNT k) s - 1 := by
    have fresh : t.evt.fresh = [] := by rw [evt]; exact noArrivals
    simp [slotCount, count, fresh, hasRun_k, look, b2n]
  rw [get_count_evalStop hk, total]
  exact Nat.min_eq_right (by omega)

section
variable {s : State}

theorem exec_pollev_available (issues : otherOk [] s = true) {n : BitVec 4} (h : canRun (32 + n.toNat) s = true) (d : Fin 16) :
    exec (.pollev d n) s = .next (retire 1 1 (setG d 1 2 (consume (32 + n.toNat) s))) :=
  congrArg Host.Outcome.next ((if_pos issues).trans (if_pos h))

theorem exec_pollev_empty (issues : otherOk [] s = true) {n : BitVec 4} (h : canRun (32 + n.toNat) s = false) (d : Fin 16) :
    exec (.pollev d n) s = .next (retire 1 1 (setG d 0 2 s)) :=
  congrArg Host.Outcome.next ((if_pos issues).trans (if_neg (by simp [h])))

theorem exec_waitev_available (issues : otherOk [] s = true) {n : BitVec 4} (h : canRun (32 + n.toNat) s = true) :
    exec (.waitev n) s = .next (retire 1 1 (consume (32 + n.toNat) s)) :=
  congrArg Host.Outcome.next ((if_pos issues).trans (if_pos h))

theorem exec_waitev_empty (issues : otherOk [] s = true) {n : BitVec 4} (h : canRun (32 + n.toNat) s = false) :
    exec (.waitev n) s = .next (set SYS_SEQ_STAT.STATE 2 s) :=
  congrArg Host.Outcome.next ((if_pos issues).trans (if_neg (by simp [h])))

theorem exec_fence_drained (issues : otherOk [] s = true) (h : drained s = true) : exec .fence s = .next (retire 1 1 s) :=
  congrArg Host.Outcome.next ((if_pos issues).trans (if_pos h))

theorem exec_setev_drained (issues : otherOk [] s = true) (h : drained s = true) (n : BitVec 4) :
    exec (.setev n) s = .next (retire 1 1 (evtWrite EVT_SW.addr (2 ^ n.toNat) s)) :=
  congrArg Host.Outcome.next ((if_pos issues).trans (if_pos h))

theorem exec_iflush (issues : otherOk [] s = true) : exec .iflush s = .next (retire 4 1 { s with seq.xip := [] }) :=
  congrArg Host.Outcome.next (if_pos issues)

end

theorem evtWrite_sw_frame (v : Nat) (s : State) : evtWrite EVT_SW.addr v s = { s with evt := (evtWrite EVT_SW.addr v s).evt } := by
  by_cases slots : s.plan.running = true
  · rw [evtWrite_running slots]
  · rw [evtWrite_stopped (by simpa using slots), evtApply_sw]
    exact raiseAll_frame ..

theorem evtWrite_sw_raises {s : State} (noSlots : s.plan.running = false) {v i : Nat} (hi : i < 16) (high : bit v i = true) :
    raises (0xC0 + i) s (evtWrite EVT_SW.addr v s) := by
  rw [evtWrite_stopped noSlots, evtApply_sw]
  exact raiseAll_raises (List.mem_range.mpr hi) high s

theorem bit_two_pow (n : Nat) : bit (2 ^ n) n = true :=
  congrArg (fun q => q % 2 == 1) (Nat.div_self (Nat.two_pow_pos n))

/-- Settles O9: a count is used as `usedCount_of_consume` says, setev writes EVT_SW (`evtWrite_running`, `evtWrite_sw_raises`), and the other
instructions complete without an effect outside the core. -/
theorem eventInstructionsUseTheirStop : Obligations.EventInstructionsUseTheirStop := by
  intro s d n issues k used
  have hk : k < 64 := by dsimp only [k]; omega
  have uses {t : State} : usedCount k s t → used t := id
  refine ⟨fun available => ⟨?pollAvailable, ?waitAvailable⟩, fun empty => ⟨?pollEmpty, ?waitEmpty⟩,
    fun noStore clean => ⟨?fence, ?setev⟩, ?iflush⟩
  case pollAvailable =>
    obtain ⟨same, others, pc, -, keeps, frame⟩ := coreWrote_retire d 1 2 1 1 (consume k s)
    exact ⟨_, exec_pollev_available issues available d, same, others, pc, uses (usedCount_of_consume hk keeps frame)⟩
  case waitAvailable =>
    obtain ⟨regs, pc, -, keeps, frame⟩ := coreWent_retireTo (s.seq.pc + 4) 1 1 (consume k s)
    exact ⟨_, exec_waitev_available issues available, regs, pc, uses (usedCount_of_consume hk keeps frame)⟩
  case pollEmpty => exact ⟨_, exec_pollev_empty issues empty d, coreWrote_retire d 0 2 1 1 s⟩
  case waitEmpty => exact ⟨_, exec_waitev_empty issues empty, get_set_same .., keepsFields_set _ 2 rfl, rfl⟩
  case fence =>
    exact ⟨_, exec_fence_drained issues (by simp [drained, noStore, clean]), coreWent_retireTo (s.seq.pc + 4) 1 1 s⟩
  case setev =>
    refine ⟨_, exec_setev_drained issues (by simp [drained, noStore, clean]) n, ?_⟩
    rw [evtWrite_sw_frame]
    obtain ⟨regs, pc, sys, keeps, frame⟩ := coreWent_retireTo (s.seq.pc + 4) 1 1 { s with evt := (evtWrite EVT_SW.addr (2 ^ n.toNat) s).evt }
    refine ⟨pc, regs, sys, keeps, frame, fun slots => ?_, fun noSlots => ?_⟩
    · rw [evtWrite_running slots]
      rfl
    · exact evtWrite_sw_raises noSlots n.isLt (bit_two_pow _)
  case iflush => exact ⟨_, exec_iflush issues, coreWent_retireTo (s.seq.pc + 4) 4 1 { s with seq.xip := [] }, rfl⟩

/-! ## Delivery (R310, R313) -/

theorem look_arrive (stop n st : Nat) (s : State) :
    look (arrive stop n s).evt.fresh st 0 = look s.evt.fresh st 0 + if st = stop then n else 0 := by
  by_cases same : st = stop
  · subst same
    simp [arrive, look_put_same]
  · simp [arrive, look_put_ne same, same]

/-- How many events of the lines reach a stop through its mask. -/
def arrivals (lines : List Nat) (s : State) (st : Nat) : Nat := (lines.filter (fun n => inMask st n s)).length

/-- A stop takes what arrives at it. -/
def takeArrivals (n : Nat → Nat) (s : State) (st : Nat) : State := if n st = 0 then s else arrive st (n st) s

theorem look_takeArrivals (n : Nat → Nat) (s : State) (j st : Nat) :
    look (takeArrivals n s j).evt.fresh st 0 = look s.evt.fresh st 0 + if st = j then n j else 0 := by
  by_cases none : n j = 0
  · simp [takeArrivals, none]
  · rw [takeArrivals, if_neg none, look_arrive]

theorem look_takeAll {n : Nat → Nat} {l : List Nat} (once : l.Nodup) (s : State) (st : Nat) :
    look (l.foldl (takeArrivals n) s).evt.fresh st 0 = look s.evt.fresh st 0 + if st ∈ l then n st else 0 := by
  induction l generalizing s with
  | nil => simp
  | cons j l ih =>
    obtain ⟨notTail, once⟩ := List.nodup_cons.mp once
    rw [List.foldl_cons, ih once, look_takeArrivals]
    by_cases same : st = j
    · subst same
      simp [notTail]
    · simp [same]

theorem takeAll_frame (n : Nat → Nat) (l : List Nat) (s : State) : ∃ fresh, l.foldl (takeArrivals n) s = { s with evt.fresh := fresh } := by
  refine List.foldlRecOn (motive := fun (t : State) => ∃ fresh, t = { s with evt.fresh := fresh }) l _ ⟨s.evt.fresh, rfl⟩ ?_
  rintro _ ⟨fresh, rfl⟩ st -
  unfold takeArrivals
  split
  · exact ⟨fresh, rfl⟩
  · exact ⟨_, rfl⟩

/-- An output pin whose line is among those delivered is due two slots later (R317). -/
def duePin (lines : List Nat) (s : State) (p : Nat) : State :=
  if on (EVT_PIN.DIR p) s && lines.contains (get (EVT_PIN.LINE p) s) then { s with evt.pinDue := s.evt.pinDue ++ [(p, s.now + 2)] } else s

theorem duePins_frame (lines l : List Nat) (s : State) : ∃ due, l.foldl (duePin lines) s = { s with evt.pinDue := due } := by
  refine List.foldlRecOn (motive := fun (t : State) => ∃ due, t = { s with evt.pinDue := due }) l _ ⟨s.evt.pinDue, rfl⟩ ?_
  rintro _ ⟨due, rfl⟩ p -
  unfold duePin
  split
  · exact ⟨_, rfl⟩
  · exact ⟨due, rfl⟩

/-- The lines are seen, then the stops take their arrivals, then the pins fall due. -/
theorem deliverLines_eq {lines : List Nat} {s seen : State} (h : lines.eraseDups.foldl (fun s n => seeLine n s) s = seen) :
    deliverLines lines s = (List.range 4).foldl (duePin lines) ((List.range 57).foldl (takeArrivals (arrivals lines seen)) seen) := by
  subst h
  rfl

/-- Line `n` of the lower half shows that it carried an event (R323). -/
def seenLow (n : Nat) (s : State) : State := set EVT_SEEN_LO.SEEN (get EVT_SEEN_LO.SEEN s ||| 2 ^ n) s

theorem arrivals_single {st : Nat} (hst : st < 57) {n : Nat} (hn : n < 32) (s : State) :
    arrivals [n] (seenLow n s) st = b2n (inMask st n s) := by
  have mask : inMask st n (seenLow n s) = inMask st n s := by
    rw [inMask, inMask, if_pos hn, if_pos hn, seenLow, get_set_ne _ _ _ _ (by simp only [Fld.key]; omega)]
  rw [arrivals, ← mask]
  by_cases listens : inMask st n (seenLow n s) = true
  · simp [listens, b2n]
  · simp [listens, b2n]

theorem deliverLines_single {n : Nat} (hn : n < 32) (s : State) :
    ∃ fresh due, deliverLines [n] s = { seenLow n s with evt.fresh := fresh, evt.pinDue := due } ∧
      ∀ st < 57, look fresh st 0 = look s.evt.fresh st 0 + b2n (inMask st n s) := by
  have seen : [n].eraseDups.foldl (fun s n => seeLine n s) s = seenLow n s := by
    simp [List.eraseDups_cons, seeLine, hn, seenLow]
  obtain ⟨fresh, taken⟩ := takeAll_frame (arrivals [n] (seenLow n s)) (List.range 57) (seenLow n s)
  obtain ⟨due, pins⟩ := duePins_frame [n] (List.range 4) { seenLow n s with evt.fresh := fresh }
  refine ⟨fresh, due, ?_, fun st hst => ?_⟩
  · rw [deliverLines_eq seen, taken, pins]
  · have found := look_takeAll (n := arrivals [n] (seenLow n s)) (List.nodup_range (n := 57)) (seenLow n s) st
    rw [taken, if_pos (List.mem_range.mpr hst), arrivals_single hst hn] at found
    exact found

theorem eventDelivery_single {r src n : Nat} {s : State} (raised : s.evt.raised = [(r, src)]) (lines : s.evt.lines = [(r, n)])
    (before : r < s.now) : eventDelivery s = deliverLines [n] { s with evt.raised := [], evt.lines := [] } := by
  simp [eventDelivery, deliverySlot, raised, lines, before]

theorem exec_eventDelivery (s : State) : exec .eventDelivery s = .next (eventDelivery s) := rfl

/-! ## Tasks of the stops (R315) -/

theorem exec_stopTask (n : Nat) (s : State) : exec (.stopTask n) s = .next (stopTask n s) := rfl

theorem stopTask_host {s : State} (available : canRun 56 s = true) : stopTask 56 s = set HFR_ATTN.STOP 1 (consume 56 s) := by
  simp [stopTask, stopEffect, available]

theorem stopTask_host_idle {s : State} (none : canRun 56 s = false) : stopTask 56 s = s := by simp [stopTask, none]

theorem stopTask_channel {n : Nat} (hn : n < 32) {s : State} (active : (chOf n s).active = true) (memory : frameCh (chOf n s) = false)
    (paced : get (DMA_CH_PACE.MODE n) s = 1) (asks : (chOf n s).granted = false) (available : canRun n s = true)
    (source : get (DMA_CH_CTRL.DSRC n) s = 0) (next : (chOf n s).fetch.isSome = true) (waits : (chOf n s).fetchIssued = false) :
    stopTask n s = setCh n (fun c => { c with granted := true }) (consume n s) := by
  simp [stopTask, hn, dmaGrant, active, memory, paced, asks, available, cqMode_eq_false source, next, waits]

/-- Settles O40: `deliverLines_single` for the delivery, the lemmas of `evalStop` for the evaluation, and the equations of `stopTask`. -/
theorem eventsReachTheirStops : Obligations.EventsReachTheirStops := by
  refine fun s => ⟨fun r src n raised lines before hn => ?delivered, fun st hst => ?evaluated, fun available => ?task, fun none => ?idle,
    fun n chans active memory paced asks available source next waits => ?granted⟩
  case delivered =>
    obtain ⟨fresh, due, delivered, arrived⟩ := deliverLines_single hn { s with evt.raised := [], evt.lines := [] }
    refine ⟨_, exec_eventDelivery s, ?_⟩
    rw [eventDelivery_single raised lines before, delivered]
    exact ⟨rfl, rfl, arrived, get_set_same .., keepsFields_set EVT_SEEN_LO.SEEN (get EVT_SEEN_LO.SEEN s ||| 2 ^ n) rfl, rfl⟩
  case evaluated =>
    have hst : st < 64 := by omega
    exact ⟨get_count_evalStop hst s, get_overrun_evalStop hst, evalStop_logs hst⟩
  case task =>
    refine ⟨_, exec_stopTask 56 s, ?_⟩
    rw [stopTask_host available]
    have ran : hasRun 56 (set HFR_ATTN.STOP 1 (consume 56 s)) = true := consume_ran 56 s
    exact ⟨get_set_same .., ran, keepsFields_set _ 1 rfl, canRun_of_hasRun ran, rfl⟩
  case idle => exact ⟨_, exec_stopTask 56 s, stopTask_host_idle none⟩
  case granted =>
    refine ⟨_, exec_stopTask n s, ?_⟩
    rw [stopTask_channel n.isLt active memory paced asks available source next waits]
    exact ⟨chOf_setCh_same (s := consume n s) _ (by rw [consume_dma]; omega), consume_ran n s,
      fun k hk => chOf_setCh_ne _ (consume n s) (Fin.val_ne_of_ne hk), rfl⟩

/-! ## The EVT pins (R317) -/

theorem evtPinInputEdge_selected {p : Nat} (hp : p < 4) {rising : Bool} {s : State} (input : get (EVT_PIN.DIR p) s = 0)
    (selected : get (EVT_PIN.EDGE p) s = 2 ∨ get (EVT_PIN.EDGE p) s = (if rising then 0 else 1)) (fabric : s.pwr.fabricStopped = false) :
    evtPinInputEdge p rising s = { s with evt.pinDue := s.evt.pinDue ++ [(4 + p, s.now + 3)] } := by
  have edge : get (EVT_PIN.EDGE p) s = 2 ∨ (get (EVT_PIN.EDGE p) s = 0 ∧ rising = true) ∨ (get (EVT_PIN.EDGE p) s = 1 ∧ rising = false) := by
    cases rising
    · simpa using selected
    · simpa using selected
  simp [evtPinInputEdge, hp, on, input, edge, fabric]

theorem evtPinPulseStart_due {p : Nat} {s : State} (output : get (EVT_PIN.DIR p) s = 1) (due : (p, s.now) ∈ s.evt.pinDue) :
    evtPinPulseStart p s = { s with evt.pinDue := s.evt.pinDue.filter (fun e => !(e.1 == p && decide (e.2 ≤ s.now))),
                                    evt.pinOn := put s.evt.pinOn p (s.now + evtWidth p s) } := by
  have pending : s.evt.pinDue.any (fun e => e.1 == p && decide (e.2 ≤ s.now)) = true := List.any_eq_true.mpr ⟨_, due, by simp⟩
  rw [evtPinPulseStart, pending, on, output]
  rfl

/-! ## The commands of the event registers and pins -/

theorem exec_evtLineSrcWrite (n v : Nat) (s : State) : exec (.evtLineSrcWrite n v) s = .next (evtLineSrcWrite n v s) := rfl

theorem exec_evtSw (v : Nat) (s : State) : exec (.evtSw v) s = .next (evtWrite EVT_SW.addr v s) := rfl

theorem exec_clr {n : Nat} (hn : n < 64) (s : State) : exec (.clr n) s = .next (stopClear n s) :=
  congrArg (fun k => Host.Outcome.next (stopClear k s)) (Nat.mod_eq_of_lt hn)

theorem exec_evtPinInputEdge (p : Nat) (rising : Bool) (s : State) :
    exec (.evtPinInputEdge p rising) s = .next (evtPinInputEdge p rising s) := rfl

theorem exec_evtPinPulseStart (p : Nat) (s : State) : exec (.evtPinPulseStart p) s = .next (evtPinPulseStart p s) := rfl

theorem exec_evtPinPulseEnd (p : Nat) (s : State) : exec (.evtPinPulseEnd p) s = .next (evtPinPulseEnd p s) := rfl

/-- Settles O41: while slots run a write waits (`evtWrite_running`, `stopClear_running`), else it acts at once; the pins by their equations. -/
theorem eventRegistersAndPinsAct : Obligations.EventRegistersAndPinsAct := by
  refine ⟨fun s n v => ⟨fun known noSlots => ?lineTaken, fun reserved slots => ?lineReserved, fun slots => ?swWaits, fun noSlots => ?swActs,
    fun slots => ?clearWaits, fun noSlots => ?clearActs⟩, fun s p rising => ⟨fun input selected fabric => ?edge, fun output due => ?starts,
    fun e pulse passed => ?ends⟩⟩
  case lineTaken =>
    have apart : (EVT_LINE_SRC.BAD n).key ≠ (EVT_LINE_SRC.SRC n).key := by simp [Fld.key]
    refine ⟨_, exec_evtLineSrcWrite n v s, ?_⟩
    rw [evtLineSrcWrite_known n.isLt known noSlots]
    refine ⟨get_set_same .., (get_set_ne _ _ _ _ apart).trans (get_setB_same ..), fun F hF => ?_, rfl⟩
    exact (get_set_ne _ _ _ _ (hF _ (by simp))).trans (get_setB_ne _ _ _ _ (hF _ (by simp)))
  case lineReserved =>
    have apart : LOG_ESEQ.NEXT.key ≠ (EVT_LINE_SRC.BAD n).key ∧ LOG_STAT.LOST.key ≠ (EVT_LINE_SRC.BAD n).key := by simp only [Fld.key]; omega
    obtain ⟨eseq, lost⟩ := apart
    refine ⟨_, exec_evtLineSrcWrite n v s, ?_⟩
    rw [evtLineSrcWrite_reserved n.isLt reserved slots]
    refine ⟨?_, fault_log_set eseq .., rfl⟩
    exact (get_fault _ _ _ _ _ _ eseq.symm lost.symm).trans (get_setB_same ..)
  case swWaits => exact ⟨_, exec_evtSw v s, evtWrite_running slots ..⟩
  case swActs =>
    exact ⟨_, exec_evtSw v s, fun i hi high => evtWrite_sw_raises noSlots hi high, by rw [evtWrite_sw_frame]⟩
  case clearWaits => exact ⟨_, exec_clr n.isLt s, stopClear_running slots n⟩
  case clearActs =>
    refine ⟨_, exec_clr n.isLt s, ?_⟩
    rw [stopClear_stopped noSlots]
    exact ⟨get_set_same .., keepsFields_set _ 0 rfl⟩
  case edge => exact ⟨_, exec_evtPinInputEdge p rising s, evtPinInputEdge_selected p.isLt input selected fabric⟩
  case starts =>
    refine ⟨_, exec_evtPinPulseStart p s, ?_⟩
    rw [evtPinPulseStart_due output due]
    exact ⟨look_put_same .., fun d past => by simp [past], rfl⟩
  case ends =>
    refine ⟨_, exec_evtPinPulseEnd p s, ?_⟩
    simp [evtPinPulseEnd, pulse, passed]

end Sys2Proof.Machine
end

section
/-! PROOFS of the family 10_sequencer_isa: the core's words (O14), its integer instructions (O1 to O5), its system instructions (O6 to O8), its
loads and stores (O10, O11), and interrupts, store errors and aborts (O13). -/

namespace Sys2Proof.Machine

/-! ## The fields of an instruction word (R326) -/

@[simp] theorem regOf_regBits (d : Fin 16) : regOf (regBits d) = d := by simp [regOf, regBits]

section
open BitVec
variable (major : BitVec 6) (d a b : Fin 16) (low : BitVec 14)

@[simp] theorem word5_b : (word5 major d a b low).extractLsb' 14 4 = regBits b :=
  (extractLsb'_append_eq_of_le (Nat.le_refl 14)).trans extractLsb'_append_eq_right

/-- What lies above the register b. -/
theorem word5_above_b {k n : Nat} (h : 18 ≤ k) :
    (word5 major d a b low).extractLsb' k n = (major ++ regBits d ++ regBits a).extractLsb' (k - 14 - 4) n :=
  (extractLsb'_append_eq_of_le (by omega)).trans (extractLsb'_append_eq_of_le (by omega))

@[simp] theorem word5_a : (word5 major d a b low).extractLsb' 18 4 = regBits a :=
  (word5_above_b _ _ _ _ _ (Nat.le_refl 18)).trans extractLsb'_append_eq_right

@[simp] theorem word5_d : (word5 major d a b low).extractLsb' 22 4 = regBits d :=
  (word5_above_b _ _ _ _ _ (by omega)).trans ((extractLsb'_append_eq_of_le (Nat.le_refl 4)).trans extractLsb'_append_eq_right)

@[simp] theorem word5_major : (word5 major d a b low).extractLsb' 26 6 = major :=
  (word5_above_b _ _ _ _ _ (by omega)).trans ((extractLsb'_append_eq_of_le (by omega)).trans extractLsb'_append_eq_left)

theorem word5_low {k n : Nat} (h : k + n ≤ 14) : (word5 major d a b low).extractLsb' k n = low.extractLsb' k n :=
  extractLsb'_append_eq_of_add_le h

end

section
open BitVec
variable (major : BitVec 6) (d : Fin 16) (imm : BitVec 18)

@[simp] theorem wordU_imm : (wordU major d imm).extractLsb' 0 18 = imm := extractLsb'_append_eq_right

/-- What lies above the bits that form U gives no field. -/
theorem wordU_above {k n : Nat} (h : 22 ≤ k) : (wordU major d imm).extractLsb' k n = (major ++ regBits d).extractLsb' (k - 18 - 4) n :=
  (extractLsb'_append_eq_of_le (by omega)).trans (extractLsb'_append_eq_of_le (by omega))

@[simp] theorem wordU_d : (wordU major d imm).extractLsb' 22 4 = regBits d :=
  (wordU_above _ _ _ (Nat.le_refl 22)).trans extractLsb'_append_eq_right

@[simp] theorem wordU_major : (wordU major d imm).extractLsb' 26 6 = major :=
  (wordU_above _ _ _ (by omega)).trans extractLsb'_append_eq_left

end

/-- A field on the right of a pair is read back, and so is the one on its left. -/
theorem extract_pair {k n : Nat} (x : BitVec k) (y : BitVec n) : (x ++ y).extractLsb' 0 n = y ∧ (x ++ y).extractLsb' n k = x :=
  ⟨BitVec.extractLsb'_append_eq_right, BitVec.extractLsb'_append_eq_left⟩

/-- The three parts of a bit-field instruction's low bits. -/
theorem extract_bitField (n p : BitVec 5) : (0#4 ++ n ++ p).extractLsb' 0 5 = p ∧ (0#4 ++ n ++ p).extractLsb' 5 5 = n ∧
    (0#4 ++ n ++ p).extractLsb' 10 4 = 0#4 :=
  ⟨BitVec.extractLsb'_append_eq_right, (BitVec.extractLsb'_append_eq_of_le (Nat.le_refl 5)).trans BitVec.extractLsb'_append_eq_right,
    (BitVec.extractLsb'_append_eq_of_le (by omega)).trans BitVec.extractLsb'_append_eq_left⟩

/-! ## Decoding by the forms of R326 -/

theorem decodeCore_formR (f : BitVec 6) (d a b : Fin 16) : decodeCore (word5 0 d a b (funcBits f)) = decodeFunc f d a b := by
  obtain ⟨func, zero⟩ := extract_pair 0#8 f
  simp [decodeCore, word5_low, funcBits, func, zero]

/-- Settles O14, form by form (R326): what each form puts into its fields is what the decoder takes out of them. -/
theorem coreDecodeInvertsEncode : Obligations.CoreDecodeInvertsEncode := by
  intro i w h
  cases i
  case add d a b | sub d a b | and d a b | or d a b | xor d a b | nor d a b | sll d a b | srl d a b | sra d a b | slt d a b | sltu d a b
      | min d a b | max d a b | mul d a b | mulh d a b | mulhu d a b | div d a b | divu d a b | rem d a b | remu d a b =>
    cases h
    exact decodeCore_formR _ d a b
  case clz d a | popc d a =>
    cases h
    exact decodeCore_formR _ d a 0
  case addi d a m | andi d a m | ori d a m | xori d a m | slti d a m | sltiu d a m | lb d a m | lbu d a m | lh d a m | lhu d a m | lw d a m
      | sb d a m | sh d a m | sw d a m | jalr d a m | beq a b m | bne a b m | blt a b m | bge a b m | bltu a b m | bgeu a b m
      | sysrd d m | syswr a m | trap m | eret | fence | iflush | brk =>
    cases h
    simp [decodeCore, word5_low, ifZero]
  case slli d a n | srli d a n | srai d a n =>
    cases h
    obtain ⟨amount, zero⟩ := extract_pair 0#9 n
    simp [decodeCore, word5_low, ifZero, amount, zero]
  case bext d a p n | bins d a p n =>
    cases h
    obtain ⟨place, size, zero⟩ := extract_bitField n p
    simp [decodeCore, word5_low, ifZero, place, size, zero]
  case waitev n | pollev d n | setev n =>
    cases h
    obtain ⟨number, zero⟩ := extract_pair 0#10 n
    simp [decodeCore, word5_low, ifZero, number, zero]
  case lui d m | auipc d m | jal d m =>
    cases h
    simp [decodeCore]
  -- No other command has a word.
  all_goals cases h

/-! ## One-cycle instructions (R328, R358) -/

section
variable {s : State} {d a : Fin 16}

/-- A one-cycle instruction that may issue writes its result; `v` is the result in the words of R328. -/
theorem issued_wrote {ok : Bool} (issues : ok = true) {c : Instr} {x : Word} {wait : Nat}
    (meaning : exec c s = .next (if ok then retire 1 1 (setG d x wait s) else s)) {v : Word} (value : x = v) :
    ∃ t, exec c s = .next t ∧ coreWrote d v (s.seq.pc + 4) s t :=
  ⟨_, meaning.trans (congrArg _ (if_pos issues)), value ▸ coreWrote_retire d x wait 1 1 s⟩

/-- An instruction that reads less may issue as well. -/
theorem aluOk_without_reads (issues : aluOk [a] d s = true) : aluOk [] d s = true := by
  cases load : s.seq.load with
  | none => simp_all [aluOk]
  | some l =>
    simp only [aluOk, load, List.all_cons, List.all_nil, List.contains_cons, List.contains_nil, Bool.and_eq_true, Bool.or_eq_true] at issues ⊢
    obtain ⟨⟨may, -⟩, unused | ⟨-, other⟩⟩ := issues
    · exact ⟨⟨may, trivial⟩, .inl unused⟩
    · exact ⟨⟨may, trivial⟩, .inr ⟨rfl, other⟩⟩

end

theorem flagWord_slt (x y : Word) : flagWord (x.slt y) = if x.toInt < y.toInt then 1 else 0 := by
  simp [flagWord, BitVec.slt]

theorem flagWord_ult (x y : Word) : flagWord (x.ult y) = if x.toNat < y.toNat then 1 else 0 := by
  simp [flagWord, BitVec.ult]

theorem signed_min (x y : Word) : (if x.slt y then x else y) = BitVec.ofInt 32 (min x.toInt y.toInt) := by
  by_cases less : x.toInt < y.toInt
  · simp [BitVec.slt, less, Int.min_eq_left (Int.le_of_lt less)]
  · simp [BitVec.slt, less, Int.min_eq_right (Int.not_lt.mp less)]

theorem signed_max (x y : Word) : (if x.slt y then y else x) = BitVec.ofInt 32 (max x.toInt y.toInt) := by
  by_cases less : x.toInt < y.toInt
  · simp [BitVec.slt, less, Int.max_eq_right (Int.le_of_lt less)]
  · simp [BitVec.slt, less, Int.max_eq_left (Int.not_lt.mp less)]

theorem mul_low (x y : Word) : x * y = BitVec.ofNat 32 (x.toNat * y.toNat) := by
  apply BitVec.eq_of_toNat_eq
  simp

/-- The high half of a 64-bit integer. -/
theorem extract_high (z : Int) : (BitVec.ofInt 64 z).extractLsb' 32 32 = BitVec.ofInt 32 (z / 2 ^ 32) := by
  apply BitVec.eq_of_toNat_eq
  simp only [BitVec.extractLsb'_toNat, BitVec.toNat_ofInt, Nat.shiftRight_eq_div_pow]
  omega

theorem mulHS_eq (x y : Word) : mulHS x y = (x.signExtend 64 * y.signExtend 64).extractLsb' 32 32 := by
  have product : x.signExtend 64 * y.signExtend 64 = BitVec.ofInt 64 (x.toInt * y.toInt) := (BitVec.ofInt_mul ..).symm
  rw [product, extract_high]
  rfl

theorem mulHU_eq (x y : Word) : mulHU x y = (x.zeroExtend 64 * y.zeroExtend 64).extractLsb' 32 32 := by
  have hx := x.isLt
  have hy := y.isLt
  have bound : x.toNat * y.toNat < 2 ^ 64 := Nat.lt_of_lt_of_eq (Nat.mul_lt_mul'' hx hy) rfl
  apply BitVec.eq_of_toNat_eq
  simp only [mulHU, BitVec.truncate_eq_setWidth, BitVec.extractLsb'_toNat, BitVec.toNat_mul, BitVec.toNat_setWidth, BitVec.toNat_ofNat,
    Nat.shiftRight_eq_div_pow]
  rw [Nat.mod_eq_of_lt (by omega : x.toNat < 2 ^ 64), Nat.mod_eq_of_lt (by omega : y.toNat < 2 ^ 64), Nat.mod_eq_of_lt bound]

/-- Settles O1: each instruction writes the value of its operation, which is that of R328. -/
theorem registerFormsWriteTheirResult : Obligations.RegisterFormsWriteTheirResult := by
  refine ⟨fun s d a b issues => ?_, fun s d a b issues => ?_⟩
  · exact ⟨issued_wrote issues rfl rfl, issued_wrote issues rfl rfl, issued_wrote issues rfl rfl, issued_wrote issues rfl rfl,
      issued_wrote issues rfl rfl,
      issued_wrote issues rfl rfl, issued_wrote issues rfl rfl, issued_wrote issues rfl rfl, issued_wrote issues rfl rfl,
      issued_wrote issues rfl (flagWord_slt ..), issued_wrote issues rfl (flagWord_ult ..),
      issued_wrote issues rfl (signed_min ..), issued_wrote issues rfl (signed_max ..)⟩
  · exact ⟨issued_wrote issues rfl (mul_low ..), issued_wrote issues rfl (mulHS_eq ..), issued_wrote issues rfl (mulHU_eq ..)⟩

/-! ## Divisions (R329) -/

theorem divU_eq (x y : Word) : divU x y = if y = 0 then 0xFFFFFFFF else BitVec.ofNat 32 (x.toNat / y.toNat) := by
  rw [← BitVec.toNat_udiv, BitVec.ofNat_toNat, BitVec.setWidth_eq]
  rfl

theorem remU_eq (x y : Word) : remU x y = if y = 0 then x else BitVec.ofNat 32 (x.toNat % y.toNat) := by
  rw [← BitVec.toNat_umod, BitVec.ofNat_toNat, BitVec.setWidth_eq]
  rfl

/-- Beside the general registers, pc and the system registers, the core may change as it likes. -/
theorem coreWrote.with_core {d : Fin 16} {v p : Word} {s t u : State} (wrote : coreWrote d v p s t) (g : u.seq.g = t.seq.g)
    (pc : u.seq.pc = t.seq.pc) (sys : u.seq.sys = t.seq.sys) (regs : u.regs = t.regs) (frame : u = { t with regs := u.regs, seq := u.seq }) :
    coreWrote d v p s u := by
  obtain ⟨same, others, next, kept, keeps, rest⟩ := wrote
  refine ⟨(gr_congr d g).trans same, fun r other => (gr_congr r g).trans (others r other), pc.trans next, sys.trans kept,
    fun F shown => (get_congr F regs).trans (keeps F shown), ?_⟩
  rw [frame, rest]

/-- A division that may issue writes its result. -/
theorem divR_wrote {f : Word → Word → Word} {s : State} {d a b : Fin 16} {c : Instr} (issues : otherOk [a, b] s = true)
    (meaning : exec c s = .next (divR f d a b s)) {v : Word} (value : f (gr a s) (gr b s) = v) :
    ∃ t, exec c s = .next t ∧ coreWrote d v (s.seq.pc + 4) s t := by
  have wrote := coreWrote_retire d (f (gr a s) (gr b s)) 34 34 1 s
  exact ⟨_, meaning.trans (congrArg _ (if_pos issues)), value ▸ wrote.with_core rfl rfl rfl rfl rfl⟩

/-- Settles O2: each division is `divR` of the quotient or remainder of R329. -/
theorem divisionNeverTraps : Obligations.DivisionNeverTraps := fun _ _ _ _ issues =>
  ⟨divR_wrote issues rfl rfl, divR_wrote issues rfl (divU_eq ..), divR_wrote issues rfl rfl, divR_wrote issues rfl (remU_eq ..)⟩

/-! ## Instructions with an immediate (R327) -/

theorem bit_eq_testBit (v i : Nat) : bit v i = v.testBit i := by
  rw [Nat.testBit_eq_decide_div_mod_eq]
  rfl

theorem leadingZeros_zero (n : Nat) : leadingZeros n 0 = n := by
  induction n with
  | zero => rfl
  | succ n ih => simp [leadingZeros, bit, ih]

theorem leadingZeros_add_log2 {n v : Nat} (nonzero : v ≠ 0) (small : v < 2 ^ n) : leadingZeros n v + Nat.log2 v + 1 = n := by
  induction n with
  | zero => omega
  | succ n ih =>
    rw [leadingZeros, bit_eq_testBit]
    by_cases top : v.testBit n = true
    · have log : Nat.log2 v = n := (Nat.log2_eq_iff nonzero).mpr ⟨Nat.ge_two_pow_of_testBit top, small⟩
      simp [top, log]
    · have below : v < 2 ^ n := Nat.lt_of_not_le fun above => top (Nat.testBit_of_two_pow_le_and_two_pow_add_one_gt above small)
      have rest := ih below
      simp only [top, Bool.false_eq_true, if_false]
      omega

theorem leadingZeros_word (x : Word) :
    BitVec.ofNat 32 (leadingZeros 32 x.toNat) = if x = 0 then 32 else BitVec.ofNat 32 (31 - Nat.log2 x.toNat) := by
  by_cases zero : x = 0
  · simp [zero, leadingZeros_zero]
  · have sum := leadingZeros_add_log2 (fun none => zero (BitVec.eq_of_toNat_eq none)) x.isLt
    rw [if_neg zero]
    congr 1
    omega

theorem setBits_eq (x : Word) (n : Nat) : setBits n x.toNat = ((List.range n).filter (fun i => x.getLsbD i)).length := by
  induction n with
  | zero => rfl
  | succ n ih =>
    rw [setBits, ih, bit_eq_testBit, List.range_succ, List.filter_append, List.length_append]
    cases high : x.getLsbD n <;> simp [BitVec.testBit_toNat, high, b2n]

theorem zeroExtend_shift (u : BitVec 18) : u.zeroExtend 32 <<< 14 = BitVec.ofNat 32 (u.toNat * 2 ^ 14) := by
  apply BitVec.eq_of_toNat_eq
  simp [Nat.shiftLeft_eq]

/-- Settles O3: as O1; lui and auipc read no register, so they may issue where the others may. -/
theorem immediateFormsWriteTheirResult : Obligations.ImmediateFormsWriteTheirResult := by
  intro s d a imm n u issues
  have free := aluOk_without_reads issues
  exact ⟨issued_wrote issues rfl (leadingZeros_word _), issued_wrote issues rfl (congrArg _ (setBits_eq ..)), issued_wrote issues rfl rfl,
    issued_wrote issues rfl rfl, issued_wrote issues rfl rfl, issued_wrote issues rfl rfl,
    issued_wrote issues rfl ((flagWord_slt ..).trans (by rw [imm14s, BitVec.toInt_signExtend_of_le (by omega)])),
    issued_wrote issues rfl (flagWord_ult ..), issued_wrote issues rfl rfl, issued_wrote issues rfl rfl, issued_wrote issues rfl rfl,
    issued_wrote free rfl (zeroExtend_shift u), issued_wrote free rfl (by rw [zeroExtend_shift])⟩

/-! ## Ranges of addresses (R255) -/

section
variable {a : Nat}

theorem seqRegion_itcm (top : a < 0x40000) : seqRegion a = .itcm := if_pos top

theorem seqRegion_dtcm (base : 0x100000 ≤ a) (top : a < 0x120000) : seqRegion a = .dtcm := by
  rw [seqRegion, if_neg (by omega), if_pos ⟨base, top⟩]

theorem seqRegion_unmapped (base : 0x20000000 ≤ a) (top : a < 0x40000000) : seqRegion a = .none := by
  rw [seqRegion, if_neg (by omega), if_neg (by omega), if_neg (by omega), if_neg (by omega), if_neg (by omega), if_neg (by omega)]

theorem seqRegion_reg (base : 0x40000000 ≤ a) (top : a < 0x41000000) : seqRegion a = .reg := by
  rw [seqRegion, if_neg (by omega), if_neg (by omega), if_neg (by omega), if_pos ⟨base, top⟩]

theorem seqRegion_square (base : 0x60000000 ≤ a) (top : a < 0x62000000) : seqRegion a = .square := by
  rw [seqRegion, if_neg (by omega), if_neg (by omega), if_neg (by omega), if_neg (by omega), if_pos ⟨base, top⟩]

end

/-! ## Exceptions (R346, R348) -/

/-- An exception of the instruction at pc, below level X. -/
theorem precise_trapped {code info bad : Nat} {s : State} (below : s.seq.sys.lvl < 5) {c : Instr}
    (meaning : exec c s = .next (precise code info bad s)) : ∃ t, exec c s = .next t ∧ coreTrapped code info bad s.seq.pc s t :=
  ⟨_, meaning, coreTrapped_exception code info bad s.seq.pc s.seq.pc s below⟩

/-- What LOCKUP shows and leaves (R348). -/
def lockedUp (s t : State) : Prop :=
  get SYS_SEQ_STAT.STATE t = 3 ∧ t.seq.sys = s.seq.sys ∧ t.seq.pc = s.seq.pc ∧ (∀ r, gr r t = gr r s) ∧
    logs 0x0902 0 0 s.seq.sys.causeCode s t ∧ coreRuns t = false ∧ t = { s with regs := t.regs, seq := t.seq, log := t.log }

theorem precise_lockedUp {s : State} (top : s.seq.sys.lvl = 5) (code info bad : Nat) : lockedUp s (precise code info bad s) := by
  obtain ⟨state, seq, -⟩ := exception_lockup code info bad s.seq.pc s.seq.pc s (Nat.le_of_eq top.symm)
  refine ⟨state, congrArg SeqState.sys seq, congrArg SeqState.pc seq, fun r => gr_congr r (congrArg SeqState.g seq), ?_, ?_, ?_⟩
  · rw [logs, precise, exception, if_pos (Nat.le_of_eq top.symm)]
    exact fault_log_set (by decide) ..
  · rw [coreRuns, show get SYS_SEQ_STAT.STATE (precise code info bad s) = 3 from state]
    simp
  · rw [precise, exception, if_pos (Nat.le_of_eq top.symm), fault_frame]
    rfl

section
variable {s : State} (issues : otherOk [] s = true)
include issues

theorem exec_trap (imm : BitVec 14) : exec (.trap imm) s = .next (precise 8 imm.toNat 0 s) := congrArg _ (if_pos issues)

theorem exec_brk : exec .brk s = .next (precise 9 0 0 s) := congrArg _ (if_pos issues)

theorem exec_illegal_zero : exec (.illegal 0) s = .next (precise 1 0 0 s) := congrArg _ (if_pos issues)

/-- The register space holds no instruction (R331). -/
theorem exec_fetch_registers (registers : s.seq.pc.toNat / 2 ^ 24 = 0x40) :
    exec (.fetch s.seq.pc false) s = .next (precise 2 0 s.seq.pc.toNat s) := by
  have region := seqRegion_reg (a := s.seq.pc.toNat) (by omega) (by omega)
  have raised : fetchWord s.seq.pc false s = precise 2 0 s.seq.pc.toNat s := by simp [fetchWord, region, issues]
  exact congrArg _ raised

end

/-- Settles O8: below level X each of the four is a precise exception, and at level X one locks the core up. -/
theorem exceptionsEnterLevelXOrLockUp : Obligations.ExceptionsEnterLevelXOrLockUp := by
  intro s imm issues
  refine ⟨fun below => ⟨precise_trapped below (exec_trap issues imm), precise_trapped below (exec_brk issues),
    precise_trapped below (exec_illegal_zero issues), fun registers => precise_trapped below (exec_fetch_registers issues registers)⟩,
    fun top c member => ?_⟩
  have locks {code info bad : Nat} (meaning : exec c s = .next (precise code info bad s)) : ∃ t, exec c s = .next t ∧ lockedUp s t :=
    ⟨_, meaning, precise_lockedUp top code info bad⟩
  simp only [List.mem_cons, List.not_mem_nil, or_false] at member
  rcases member with rfl | rfl | rfl
  · exact locks (exec_trap issues imm)
  · exact locks (exec_brk issues)
  · exact locks (exec_illegal_zero issues)

/-! ## Bit fields (R328) -/

theorem getLsbD_fieldMask (n1 : BitVec 5) {i : Nat} (inWord : i < 32) : (fieldMask n1).getLsbD i = decide (i < n1.toNat + 1) := by
  rw [fieldMask, BitVec.getLsbD_ofNat, Nat.testBit_two_pow_sub_one, decide_eq_true inWord, Bool.true_and]

section
variable {s : State} {d a : Fin 16} {p n1 : BitVec 5}

/-- The result of bext, bit by bit. -/
theorem getLsbD_bext (x : Word) {i : Nat} (inWord : i < 32) :
    ((x >>> p.toNat) &&& fieldMask n1).getLsbD i = (decide (i < n1.toNat + 1) && x.getLsbD (p.toNat + i)) := by
  rw [BitVec.getLsbD_and, BitVec.getLsbD_ushiftRight, getLsbD_fieldMask n1 inWord, Bool.and_comm]

/-- The result of bins, bit by bit. -/
theorem getLsbD_bins (old x : Word) {i : Nat} (inWord : i < 32) :
    ((old &&& ~~~(fieldMask n1 <<< p.toNat)) ||| ((x &&& fieldMask n1) <<< p.toNat)).getLsbD i =
      if p.toNat ≤ i ∧ i < p.toNat + n1.toNat + 1 then x.getLsbD (i - p.toNat) else old.getLsbD i := by
  have place := getLsbD_fieldMask n1 (by omega : i - p.toNat < 32)
  have inside : i - p.toNat < n1.toNat + 1 ↔ i < p.toNat + n1.toNat + 1 := by omega
  simp only [BitVec.getLsbD_or, BitVec.getLsbD_and, BitVec.getLsbD_not, BitVec.getLsbD_shiftLeft, place, inside, inWord, decide_true,
    Bool.true_and, ← Nat.not_le (a := p.toNat)]
  by_cases above : p.toNat ≤ i
  · by_cases within : i < p.toNat + n1.toNat + 1 <;> simp [above, within]
  · simp [above]

theorem exec_bext_within (fits : p.toNat + n1.toNat + 1 ≤ 32) :
    exec (.bext d a p n1) s = .next (aluI (fun x => (x >>> p.toNat) &&& fieldMask n1) d a s) :=
  congrArg Host.Outcome.next (if_neg (Nat.not_lt.mpr fits))

theorem exec_bins_within (fits : p.toNat + n1.toNat + 1 ≤ 32) (issues : aluOk [a, d] d s = true) : exec (.bins d a p n1) s =
    .next (aluWrite d ((gr d s &&& ~~~(fieldMask n1 <<< p.toNat)) ||| ((gr a s &&& fieldMask n1) <<< p.toNat)) s) :=
  congrArg Host.Outcome.next ((if_neg (Nat.not_lt.mpr fits)).trans (if_pos issues))

theorem exec_bext_beyond (passes : 32 < p.toNat + n1.toNat + 1) (issues : otherOk [] s = true) :
    exec (.bext d a p n1) s = .next (precise 1 0 0 s) := congrArg Host.Outcome.next ((if_pos passes).trans (if_pos issues))

theorem exec_bins_beyond (passes : 32 < p.toNat + n1.toNat + 1) (issues : otherOk [] s = true) :
    exec (.bins d a p n1) s = .next (precise 1 0 0 s) := congrArg Host.Outcome.next ((if_pos passes).trans (if_pos issues))

end

/-- Settles O4: the results are read bit by bit, and a field that passes bit 31 is ILLEGAL. -/
theorem bitFieldsMoveOrTrap : Obligations.BitFieldsMoveOrTrap := by
  refine fun s d a p n1 => ⟨fun fits => ⟨fun issues => ?_, fun issues => ?_⟩, fun passes issues below =>
    ⟨precise_trapped below (exec_bext_beyond passes issues), precise_trapped below (exec_bins_beyond passes issues)⟩⟩
  · obtain ⟨t, runs, wrote⟩ := issued_wrote issues (exec_bext_within fits) rfl
    exact ⟨t, _, runs, wrote, fun _ => getLsbD_bext _⟩
  · exact ⟨_, _, exec_bins_within fits issues, coreWrote_retire d _ 1 1 1 s, fun _ => getLsbD_bins _ _⟩

/-! ## Branches and jumps (R327, R360) -/

/-- An offset in words, extended by its sign, as bytes. -/
theorem signExtend_words {n : Nat} (off : BitVec n) : off.signExtend 32 <<< 2 = BitVec.ofInt 32 (4 * off.toInt) := by
  rw [BitVec.ofInt_mul, BitVec.mul_comm, BitVec.shiftLeft_eq_mul_twoPow]
  rfl

/-- A branch that may issue goes to its target when its condition holds and on to the next word otherwise. -/
theorem branch_went {test : Word → Word → Bool} {s : State} {a b : Fin 16} {off : BitVec 14} {c : Instr} (issues : otherOk [a, b] s = true)
    (meaning : exec c s = .next (branch test a b off s)) {holds : Bool} (condition : test (gr a s) (gr b s) = holds) :
    ∃ t, exec c s = .next t ∧ coreWent (if holds then s.seq.pc + BitVec.ofInt 32 (4 * off.toInt) else s.seq.pc + 4) s t := by
  refine ⟨_, meaning, ?_⟩
  rw [branch, if_pos issues, condition, ← signExtend_words]
  cases holds
  · exact coreWent_retireTo _ 1 1 s
  · exact coreWent_retireTo _ 4 1 s

theorem not_slt (x y : Word) : (!x.slt y) = decide (y.toInt ≤ x.toInt) := by simp [BitVec.slt, ← decide_not]

theorem not_ult (x y : Word) : (!x.ult y) = decide (y.toNat ≤ x.toNat) := by simp [BitVec.ult, ← decide_not]

theorem beq_decide (x y : Word) : (x == y) = decide (x = y) := rfl

theorem bne_decide (x y : Word) : (x != y) = decide (x ≠ y) := by rw [bne, beq_decide, decide_not]

/-- Settles O5: each branch is `branch` of its condition, and a jump writes the address after it and goes to its target. -/
theorem branchesAndJumpsSetThePc : Obligations.BranchesAndJumpsSetThePc := by
  intro s d a b off u
  refine ⟨?_, fun issues => ?jal, fun issues => ?jalr⟩
  · intro issues dest
    exact ⟨branch_went issues rfl (beq_decide ..), branch_went issues rfl (bne_decide ..), branch_went issues rfl rfl,
      branch_went issues rfl (not_slt ..), branch_went issues rfl rfl, branch_went issues rfl (not_ult ..)⟩
  case jal =>
    refine ⟨_, congrArg Host.Outcome.next (if_pos issues), ?_⟩
    rw [signExtend_words]
    exact coreWrote_retireTo d _ _ 4 4 1 s
  case jalr => exact ⟨_, congrArg Host.Outcome.next (if_pos issues), coreWrote_retireTo d _ _ 4 4 1 s⟩

/-! ## eret (R345) -/

theorem eret_returns {s : State} (k : Fin 5) (level : s.seq.sys.lvl = k.val + 1) : eret s =
    retireTo (s.seq.sys.epc[k] &&& 0xFFFFFFFC) 4 1
      { s with seq.sys := { s.seq.sys with ie := bit s.seq.sys.estat[k] 0, lvl := bits s.seq.sys.estat[k] 1 3 } } := by
  have inHandler : 1 ≤ s.seq.sys.lvl ∧ s.seq.sys.lvl ≤ 5 := by omega
  have pc : s.seq.sys.epc.toList.getD (s.seq.sys.lvl - 1) 0 = s.seq.sys.epc[k] := by simp [level]
  have status : s.seq.sys.estat.toList.getD (s.seq.sys.lvl - 1) 0 = s.seq.sys.estat[k] := by simp [level]
  rw [eret, if_pos inHandler, pc, status]

theorem exec_eret {s : State} (issues : otherOk [] s = true) : exec .eret s = .next (eret s) := congrArg Host.Outcome.next (if_pos issues)

/-- Settles O7. -/
theorem eretReturnsFromTheCurrentLevel : Obligations.EretReturnsFromTheCurrentLevel := by
  refine fun s issues => ⟨fun k level => ?_, fun thread => ?_, fun t n _ qualifies => ?_⟩
  · refine ⟨_, exec_eret issues, ?_⟩
    rw [eret_returns k level]
    exact ⟨rfl, rfl, rfl, fun _ => rfl, rfl⟩
  · refine precise_trapped (by omega) ((exec_eret issues).trans (congrArg _ ?_))
    simp [eret, thread]
  · rw [mayIssue, Option.isNone_eq_false_iff.mpr (Option.isSome_iff_ne_none.mpr qualifies), Bool.and_false]

/-! ## System registers (R336 to R338, R344) -/

section
variable {s : State} {num : BitVec 14}

theorem exec_sysrd_listed (issues : otherOk [] s = true) {v : Word} {t : State} (listed : sysRead num.toNat s = some (v, t)) (d : Fin 16) :
    exec (.sysrd d num) s = .next (retire 1 1 (setG d v 2 t)) :=
  congrArg Host.Outcome.next ((if_pos issues).trans (by rw [listed]))

theorem exec_sysrd_absent (issues : otherOk [] s = true) (absent : sysRead num.toNat s = none) (d : Fin 16) :
    exec (.sysrd d num) s = .next (precise 1 num.toNat 0 s) :=
  congrArg Host.Outcome.next ((if_pos issues).trans (by rw [absent]))

theorem exec_syswr_writable {a : Fin 16} (issues : otherOk [a] s = true) {r : SysRegs}
    (writable : sysWrite num.toNat (gr a s) s = some r) : exec (.syswr a num) s = .next (retire 2 2 { s with seq.sys := r }) :=
  congrArg Host.Outcome.next ((if_pos issues).trans (by rw [writable]))

theorem exec_syswr_refused {a : Fin 16} (issues : otherOk [a] s = true) (refused : sysWrite num.toNat (gr a s) s = none) :
    exec (.syswr a num) s = .next (precise 1 num.toNat 0 s) :=
  congrArg Host.Outcome.next ((if_pos issues).trans (by rw [refused]))

end

/-- A read that captures nothing gives the value `w`. -/
theorem sysRead_value {num : Nat} {s : State} {v w : Word} (listed : sysRead num s = some (v, s)) (value : v = w) :
    sysRead num s = some (w, s) := value ▸ listed

section
variable {n : Nat}

/-- The bits that a word of a wide register holds. -/
theorem ofNat_bits (v : BitVec n) (lo : Nat) : BitVec.ofNat 32 (bits v.toNat lo 32) = v.extractLsb' lo 32 := by
  apply BitVec.eq_of_toNat_eq
  simp [bits, BitVec.extractLsb'_toNat, Nat.shiftRight_eq_div_pow]

theorem ofNat_low (v : BitVec n) : BitVec.ofNat 32 (v.toNat % 2 ^ 32) = v.extractLsb' 0 32 := by
  rw [← ofNat_bits, bits, Nat.pow_zero, Nat.div_one]

theorem ofNat_high (v : BitVec 64) : BitVec.ofNat 32 (v.toNat / 2 ^ 32) = v.extractLsb' 32 32 := by
  have small : v.toNat / 2 ^ 32 < 2 ^ 32 := by omega
  rw [← ofNat_bits, bits, Nat.mod_eq_of_lt small]

theorem ofNat_mod_word (v : Nat) : BitVec.ofNat 32 (v % 2 ^ 32) = BitVec.ofNat 32 v := by
  apply BitVec.eq_of_toNat_eq
  simp

theorem vector_getD {α : Type} (v : Vector α n) (d : α) {i : Nat} (h : i < n) : v.toList.getD i d = v[i] := by simp [h]

theorem vector_setIfInBounds {α : Type} (v : Vector α n) (x : α) {i : Nat} (h : i < n) : v.setIfInBounds i x = v.set i x := by
  ext j hj
  rw [Vector.getElem_setIfInBounds hj, Vector.getElem_set]

theorem bit_toNat (v : BitVec n) (i : Nat) : bit v.toNat i = v.getLsbD i := bit_eq_testBit ..

theorem toNat_append_eq {m : Nat} (x : BitVec m) (y : BitVec n) : (x ++ y).toNat = x.toNat * 2 ^ n + y.toNat := by
  rw [BitVec.toNat_append, ← Nat.shiftLeft_add_eq_or_of_lt y.isLt, Nat.shiftLeft_eq]

theorem toNat_extract (v : BitVec n) (lo k : Nat) : (v.extractLsb' lo k).toNat = v.toNat / 2 ^ lo % 2 ^ k := by
  rw [BitVec.extractLsb'_toNat, Nat.shiftRight_eq_div_pow]

end

theorem setHalf_low (v : BitVec 64) (x : Word) : setHalf v false x.toNat = v.extractLsb' 32 32 ++ x := by
  apply BitVec.eq_of_toNat_eq
  have joined : (v.extractLsb' 32 32 ++ x).toNat = _ := toNat_append_eq ..
  rw [joined, toNat_extract, setHalf, if_neg Bool.false_ne_true, BitVec.toNat_ofNat]
  omega

theorem setHalf_high (v : BitVec 64) (x : Word) : setHalf v true x.toNat = x ++ v.extractLsb' 0 32 := by
  apply BitVec.eq_of_toNat_eq
  have joined : (x ++ v.extractLsb' 0 32).toNat = _ := toNat_append_eq ..
  rw [joined, toNat_extract, setHalf, if_pos rfl, BitVec.toNat_ofNat]
  omega

section
variable (v : BitVec 128) (x : Word)

theorem setLvlWord_0 : setLvlWord v 0 x.toNat = v.extractLsb' 32 96 ++ x := by
  apply BitVec.eq_of_toNat_eq
  have joined : (v.extractLsb' 32 96 ++ x).toNat = _ := toNat_append_eq ..
  rw [joined, toNat_extract, setLvlWord, bits, BitVec.toNat_ofNat]
  omega

theorem setLvlWord_1 : setLvlWord v 1 x.toNat = v.extractLsb' 64 64 ++ x ++ v.extractLsb' 0 32 := by
  apply BitVec.eq_of_toNat_eq
  have joined : (v.extractLsb' 64 64 ++ x ++ v.extractLsb' 0 32).toNat = _ := toNat_append_eq ..
  rw [joined, toNat_append_eq, toNat_extract, toNat_extract, setLvlWord, bits, BitVec.toNat_ofNat]
  omega

theorem setLvlWord_2 : setLvlWord v 2 x.toNat = v.extractLsb' 96 32 ++ x ++ v.extractLsb' 0 64 := by
  apply BitVec.eq_of_toNat_eq
  have joined : (v.extractLsb' 96 32 ++ x ++ v.extractLsb' 0 64).toNat = _ := toNat_append_eq ..
  rw [joined, toNat_append_eq, toNat_extract, toNat_extract, setLvlWord, bits, BitVec.toNat_ofNat]
  omega

theorem setLvlWord_3 : setLvlWord v 3 x.toNat = x ++ v.extractLsb' 0 96 := by
  apply BitVec.eq_of_toNat_eq
  have joined : (x ++ v.extractLsb' 0 96).toNat = _ := toNat_append_eq ..
  rw [joined, toNat_extract, setLvlWord, bits, BitVec.toNat_ofNat]
  omega

end

section
variable {s : State}

/-- A list of registers that `sysRead` gives without a capture: sysrd writes each value to d. -/
theorem sysrd_reads (issues : otherOk [] s = true) (d : Fin 16) {l : List (Nat × Word)}
    (listed : ∀ c ∈ l, sysRead (BitVec.ofNat 14 c.1).toNat s = some (c.2, s)) :
    ∀ c ∈ l, ∃ t, exec (.sysrd d (BitVec.ofNat 14 c.1)) s = .next t ∧ coreWrote d c.2 (s.seq.pc + 4) s t :=
  fun c member => ⟨_, exec_sysrd_listed issues (listed c member) d, coreWrote_retire d c.2 2 1 1 s⟩

/-- A list of registers that `sysWrite` takes: syswr changes the system registers to the values given and completes. -/
theorem syswr_writes {a : Fin 16} (issues : otherOk [a] s = true) {l : List (Nat × SysRegs)}
    (writable : ∀ c ∈ l, sysWrite (BitVec.ofNat 14 c.1).toNat (gr a s) s = some c.2) :
    ∀ c ∈ l, ∃ t, exec (.syswr a (BitVec.ofNat 14 c.1)) s = .next t ∧ t.seq.sys = c.2 ∧ t.seq.pc = s.seq.pc + 4 ∧
      (∀ k, gr k t = gr k s) ∧
      keepsFields [SYS_SEQ_STAT.STATE, SYS_SEQ_PC.PC] s t ∧ t = { s with regs := t.regs, seq := t.seq } :=
  fun c member => ⟨_, exec_syswr_writable issues (writable c member), rfl, rfl, fun _ => rfl, retireTo_keeps _ 2 2 _, rfl⟩

/-- A list of numbers that no register has: ILLEGAL with the number. -/
theorem sysrd_traps (issues : otherOk [] s = true) (below : s.seq.sys.lvl < 5) (d : Fin 16) {l : List Nat} (small : ∀ n ∈ l, n < 2 ^ 14)
    (absent : ∀ n ∈ l, sysRead n s = none) :
    ∀ n ∈ l, ∃ t, exec (.sysrd d (BitVec.ofNat 14 n)) s = .next t ∧ coreTrapped 1 n 0 s.seq.pc s t := by
  intro n member
  have number : (BitVec.ofNat 14 n).toNat = n := Nat.mod_eq_of_lt (small n member)
  have none : sysRead (BitVec.ofNat 14 n).toNat s = none := by rw [number, absent n member]
  have meaning := exec_sysrd_absent issues none d
  rw [number] at meaning
  exact precise_trapped below meaning

/-- A list of numbers that name no register or a read-only one: ILLEGAL with the number. -/
theorem syswr_traps {a : Fin 16} (issues : otherOk [a] s = true) (below : s.seq.sys.lvl < 5) {l : List Nat} (small : ∀ n ∈ l, n < 2 ^ 14)
    (refused : ∀ n ∈ l, sysWrite n (gr a s) s = none) :
    ∀ n ∈ l, ∃ t, exec (.syswr a (BitVec.ofNat 14 n)) s = .next t ∧ coreTrapped 1 n 0 s.seq.pc s t := by
  intro n member
  have number : (BitVec.ofNat 14 n).toNat = n := Nat.mod_eq_of_lt (small n member)
  have none : sysWrite (BitVec.ofNat 14 n).toNat (gr a s) s = none := by rw [number, refused n member]
  have meaning := exec_syswr_refused issues none
  rw [number] at meaning
  exact precise_trapped below meaning

end

/-- Settles O6: `sysRead` and `sysWrite` are followed number by number. -/
theorem systemRegistersReadAndWrite : Obligations.SystemRegistersReadAndWrite := by
  intro s d a r num x
  refine ⟨fun issues => ⟨sysrd_reads issues d ?reads, ?cycle, ?tick, fun below => sysrd_traps issues below d (by decide) ?absent⟩,
    fun issues => ⟨syswr_writes issues ?writes, fun below => syswr_traps issues below (by decide) ?refused⟩⟩
  case reads =>
    simp only [List.forall_mem_cons, List.not_mem_nil, false_imp_iff, implies_true, and_true]
    have epc {i : Nat} (h : i < 5) := vector_getD r.epc 0 h
    have estat {i : Nat} (h : i < 5) : BitVec.ofNat 32 (r.estat.toList.getD i 0) = BitVec.ofNat 32 r.estat[i] := congrArg _ (vector_getD r.estat 0 h)
    exact ⟨rfl, rfl, rfl, rfl, sysRead_value rfl (epc _), sysRead_value rfl (epc _), sysRead_value rfl (epc _), sysRead_value rfl (epc _),
      sysRead_value rfl (epc _), sysRead_value rfl (estat _), sysRead_value rfl (estat _), sysRead_value rfl (estat _),
      sysRead_value rfl (estat _), sysRead_value rfl (estat _), sysRead_value rfl (ofNat_low _), sysRead_value rfl (ofNat_high _),
      sysRead_value rfl (ofNat_mod_word _), rfl, sysRead_value rfl (ofNat_bits _ _), sysRead_value rfl (ofNat_bits _ _),
      sysRead_value rfl (ofNat_bits _ _), sysRead_value rfl (ofNat_bits _ _), rfl, rfl, sysRead_value rfl (BitVec.ofNat_toNat ..),
      sysRead_value rfl (ofNat_high _), sysRead_value rfl (ofNat_low _), sysRead_value rfl (ofNat_high _), rfl, rfl,
      sysRead_value rfl (ofNat_high _)⟩
  case cycle =>
    obtain ⟨same, others, pc, sys, -, -⟩ :=
      coreWrote_retire d (BitVec.ofNat 32 (cycleNow s)) 2 1 1 { s with seq.sys.cycleCap := BitVec.ofNat 64 (cycleNow s) }
    exact ⟨_, exec_sysrd_listed issues rfl d, same, others, pc, sys⟩
  case tick =>
    obtain ⟨same, others, pc, sys, -, -⟩ :=
      coreWrote_retire d (BitVec.ofNat 32 (tick s)) 2 1 1 { s with seq.sys.tickCap := BitVec.ofNat 64 (tick s) }
    exact ⟨_, exec_sysrd_listed issues rfl d, same, others, pc, sys⟩
  case absent =>
    simp only [List.forall_mem_cons, List.not_mem_nil, false_imp_iff, implies_true, and_true]
    exact ⟨rfl, rfl, rfl, rfl, rfl, rfl, rfl, rfl, rfl⟩
  case writes =>
    simp only [List.forall_mem_cons, List.not_mem_nil, false_imp_iff, implies_true, and_true]
    have epc {i : Nat} (h : i < 5) (v : Word) : some { r with epc := r.epc.setIfInBounds i v } = some { r with epc := r.epc.set i v } := by
      rw [vector_setIfInBounds]
    have estat {i : Nat} (h : i < 5) (v : Nat) : some { r with estat := r.estat.setIfInBounds i v } = some { r with estat := r.estat.set i v } := by
      rw [vector_setIfInBounds]
    have irqEn {v w : BitVec 64} (h : v = w) : some { r with irqEn := v } = some { r with irqEn := w } := by rw [h]
    have irqLvl {v w : BitVec 128} (h : v = w) : some { r with irqLvl := v } = some { r with irqLvl := w } := by rw [h]
    have tcmp {v w : BitVec 64} (h : v = w) : some { r with tcmp := v } = some { r with tcmp := w } := by rw [h]
    have byte : BitVec.ofNat 8 x = (gr a s).truncate 8 := BitVec.ofNat_toNat ..
    have flag (i : Nat) : bit x i = (gr a s).getLsbD i := bit_toNat ..
    refine ⟨?ie, rfl, epc _ _, epc _ _, epc _ _, epc _ _, rfl, estat _ _, estat _ _, estat _ _, estat _ _, estat _ _, irqEn (setHalf_low ..),
      irqEn (setHalf_high ..), irqLvl (setLvlWord_0 ..), irqLvl (setLvlWord_1 ..), irqLvl (setLvlWord_2 ..), irqLvl (setLvlWord_3 ..), ?set,
      ?clear, tcmp (setHalf_low ..), tcmp (setHalf_high ..), ?timer, ?faults⟩
    case ie => exact flag 0 ▸ rfl
    case set => exact byte ▸ rfl
    case clear => exact byte ▸ rfl
    case timer => exact flag 0 ▸ flag 1 ▸ rfl
    case faults => exact flag 0 ▸ flag 1 ▸ rfl
  case refused =>
    simp only [List.forall_mem_cons, List.not_mem_nil, false_imp_iff, implies_true, and_true]
    exact ⟨rfl, rfl, rfl, rfl, rfl, rfl, rfl, rfl, rfl, rfl, rfl⟩

/-! ## What interrupts and aborts do to a wait and to a division (R366, R370) -/

theorem keepsFields.mono {k m : List Fld} {s t : State} (keeps : keepsFields k s t) (more : k ⊆ m) : keepsFields m s t := fun F other =>
  keeps F fun G member => other G (more member)

theorem keepsFields.trans {m : List Fld} {s t u : State} (first : keepsFields m s t) (second : keepsFields m t u) : keepsFields m s u :=
  fun F other => (second F other).trans (first F other)

theorem abandonDiv_none {s : State} (idle : s.seq.div = none) : abandonDiv s = s := by rw [abandonDiv, idle]

/-- The end of a wait for coverage changes what shows the wait only. -/
theorem endWait_eq (s : State) : ∃ regs logged, endWait s = { s with regs := regs, seq.waitLogged := logged } ∧
    keepsFields [SYS_SEQ_COV.WAIT] s { s with regs := regs, seq.waitLogged := logged } := by
  unfold endWait
  split
  · exact ⟨_, false, rfl, keepsFields_set SYS_SEQ_COV.WAIT 0 rfl⟩
  · exact ⟨s.regs, s.seq.waitLogged, rfl, fun _ _ => rfl⟩

/-- An exception that is not logged by `coreTrapped` may be taken from a state that differs from `s` in the core and the log. -/
theorem coreTrapped.of_before {code info bad : Nat} {epc : Word} {s u t : State} (trapped : coreTrapped code info bad epc u t)
    (code_range : 3 < code ∧ code < 8) (sys : u.seq.sys = s.seq.sys) (g : u.seq.g = s.seq.g)
    (keeps : keepsFields [SYS_SEQ_COV.WAIT, LOG_ESEQ.NEXT, LOG_STAT.LOST] s u)
    (frame : u = { s with regs := u.regs, seq := u.seq, log := u.log }) : coreTrapped code info bad epc s t := by
  obtain ⟨entered, pc, state, regs, -, -, kept, rest⟩ := trapped
  rw [sys] at entered pc
  refine ⟨entered, pc, state, fun r => (regs r).trans (gr_congr r g), fun low => absurd low (by omega), fun high => absurd high (by omega),
    (keeps.mono (by simp)).trans kept, ?_⟩
  rw [rest, frame]

theorem fault_frame_of_core {code unit d0 d1 : Nat} {s t : State} (frame : t = { s with regs := t.regs, seq := t.seq }) :
    fault code unit d0 d1 t = { s with regs := (fault code unit d0 d1 t).regs, seq := (fault code unit d0 d1 t).seq,
                                       log := (fault code unit d0 d1 t).log } := by
  rw [fault_seq']
  exact (fault_frame ..).trans (congrArg
    (fun u : State => { u with regs := (fault code unit d0 d1 t).regs, log := (fault code unit d0 d1 t).log }) frame)

/-! ## Interrupts (R341, R342) -/

theorem interruptEntry_taken {s : State} {n : Fin 4} (boundary : atBoundary s = true) (qualifies : irqNow s = some n.val)
    (idle : s.seq.div = none) : interruptEntry s = enterLevel n (endWait s) := by
  rw [interruptEntry, if_pos boundary, qualifies, abandonDiv_none idle]
  exact congrArg (enterLevel · _) (Fin.ext (Nat.mod_eq_of_lt n.isLt))

theorem exec_interruptEntry (s : State) : exec .interruptEntry s = .next (interruptEntry s) := rfl

/-! ## STORE_ERR (R347) -/

theorem exception_storeErr {code info bad : Nat} {instr epc : Word} {s : State} (below : s.seq.sys.lvl < 5) :
    (exception code info bad instr epc s).seq.storeErr = s.seq.storeErr := by
  rw [exception, if_neg (by omega)]
  dsimp only
  split
  · simp [enterX]
  · rfl

theorem storeErrTaken_due {s : State} {adr : Nat} {prot : Bool} (due : s.seq.storeErr = some (adr, prot)) (boundary : boundaryHere s = true)
    (below : s.seq.sys.lvl < 5) (idle : s.seq.div = none) :
    storeErrTaken s = precise 6 (b2n prot) adr (endWait { s with seq.storeErr := none }) := by
  rw [storeErrTaken, due]
  dsimp only
  rw [if_pos (by simp [boundary, below]), abandonDiv_none (s := { s with seq.storeErr := none }) idle]
  rfl

theorem exec_storeErr (s : State) : exec .storeErr s = .next (storeErrTaken s) := rfl

/-! ## Sequencer aborts (R349) -/

theorem exec_tcmpReached (s : State) : exec .tcmpReached s = .next (tcmpReached s) := rfl

theorem exec_sequencerAbortRequest (s : State) : exec .sequencerAbortRequest s = .next (seqAbortRequest s) := rfl

theorem exec_sequencerAbort (s : State) : exec .sequencerAbort s = .next (seqAbortEnter s) := rfl

theorem seqAbortRequest_running {s : State} (released : s.seq.released = true) (running : s.seq.abortAt = none) (idle : s.seq.div = none) :
    ∃ load, seqAbortRequest s = set SYS_SEQ_STAT.STATE 4
      { endWait s with seq.abortAt := some (endWait s).now, seq.xipMiss := none, seq.load := load } := by
  rw [seqAbortRequest, if_pos (by simp [released, running]), abandonDiv_none idle]
  exact ⟨_, rfl⟩

/-- The core at the abort vector. -/
def abortVector (s : State) : State := { enterX 15 0 0 s.seq.pc 0 s with seq.abortAt := none }

theorem seqAbortEnter_done {s : State} (requested : s.seq.abortAt ≠ none) (noLoad : s.seq.load = none) (noStore : s.seq.buffer = []) :
    seqAbortEnter s = fault 0x0903 0 0 0 (bump SYS_SEQ_STAT.ABORTS (set SYS_SEQ_STAT.STATE 1 (abortVector s))) :=
  if_pos (by simp [Option.isSome_iff_ne_none.mpr requested, noLoad, noStore])

/-- Settles O13. -/
theorem interruptsStoreErrorsAndAbortsAreTaken : Obligations.InterruptsStoreErrorsAndAbortsAreTaken := by
  refine ⟨fun s => ⟨fun n boundary qualifies idle => ?entry, fun adr prot due boundary below idle => ?storeErr,
    fun released awake enabled reached => ?compare⟩, fun s => ⟨fun released running idle => ?request, fun requested noLoad noStore => ?abort⟩⟩
  case entry =>
    obtain ⟨regs, logged, ended, keeps⟩ := endWait_eq s
    refine ⟨_, exec_interruptEntry s, ?_⟩
    rw [interruptEntry_taken boundary qualifies idle, ended]
    exact ⟨rfl, rfl, fun _ => rfl, (keeps.mono (by simp)).trans ((keepsFields_set SYS_SEQ_STAT.STATE 1 rfl).mono (by simp)), rfl⟩
  case storeErr =>
    obtain ⟨regs, logged, ended, keeps⟩ := endWait_eq { s with seq.storeErr := none }
    refine ⟨_, exec_storeErr s, ?_⟩
    rw [storeErrTaken_due due boundary below idle, ended]
    exact ⟨(coreTrapped_exception _ _ _ _ _ _ (by exact below)).of_before (by decide) rfl rfl (keeps.mono (by simp)) rfl,
      exception_storeErr below⟩
  case compare =>
    exact ⟨_, exec_tcmpReached s, if_pos (by simp only [released, awake, enabled, reached, decide_true, Bool.not_false, Bool.and_self])⟩
  case request =>
    obtain ⟨regs, logged, ended, keeps⟩ := endWait_eq s
    obtain ⟨load, requested⟩ := seqAbortRequest_running released running idle
    refine ⟨_, exec_sequencerAbortRequest s, ?_⟩
    rw [requested, ended]
    refine ⟨rfl, get_set_same .., ?_, rfl, rfl, rfl, fun _ => rfl,
      (keeps.mono (by simp)).trans ((keepsFields_set SYS_SEQ_STAT.STATE 4 rfl).mono (by simp)), rfl⟩
    simp [mayIssue, coreRuns]
  case abort =>
    refine ⟨_, exec_sequencerAbort s, ?_⟩
    rw [seqAbortEnter_done requested noLoad noStore]
    have noEseq : LOG_ESEQ.NEXT.key ≠ SYS_SEQ_STAT.ABORTS.key ∧ LOG_ESEQ.NEXT.key ≠ SYS_SEQ_STAT.STATE.key := by decide
    have before : get SYS_SEQ_STAT.ABORTS (set SYS_SEQ_STAT.STATE 1 (abortVector s)) = get SYS_SEQ_STAT.ABORTS s :=
      get_set_ne _ _ _ _ (by decide)
    have seq : (fault 0x0903 0 0 0 (bump SYS_SEQ_STAT.ABORTS (set SYS_SEQ_STAT.STATE 1 (abortVector s)))).seq = (abortVector s).seq :=
      fault_seq' ..
    refine ⟨(congrArg SeqState.pc seq).trans (BitVec.add_zero _), ?state, congrArg SeqState.abortAt seq, congrArg SeqState.sys seq, ?count,
      ?log, fun r => (gr_congr r (congrArg SeqState.g seq)).trans rfl, ?keeps, ?frame⟩
    case state =>
      rw [get_fault _ _ _ _ _ _ (by decide) (by decide), get_bump_ne _ _ _ (by decide)]
      exact get_set_same ..
    case count =>
      intro room
      have width : SYS_SEQ_STAT.ABORTS.width = 8 := rfl
      rw [get_fault _ _ _ _ _ _ (by decide) (by decide), get_bump_same _ _ (by rw [before, width]; omega), before, width, if_pos (by omega)]
    case log =>
      exact (fault_log_set noEseq.1 ..).trans ((fault_log_set noEseq.2 ..).trans (fault_log_congr (s := s) (t := abortVector s) rfl rfl rfl rfl ..))
    case keeps =>
      intro F other
      rw [get_fault F _ _ _ _ _ (other _ (by simp)) (other _ (by simp)), get_bump_ne F _ _ (other _ (by simp)),
        get_set_ne F _ _ _ (other _ (by simp))]
      rfl
    case frame => exact fault_frame_of_core rfl

/-! ## Bytes and numbers -/

theorem ofLe_append (a b : List Nat) : ofLe (a ++ b) = ofLe a + 256 ^ a.length * ofLe b := by
  induction a with
  | nil => simp [ofLe]
  | cons x a ih => simp only [List.cons_append, ofLe, ih, List.length_cons, Nat.pow_succ', Nat.mul_add, Nat.mul_assoc, Nat.add_assoc]

theorem ofLe_lt (l : List Nat) : ofLe l < 256 ^ l.length := by
  induction l with
  | nil => simp [ofLe]
  | cons x l ih => simp only [ofLe, List.length_cons, Nat.pow_succ]; omega

/-- Of a number's bytes, `n` from place `o` up are the number shifted and cut. -/
theorem ofLe_window (l : List Nat) {o n : Nat} (within : o + n ≤ l.length) : ofLe l / 256 ^ o % 256 ^ n = ofLe ((l.drop o).take n) := by
  have split : l = l.take o ++ ((l.drop o).take n ++ (l.drop o).drop n) := by rw [List.take_append_drop, List.take_append_drop]
  have before : (l.take o).length = o := by simp; omega
  have taken : ((l.drop o).take n).length = n := by simp; omega
  have low := ofLe_lt (l.take o)
  have mid := ofLe_lt ((l.drop o).take n)
  rw [before] at low
  rw [taken] at mid
  have parts := congrArg ofLe split
  rw [ofLe_append, ofLe_append, before, taken] at parts
  rw [parts, Nat.add_mul_div_left _ _ (Nat.pow_pos (by decide)), Nat.div_eq_of_lt low, Nat.zero_add, Nat.add_mul_mod_self_left, Nat.mod_eq_of_lt mid]

@[simp] theorem length_readBytes (a n : Nat) (s : State) : (readBytes a n s).length = n := by simp [readBytes]

theorem readBytes_append (a m n : Nat) (s : State) : readBytes a m s ++ readBytes (a + m) n s = readBytes a (m + n) s := by
  simp only [readBytes, List.range_add, List.map_append, List.map_map, Nat.add_assoc]
  rfl

/-- Bytes from a place within bytes read. -/
theorem readBytes_window (a : Nat) {o n m : Nat} (within : o + n ≤ m) (s : State) :
    ((readBytes a m s).drop o).take n = readBytes (a + o) n s := by
  obtain ⟨k, rfl⟩ := Nat.exists_eq_add_of_le within
  rw [Nat.add_assoc, ← readBytes_append, List.drop_left' (length_readBytes ..), ← readBytes_append, List.take_left' (length_readBytes ..)]

/-! ## Loads (R328, R330, R361) -/

/-- A word without an error is its bytes. -/
theorem tcmWord_clean {s : State} (clean : s.memory.upsets = []) (a : Nat) : tcmWord a s = (ofLe (readBytes (a / 4 * 4) 4 s), false) := by
  simp [tcmWord, upsetOf, clean]

theorem two_pow_bytes (k : Nat) : 2 ^ (8 * k) = 256 ^ k := Nat.pow_mul ..

/-- A load from ITCM or DTCM without errors reads its bytes. -/
theorem tcmLoad_clean {s : State} (clean : s.memory.upsets = []) {n : Nat} (small : n ≤ 4) (a : Nat) :
    (tcmLoad a n s).1 % 256 ^ n = ofLe (readBytes a n s) ∧ (tcmLoad a n s).2 = false := by
  have place : a / 4 * 4 + a % 4 = a := by omega
  rw [tcmLoad, tcmWord_clean clean, tcmWord_clean clean]
  dsimp only
  split
  case isTrue within =>
    refine ⟨?_, rfl⟩
    rw [two_pow_bytes, ofLe_window _ (by simpa using within), readBytes_window _ within, place]
  case isFalse crosses =>
    have next : (a + 4) / 4 * 4 = a / 4 * 4 + 4 := by omega
    have both : ofLe (readBytes (a / 4 * 4) 4 s) + 2 ^ 32 * ofLe (readBytes (a / 4 * 4 + 4) 4 s) = ofLe (readBytes (a / 4 * 4) 8 s) := by
      rw [← readBytes_append _ 4 4, ofLe_append, length_readBytes, show 256 ^ 4 = 2 ^ 32 from rfl]
    refine ⟨?_, rfl⟩
    rw [next, both, two_pow_bytes, ofLe_window _ (by rw [length_readBytes]; omega), readBytes_window _ (by omega), place]

/-- An extended value is the low bytes, extended by zeros. -/
theorem extended_unsigned (n v : Nat) : extended n false v = (BitVec.ofNat (8 * n) v).zeroExtend 32 := by
  apply BitVec.eq_of_toNat_eq
  simp [extended]

/-- An extended value is the low bytes, extended by their sign. -/
theorem extended_signed {n : Nat} (size : 1 ≤ n ∧ n ≤ 4) (v : Nat) : extended n true v = (BitVec.ofNat (8 * n) v).signExtend 32 := by
  have low : v % 2 ^ (8 * n) < 2 ^ (8 * n) := Nat.mod_lt _ (Nat.two_pow_pos _)
  have fits : 2 ^ (8 * n) ≤ 2 ^ 32 := Nat.pow_le_pow_right (by omega) (by omega)
  have sign : bit (v % 2 ^ (8 * n)) (8 * n - 1) = (BitVec.ofNat (8 * n) v).msb := by
    rw [BitVec.msb_eq_getLsbD_last, ← bit_toNat, BitVec.toNat_ofNat]
  apply BitVec.eq_of_toNat_eq
  rw [BitVec.toNat_signExtend, BitVec.toNat_setWidth, BitVec.toNat_ofNat]
  simp only [extended, Bool.true_and, sign]
  cases (BitVec.ofNat (8 * n) v).msb
  · simp
  · simp
    omega

/-- Little-endian bytes as a word of their width. -/
theorem ofNat_readBytes_1 (a : Nat) (s : State) : BitVec.ofNat 8 (ofLe (readBytes a 1 s)) = readByte (a + 0) s := by
  apply BitVec.eq_of_toNat_eq
  have b0 := (readByte (a + 0) s).isLt
  simp only [readBytes, List.range_succ, List.range_zero, List.nil_append, List.map_cons, List.map_nil, ofLe, BitVec.toNat_ofNat]
  omega

theorem ofNat_readBytes_2 (a : Nat) (s : State) : BitVec.ofNat 16 (ofLe (readBytes a 2 s)) = readByte (a + 1) s ++ readByte (a + 0) s := by
  apply BitVec.eq_of_toNat_eq
  have joined : (readByte (a + 1) s ++ readByte (a + 0) s).toNat = _ := toNat_append_eq ..
  have b0 := (readByte (a + 0) s).isLt
  have b1 := (readByte (a + 1) s).isLt
  rw [joined, BitVec.toNat_ofNat]
  simp only [readBytes, List.range_succ, List.range_zero, List.nil_append, List.cons_append, List.map_cons, List.map_nil, ofLe]
  omega

theorem ofNat_readBytes_4 (a : Nat) (s : State) : BitVec.ofNat 32 (ofLe (readBytes a 4 s)) =
    readByte (a + 3) s ++ readByte (a + 2) s ++ readByte (a + 1) s ++ readByte (a + 0) s := by
  apply BitVec.eq_of_toNat_eq
  have joined : (readByte (a + 3) s ++ readByte (a + 2) s ++ readByte (a + 1) s ++ readByte (a + 0) s).toNat = _ := toNat_append_eq ..
  have b0 := (readByte (a + 0) s).isLt
  have b1 := (readByte (a + 1) s).isLt
  have b2 := (readByte (a + 2) s).isLt
  have b3 := (readByte (a + 3) s).isLt
  rw [joined, toNat_append_eq, toNat_append_eq, BitVec.toNat_ofNat]
  simp only [readBytes, List.range_succ, List.range_zero, List.nil_append, List.cons_append, List.map_cons, List.map_nil, ofLe]
  omega

/-! ## What an access meets (R255, R256, R330) -/

section
variable {raw n : Nat} {s : State}

theorem seqAddr_direct (direct : seqRegion raw ≠ .aper) : seqAddr raw s = raw := if_neg direct

theorem targetRegion_direct (direct : seqRegion raw ≠ .aper) : targetRegion raw s = seqRegion raw := if_neg direct

/-- An address of a range that needs neither window nor aperture is mapped. -/
theorem mapped_direct {r : SeqRegion} (region : seqRegion raw = r) (direct : r ∉ [.aper, .xip, .none]) :
    targetRegion raw s = r ∧ seqMapped raw s = true := by
  simp only [List.mem_cons, List.not_mem_nil, or_false, not_or] at direct
  obtain ⟨noAperture, noWindow, mapped⟩ := direct
  have target : targetRegion raw s = r := (targetRegion_direct (region ▸ noAperture)).trans region
  refine ⟨target, ?_⟩
  rw [seqMapped, target]
  split
  · contradiction
  · contradiction
  · rfl

/-- An access within such a range is allowed; in the register space it must be an aligned word. -/
theorem accessKind_allowed {r : SeqRegion} (direct : r ∉ [.aper, .xip, .none]) (first : seqRegion raw = r) (last : seqRegion (raw + n - 1) = r)
    (word : r = .reg → n = 4 ∧ raw % 4 = 0) (store : Bool) : accessKind raw n store s = 0 := by
  obtain ⟨firstTarget, firstMapped⟩ := mapped_direct (s := s) first direct
  obtain ⟨lastTarget, lastMapped⟩ := mapped_direct (s := s) last direct
  have noWindow : r ≠ .xip := fun window => direct (by simp [window])
  simpa [accessKind, firstTarget, lastTarget, firstMapped, lastMapped, noWindow] using word

/-- An access to an unmapped range. -/
theorem accessKind_unmapped (first : seqRegion raw = .none) (last : seqRegion (raw + n - 1) = .none) (store : Bool) :
    accessKind raw n store s = 4 := by
  have target {a : Nat} (region : seqRegion a = .none) : targetRegion a s = .none ∧ seqMapped a s = false := by
    have here : targetRegion a s = .none := (targetRegion_direct (by simp [region])).trans region
    exact ⟨here, by rw [seqMapped, here]⟩
  obtain ⟨firstTarget, firstMapped⟩ := target first
  obtain ⟨lastTarget, -⟩ := target last
  simp [accessKind, firstTarget, lastTarget, firstMapped]

/-- An access of the register space that is no word. -/
theorem accessKind_narrow (first : seqRegion raw = .reg) (narrow : n ≠ 4) (store : Bool) : accessKind raw n store s = 3 := by
  have target : targetRegion raw s = .reg := (targetRegion_direct (by simp [first])).trans first
  simp [accessKind, target, narrow]

theorem bufferHit_none {a m : Nat} (apart : s.seq.buffer.all (fun e => !(e.overlaps a m)) = true) (within : n ≤ m) :
    bufferHit a n s = none := by
  rw [bufferHit, Option.map_eq_none_iff, List.find?_eq_none]
  intro e member overlap
  have clear := List.all_eq_true.mp apart e (List.mem_reverse.mp member)
  have wider : e.overlaps a m = true := by
    simp only [StoreEntry.overlaps, Bool.and_eq_true, decide_eq_true_eq] at overlap ⊢
    exact ⟨Nat.lt_of_lt_of_le overlap.1 (Nat.add_le_add_left within a), overlap.2⟩
  simp [wider] at clear

end

/-! ## A load by where it goes (R330, R357, R361) -/

/-- The operands of a load instruction: it may issue, and its address is `adr`. -/
structure LoadReady (a : Fin 16) (imm : BitVec 14) (adr : Nat) (s : State) : Prop where
  issues : otherOk [a] s = true
  address : (gr a s + imm14s imm).toNat = adr

section
variable {n adr : Nat} {signed : Bool} {d a : Fin 16} {imm : BitVec 14} {s : State} (ready : LoadReady a imm adr s)
include ready

theorem loadInstr_access (kind : accessKind adr n false s = 3) : loadInstr n signed d a imm s = precise 3 0 adr s := by
  simp only [loadInstr, if_pos ready.issues, ready.address, kind]

theorem loadInstr_unmapped (kind : accessKind adr n false s = 4) :
    loadInstr n signed d a imm s = precise 4 0 adr (unmapped seqOwner (seqAddr adr s) s) := by
  simp only [loadInstr, if_pos ready.issues, ready.address, kind]

theorem loadInstr_register (kind : accessKind adr n false s = 0) (region : seqRegion adr = .reg) (done : drained s = true)
    (mapped : (busRead seqOwner adr s).1 = true) : loadInstr n signed d a imm s =
      retire 8 8 (setG d (BitVec.ofNat 32 (busRead seqOwner adr s).2.1) 8 (busRead seqOwner adr s).2.2) := by
  simp only [loadInstr, if_pos ready.issues, ready.address, kind, seqAddr_direct (raw := adr) (by simp [region]), region, if_true,
    done, mapped]

/-- Cycles for which a load holds the port of its TCM (R361). -/
def tcmCost (adr n : Nat) : Nat := if 4 < adr % 4 + n then 2 else 1

theorem loadInstr_tcm (kind : accessKind adr n false s = 0) (region : seqRegion adr = .itcm ∨ seqRegion adr = .dtcm)
    (free : portFree adr s = true) (noHit : bufferHit adr n s = none) : loadInstr n signed d a imm s =
      finishLoad s.seq.pc (s.seq.pc + 4) adr n signed d (tcmLoad adr n s).1 (tcmLoad adr n s).2 false (tcmCost adr n + 2)
        (retire (tcmCost adr n) 1 (takePort adr (tcmCost adr n) s)) := by
  have direct : seqAddr adr s = adr := seqAddr_direct (by rcases region with r | r <;> simp [r])
  have noRegister : seqRegion adr ≠ .reg := by rcases region with r | r <;> simp [r]
  have tcm : inTcm adr = true := by rcases region with r | r <;> simp [inTcm, r]
  simp only [loadInstr, if_pos ready.issues, ready.address, kind, direct, if_neg noRegister, noHit, tcm, free, if_true, tcmCost]

theorem loadInstr_square (kind : accessKind adr n false s = 0) (region : seqRegion adr = .square) (covered : accessCovered adr n false s = true)
    (noHit : bufferHit adr n s = none) {t : State} {l : LoadOut} (issued : issueLoad s.seq.pc adr adr n signed d (retire 1 1 (endWait s)) = t)
    (load : t.seq.load = some l) (waits : loadComplete t = false) : loadInstr n signed d a imm s = t := by
  have direct : seqAddr adr s = adr := seqAddr_direct (by simp [region])
  simp [loadInstr, if_pos ready.issues, ready.address, kind, direct, region, noHit, inTcm, covered, issued, load, waits]

end

/-! ## Loads from ITCM and DTCM -/

/-- A load whose data is sound writes its register. -/
theorem finishLoad_sound (instr epc : Word) (raw n : Nat) (signed : Bool) (d : Fin 16) (v wait : Nat) (s : State) :
    finishLoad instr epc raw n signed d v false false wait s = setG d (extended n signed v) wait s := rfl

/-- An instruction that writes no general register, and then writes one. -/
theorem coreWrote_of_went {p v : Word} {d : Fin 16} {s t : State} (went : coreWent p s t) (wait : Nat) :
    coreWrote d v p s (setG d v wait t) := by
  obtain ⟨regs, pc, sys, keeps, frame⟩ := went
  refine ⟨gr_setG_same d v wait t, fun r other => (gr_setG_ne d r v wait t other).trans (regs r), (setG_pc d v wait t).trans pc,
    (setG_sys d v wait t).trans sys, fun F other => (get_congr F (setG_regs d v wait t)).trans (keeps F other), ?_⟩
  rw [setG_frame, frame]

theorem takePort_eq (a n : Nat) (s : State) : ∃ port, takePort a n s = { s with seq.port := port } := by
  unfold takePort
  split
  · exact ⟨_, rfl⟩
  · exact ⟨s.seq.port, rfl⟩

theorem coreWent_takePort (a k c b : Nat) (s : State) : coreWent (s.seq.pc + 4) s (retire c b (takePort a k s)) := by
  obtain ⟨port, taken⟩ := takePort_eq a k s
  rw [taken]
  exact ⟨fun _ => rfl, rfl, rfl, retireTo_keeps _ c b _, rfl⟩

/-- The address lies with three more bytes in ITCM or DTCM. -/
def inTcms (adr : Nat) : Prop := adr + 4 ≤ 0x40000 ∨ (0x100000 ≤ adr ∧ adr + 4 ≤ 0x120000)

section
variable {n adr : Nat} {signed : Bool} {d a : Fin 16} {imm : BitVec 14} {s : State}

theorem seqRegion_inTcms (tcm : inTcms adr) : ∃ r, (r = .itcm ∨ r = .dtcm) ∧ ∀ k < 4, seqRegion (adr + k) = r := by
  rcases tcm with top | ⟨base, top⟩
  · exact ⟨.itcm, .inl rfl, fun k small => seqRegion_itcm (by omega)⟩
  · exact ⟨.dtcm, .inr rfl, fun k small => seqRegion_dtcm (by omega) (by omega)⟩

theorem accessKind_inTcms (tcm : inTcms adr) (size : 1 ≤ n ∧ n ≤ 4) (store : Bool) : accessKind adr n store s = 0 := by
  obtain ⟨r, which, region⟩ := seqRegion_inTcms tcm
  have last := region (n - 1) (by omega)
  rw [← Nat.add_sub_assoc size.1] at last
  exact accessKind_allowed (by rcases which with rfl | rfl <;> decide) (region 0 (by omega)) last (by rcases which with rfl | rfl <;> simp) store

/-- A load from ITCM or DTCM writes its bytes, extended; `v` is the result as R328 gives it. -/
theorem loadInstr_tcm_wrote (ready : LoadReady a imm adr s) (tcm : inTcms adr) (free : portFree adr s = true)
    (apart : s.seq.buffer.all (fun e => !(e.overlaps adr 4)) = true) (clean : s.memory.upsets = []) (size : 1 ≤ n ∧ n ≤ 4) {c : Instr}
    (meaning : exec c s = .next (loadInstr n signed d a imm s)) {v : Word}
    (value : extended n signed (ofLe (readBytes adr n s)) = v) : ∃ t, exec c s = .next t ∧ coreWrote d v (s.seq.pc + 4) s t := by
  obtain ⟨r, which, region⟩ := seqRegion_inTcms tcm
  have here : seqRegion adr = .itcm ∨ seqRegion adr = .dtcm := (region 0 (by omega)).symm ▸ which
  obtain ⟨bytes, sound⟩ := tcmLoad_clean clean size.2 adr
  have low : extended n signed (tcmLoad adr n s).1 = v := by
    rw [← value, ← bytes]
    simp only [extended, two_pow_bytes, Nat.mod_mod]
  refine ⟨_, meaning, ?_⟩
  rw [loadInstr_tcm ready (accessKind_inTcms tcm size false) here free (bufferHit_none apart size.2), sound, finishLoad_sound, low]
  exact coreWrote_of_went (coreWent_takePort ..) _

/-! ## Loads that raise an exception -/

theorem loadInstr_access_trapped (ready : LoadReady a imm adr s) (base : 0x40000000 ≤ adr) (top : adr + 4 ≤ 0x41000000)
    (below : s.seq.sys.lvl < 5) (narrow : n ≠ 4) {c : Instr} (meaning : exec c s = .next (loadInstr n signed d a imm s)) :
    ∃ t, exec c s = .next t ∧ coreTrapped 3 0 adr s.seq.pc s t :=
  precise_trapped below (meaning.trans (congrArg _
    (loadInstr_access ready (accessKind_narrow (seqRegion_reg base (by omega)) narrow false))))

/-- An access to an unmapped address is logged, and the core is as it was. -/
theorem coreTrapped_unmapped {a : Nat} {info bad : Nat} (below : s.seq.sys.lvl < 5) (owner : Owner) :
    coreTrapped 4 info bad s.seq.pc s (precise 4 info bad (unmapped owner a s)) := by
  have seq : (unmapped owner a s).seq = s.seq := fault_seq' ..
  have keeps : keepsFields [LOG_ESEQ.NEXT, LOG_STAT.LOST] s (unmapped owner a s) := fun F other =>
    get_faultAddr F _ _ _ s (other _ (by simp)) (other _ (by simp))
  have trapped := coreTrapped_exception 4 info bad s.seq.pc s.seq.pc (unmapped owner a s) (by rw [seq]; exact below)
  rw [precise, seq]
  exact trapped.of_before (by decide) (by rw [seq]) (by rw [seq]) (keeps.mono (by simp)) (fault_frame_of_core rfl)

theorem loadInstr_unmapped_trapped (ready : LoadReady a imm adr s) (base : 0x20000000 ≤ adr) (top : adr + 4 ≤ 0x40000000)
    (below : s.seq.sys.lvl < 5) (size : 1 ≤ n ∧ n ≤ 4) {c : Instr} (meaning : exec c s = .next (loadInstr n signed d a imm s)) :
    ∃ t, exec c s = .next t ∧ coreTrapped 4 0 adr s.seq.pc s t := by
  have kind : accessKind adr n false s = 4 :=
    accessKind_unmapped (seqRegion_unmapped base (by omega)) (seqRegion_unmapped (by omega) (by omega)) false
  refine ⟨_, meaning, ?_⟩
  rw [loadInstr_unmapped ready kind]
  exact coreTrapped_unmapped below seqOwner

end

/-! ## Loads from the Square (R357, R367) -/

/-- Accesses added one after another stand at the end, in order. -/
theorem acc_foldl_addAcc {α : Type} (f : Nat → α → Acc) (l : List α) (s : State) :
    l.foldl (fun s x => addAcc (f s.now x) s) s = { s with memory.acc := s.memory.acc ++ l.map (f s.now) } := by
  induction l generalizing s with
  | nil => simp
  | cons x l ih => rw [List.foldl_cons, ih]; simp [addAcc]

theorem linesOf_ne_nil (a n : Nat) : linesOf a n ≠ [] := by
  unfold linesOf
  split <;> simp

/-- The core's read of a line for a load issued in slot `now`. -/
def squareRead (now : Nat) (line : Addr) : Acc := ⟨seqOwner, line, .read, [], [], .load, now / 2 * 2 + 4⟩

/-- A load that the core issues: every line is awaited. -/
def loadIssued (pc : Word) (n adr : Nat) (signed : Bool) (d : Fin 16) : LoadOut :=
  ⟨pc, adr, adr, n, signed, d, (linesOf adr n).map (fun l => (l, none)), false, false⟩

section
variable {n adr : Nat} {signed : Bool} {d : Fin 16}

theorem issueLoad_square (square : inSquare adr = true) (pc : Word) (s : State) : issueLoad pc adr adr n signed d s =
    { s with seq.load := some (loadIssued pc n adr signed d), memory.acc := s.memory.acc ++ (linesOf adr n).map (squareRead s.now) } :=
  (if_pos square).trans (acc_foldl_addAcc squareRead ..)

theorem loadIssued_waits {pc : Word} {s : State} (load : s.seq.load = some (loadIssued pc n adr signed d)) : loadComplete s = false := by
  obtain ⟨l, rest, lines⟩ := List.exists_cons_of_ne_nil (linesOf_ne_nil adr n)
  simp [loadComplete, load, loadIssued, lines]

/-- A load that the plan covers becomes outstanding, with its lines asked for. -/
theorem loadInstr_square_issued {a : Fin 16} {imm : BitVec 14} {s : State} (ready : LoadReady a imm adr s) (base : 0x60000000 ≤ adr)
    (top : adr + 4 ≤ 0x62000000) (empty : s.seq.buffer = []) (size : 1 ≤ n ∧ n ≤ 4) (covered : accessCovered adr n false s = true)
    {c : Instr} (meaning : exec c s = .next (loadInstr n signed d a imm s)) :
    ∃ t, exec c s = .next t ∧ (∀ r, gr r t = gr r s) ∧ t.seq.pc = s.seq.pc + 4 ∧ t.seq.sys = s.seq.sys ∧ t.mem = s.mem ∧
      t.seq.load = some (loadIssued s.seq.pc n adr signed d) ∧ t.memory.acc = s.memory.acc ++ (linesOf adr n).map (squareRead s.now) := by
  have here := seqRegion_square base (by omega)
  have kind : accessKind adr n false s = 0 :=
    accessKind_allowed (by decide) here (seqRegion_square (by omega) (by omega)) (by simp) false
  have square : inSquare adr = true := by
    have below : adr < 0x60000000 + 0x2000000 := by omega
    simp only [inSquare, Bool.and_eq_true, decide_eq_true_eq]
    exact ⟨base, below⟩
  obtain ⟨regs, logged, ended, -⟩ := endWait_eq s
  refine ⟨_, meaning, ?_⟩
  rw [loadInstr_square ready kind here covered (bufferHit_none (m := n) (by simp [empty]) (Nat.le_refl n)) (issueLoad_square square ..) rfl
    (loadIssued_waits rfl), ended]
  exact ⟨fun _ => rfl, rfl, rfl, rfl, rfl, rfl⟩

end

/-! ## The return of a load (R357, R367) -/

/-- A part of a list, place by place. -/
theorem slice_eq_map {l : List Nat} {o n : Nat} (within : o + n ≤ l.length) : slice l o n = (List.range n).map (fun i => nth l (o + i) 0) := by
  apply List.ext_getElem
  · simp [slice]; omega
  · intro i _ small
    have inside : o + i < l.length := by simp at small; omega
    simp [slice, nth, inside]

/-- A load from one line takes its bytes from their places in the line. -/
theorem loadValue_line {a n : Nat} (inLine : a % 64 + n ≤ 64) {data : List Nat} (whole : data.length = 64) :
    loadValue a n [(lineOf a, some data)] = ofLe (slice data (a % 64) n) := by
  rw [slice_eq_map (by omega), loadValue]
  congr 1
  refine List.map_congr_left fun i member => ?_
  have small := List.mem_range.mp member
  have line : (a + i) / 64 * 64 = a / 64 * 64 := by omega
  have place : a + i - a / 64 * 64 = a % 64 + i := by omega
  simp [lineOf, line, place]

section
variable {s : State} {l : LoadOut} {due : Nat} {data : List Nat}

/-- The one line that an outstanding load awaits arrives: the load is complete with it. -/
theorem loadLine_last (load : s.seq.load = some l) (awaits : l.lines = [(lineOf l.addr, none)]) :
    loadLine (lineOf l.addr) data false false s = { s with seq.load := some { l with lines := [(lineOf l.addr, some data)] } } := by
  simp [loadLine, load, awaits]

theorem loadFromGroup_none (empty : s.seq.group = none) : loadFromGroup s = s := by
  unfold loadFromGroup
  rw [empty]
  split
  · contradiction
  · rfl

/-- The outstanding load takes the data that is due and what the group buffer holds. -/
def takeLoadLines (s : State) : State :=
  loadFromGroup ((s.memory.flight.filter (fun f => f.tag == .load && decide (f.due ≤ s.now))).foldl
    (fun s f => loadLine f.addr f.data f.bad f.fenced s)
    { s with memory.flight := s.memory.flight.filter (fun f => !(f.tag == .load && decide (f.due ≤ s.now))) })

/-- The state after the arrival of the last line. -/
def lastArrived (l : LoadOut) (data : List Nat) (s : State) : State :=
  { s with memory.flight := [], seq.load := some { l with lines := [(lineOf l.addr, some data)] } }

theorem takeLoadLines_last (load : s.seq.load = some l) (awaits : l.lines = [(lineOf l.addr, none)]) (noGroup : s.seq.group = none)
    (arrived : due ≤ s.now) (flight : s.memory.flight = [⟨due, 0x24, lineOf l.addr, .load, data, false, false⟩]) :
    takeLoadLines s = lastArrived l data s := by
  have taken : loadLine (lineOf l.addr) data false false { s with memory.flight := [] } = lastArrived l data s := loadLine_last load awaits
  have noneLeft : s.memory.flight.filter (fun f => !(f.tag == .load && decide (f.due ≤ s.now))) = [] := by simp [flight, arrived]
  have here : s.memory.flight.filter (fun f => f.tag == .load && decide (f.due ≤ s.now)) = s.memory.flight := by simp [flight, arrived]
  rw [takeLoadLines, noneLeft, here, flight, List.foldl_cons, List.foldl_nil, taken]
  exact loadFromGroup_none noGroup

/-- With its last line, sound and not fenced, the load writes its register. -/
theorem loadReturn_complete {t : State} (taken : takeLoadLines s = t) (load : t.seq.load = some l) (complete : loadComplete t = true)
    (noAbort : t.seq.abortAt = none) (sound : l.bad = false) (unfenced : l.fenced = false) : ∃ busy wait, loadReturn s =
      setG l.d (extended l.size l.signed (loadValue l.addr l.size l.lines)) wait { t with seq.load := none, seq.busyUntil := busy } := by
  refine ⟨Nat.max t.seq.busyUntil (2 * (t.now / 2 + returnWait l t)),
    returnWait l { t with seq.load := none, seq.busyUntil := Nat.max t.seq.busyUntil (2 * (t.now / 2 + returnWait l t)) }, ?_⟩
  unfold loadReturn
  extract_lets +onlyGivenNames isDue got memory cleared gathered here
  have arrived : here = t := taken
  rw [arrived, load]
  simp only [complete, if_true, noAbort, Option.isSome_none, Bool.false_eq_true, if_false, sound, unfenced]
  rfl

end

@[simp] theorem setG_load (d : Fin 16) (v : Word) (k : Nat) (s : State) : (setG d v k s).seq.load = s.seq.load := by
  unfold setG; split <;> rfl

theorem extended_word (signed : Bool) (v : Nat) : extended 4 signed v = BitVec.ofNat 32 v := by
  cases signed
  · exact (extended_unsigned 4 v).trans (BitVec.setWidth_eq _)
  · exact (extended_signed (by decide) v).trans (BitVec.signExtend_eq _)

theorem exec_loadReturn (s : State) : exec .loadReturn s = .next (loadReturn s) := rfl

/-- Settles O10: a load from ITCM or DTCM finishes at once (`loadInstr_tcm_wrote`), one of a register is a read of the bus, one from the Square
waits (`loadInstr_square_issued`) and returns with its last line (`loadReturn_complete`); the others trap. -/
theorem loadsReturnTheirBytes : Obligations.LoadsReturnTheirBytes := by
  refine ⟨?issue, fun s l due data load square size inLine awaits sound unfenced noGroup noAbort whole arrived flight => ?arrival⟩
  case issue =>
    intro s d a imm adr issues address
    have ready : LoadReady a imm adr s := ⟨issues, address.symm⟩
    refine ⟨?tcm, fun base top aligned empty clean mapped => ?register, fun below => ⟨fun base top => ?access, fun base top => ?unmapped⟩,
      fun base top empty => ?square⟩
    case tcm =>
      intro tcm free apart clean b
      have loads {n : Nat} {signed : Bool} (size : 1 ≤ n ∧ n ≤ 4) {c : Instr} (meaning : exec c s = .next (loadInstr n signed d a imm s))
          {v : Word} (value : extended n signed (ofLe (readBytes adr n s)) = v) :=
        loadInstr_tcm_wrote ready tcm free apart clean size meaning value
      have byte := ofNat_readBytes_1 adr s
      have half := ofNat_readBytes_2 adr s
      exact ⟨loads (by decide) rfl ((extended_signed (by decide) _).trans (congrArg _ byte)),
        loads (by decide) rfl ((extended_unsigned ..).trans (congrArg _ byte)),
        loads (by decide) rfl ((extended_signed (by decide) _).trans (congrArg _ half)),
        loads (by decide) rfl ((extended_unsigned ..).trans (congrArg _ half)),
        loads (by decide) rfl ((extended_word ..).trans (ofNat_readBytes_4 adr s))⟩
    case register =>
      have here := seqRegion_reg base top
      have kind : accessKind adr 4 false s = 0 :=
        accessKind_allowed (by decide) here (seqRegion_reg (by omega) (by omega)) (fun _ => ⟨rfl, aligned⟩) false
      have done : drained s = true := by simp [drained, empty, clean]
      obtain ⟨same, others, pc, -, -, frame⟩ :=
        coreWrote_retire d (BitVec.ofNat 32 (busRead seqOwner adr s).2.1) 8 8 8 (busRead seqOwner adr s).2.2
      exact ⟨_, congrArg Host.Outcome.next (loadInstr_register ready kind here done mapped), same, others, pc,
        (congrArg State.mem frame).trans rfl, frame⟩
    case access =>
      simp only [List.forall_mem_cons, List.not_mem_nil, false_imp_iff, implies_true, and_true]
      have traps {n : Nat} {signed : Bool} (narrow : n ≠ 4) {c : Instr} (meaning : exec c s = .next (loadInstr n signed d a imm s)) :=
        loadInstr_access_trapped ready base top below narrow meaning
      exact ⟨traps (by decide) rfl, traps (by decide) rfl, traps (by decide) rfl, traps (by decide) rfl⟩
    case unmapped =>
      simp only [List.forall_mem_cons, List.not_mem_nil, false_imp_iff, implies_true, and_true]
      have traps {n : Nat} {signed : Bool} (size : 1 ≤ n ∧ n ≤ 4) {c : Instr} (meaning : exec c s = .next (loadInstr n signed d a imm s)) :=
        loadInstr_unmapped_trapped ready base top below size meaning
      exact ⟨traps (by decide) rfl, traps (by decide) rfl, traps (by decide) rfl, traps (by decide) rfl, traps (by decide) rfl⟩
    case square =>
      simp only [List.forall_mem_cons, List.not_mem_nil, false_imp_iff, implies_true, and_true]
      have waits {n : Nat} {signed : Bool} (size : 1 ≤ n ∧ n ≤ 4) {c : Instr} (meaning : exec c s = .next (loadInstr n signed d a imm s))
          (covered : accessCovered adr n false s = true) := loadInstr_square_issued ready base top empty size covered meaning
      exact ⟨waits (by decide) rfl, waits (by decide) rfl, waits (by decide) rfl, waits (by decide) rfl, waits (by decide) rfl⟩
  case arrival =>
    obtain ⟨busy, wait, returned⟩ :=
      loadReturn_complete (takeLoadLines_last load awaits noGroup arrived flight) rfl rfl noAbort sound unfenced
    have value : extended l.size l.signed (loadValue l.addr l.size [(lineOf l.addr, some data)]) =
        BitVec.ofNat 32 (ofLe (slice data (l.addr % 64) 4)) := by
      rw [size, extended_word, loadValue_line (Nat.add_le_add_right inLine 4) whole]
    refine ⟨_, exec_loadReturn s, ?_⟩
    rw [returned, value]
    exact ⟨setG_load .., gr_setG_same .., fun r other => gr_setG_ne _ r _ _ _ other, setG_pc .., setG_sys .., setG_regs ..,
      (congrArg State.mem (setG_frame ..)).trans rfl, (congrArg (fun t : State => t.memory.flight) (setG_frame ..)).trans rfl⟩

/-! ## Stores that enter the store buffer (R330, R363) -/

theorem submitHead_eq (s : State) : ∃ acc, submitHead s = { s with memory.acc := acc } := by
  unfold submitHead
  split
  · split
    · exact foldl_addAcc _ (fun _ _ => _) s
    · exact ⟨s.memory.acc, rfl⟩
  · exact ⟨s.memory.acc, rfl⟩

/-- A store that does not go to the Square only enters the buffer. -/
theorem pushStore_outside {a : Nat} (outside : inSquare a = false) (raw n v : Nat) (s : State) :
    pushStore raw a n v s = { s with seq.buffer := s.seq.buffer ++ [⟨raw, a, n, v, 2 * (s.now / 2 + 3)⟩] } := by
  unfold pushStore
  dsimp only
  split
  case isTrue empty =>
    have none : s.seq.buffer = [] := List.isEmpty_iff.mp empty
    simp [submitHead, none, outside]
  case isFalse => rfl

theorem inSquare_low {a : Nat} (low : a < 0x60000000) : inSquare a = false := by
  simp only [inSquare, Bool.and_eq_false_iff, decide_eq_false_iff_not]
  exact .inl (Nat.not_le.mpr low)

/-- Below the Square every line is covered. -/
theorem lineCovered_low {line : Nat} (low : line < 0x60000000) (write : Bool) (s : State) : lineCovered line write s = true := by
  have noSquare : ¬ inSquare line = true := by rw [inSquare_low low]; exact Bool.false_ne_true
  have noBoulevard : ¬ blvBase ≤ line := Nat.not_le.mpr (Nat.lt_trans low (by decide))
  rw [lineCovered, if_neg noSquare, if_neg noBoulevard]

theorem accessCovered_low {a : Nat} (low : a + 64 < 0x60000000) (n : Nat) (write : Bool) (s : State) : accessCovered a n write s = true := by
  have first : a / 64 * 64 < 0x60000000 := by omega
  have second : a / 64 * 64 + 64 < 0x60000000 := by omega
  unfold accessCovered linesOf
  split <;> simp [lineCovered_low first, lineCovered_low second, lineOf]

/-- The operands of a store instruction: it may issue, and its address is `adr`. -/
structure StoreReady (d a : Fin 16) (imm : BitVec 14) (adr : Nat) (s : State) : Prop where
  issues : otherOk [a, d] s = true
  address : (gr a s + imm14s imm).toNat = adr

/-- Where a store enters the buffer without a wait: ITCM, DTCM, and the unmapped range below the register space. -/
def storeEnters (adr : Nat) : Prop := inTcms adr ∨ (0x20000000 ≤ adr ∧ adr + 4 ≤ 0x40000000)

section
variable {n adr : Nat} {d a : Fin 16} {imm : BitVec 14} {s : State} (ready : StoreReady d a imm adr s)
include ready

theorem storeInstr_access (kind : accessKind adr n true s = 3) : storeInstr n d a imm s = precise 3 0 adr s := by
  simp only [storeInstr, if_pos ready.issues, ready.address, kind]

theorem storeInstr_enters (room : s.seq.buffer.length < 4) (kind : accessKind adr n true s = 0 ∨ accessKind adr n true s = 4)
    (covered : accessCovered adr n true s = true) (direct : seqRegion adr ≠ .aper) :
    storeInstr n d a imm s = pushStore adr adr n ((gr d s).toNat % 2 ^ (8 * n)) (retire 1 1 (endWait s)) := by
  rcases kind with kind | kind
  · simp only [storeInstr, if_pos ready.issues, ready.address, kind, seqAddr_direct direct, if_neg (Nat.not_le.mpr room), covered]
    rfl
  · simp only [storeInstr, if_pos ready.issues, ready.address, kind, seqAddr_direct direct, if_neg (Nat.not_le.mpr room), covered]
    rfl

theorem storeInstr_pushed (enters : storeEnters adr) (size : 1 ≤ n ∧ n ≤ 4) (room : s.seq.buffer.length < 4) {c : Instr}
    (meaning : exec c s = .next (storeInstr n d a imm s)) : ∃ t e, exec c s = .next t ∧ t.seq.buffer = s.seq.buffer ++ [e] ∧ e.addr = adr ∧
      e.raw = adr ∧ e.size = n ∧ e.data = (gr d s).toNat % 2 ^ (8 * n) ∧ t.seq.pc = s.seq.pc + 4 ∧ (∀ r, gr r t = gr r s) ∧
      t.seq.sys = s.seq.sys ∧ t.mem = s.mem ∧ keepsFields [SYS_SEQ_STAT.STATE, SYS_SEQ_PC.PC, SYS_SEQ_COV.WAIT] s t := by
  have kind : accessKind adr n true s = 0 ∨ accessKind adr n true s = 4 := by
    rcases enters with tcm | ⟨base, top⟩
    · exact .inl (accessKind_inTcms tcm size true)
    · exact .inr (accessKind_unmapped (seqRegion_unmapped base (by omega)) (seqRegion_unmapped (by omega) (by omega)) true)
  have direct : seqRegion adr ≠ .aper := by
    rcases enters with tcm | ⟨base, top⟩
    · obtain ⟨r, which, region⟩ := seqRegion_inTcms tcm
      have here : seqRegion adr = r := region 0 (by decide)
      rcases which with rfl | rfl <;> simp [here]
    · simp [seqRegion_unmapped base (by omega)]
  have low : adr + 64 < 0x60000000 := by unfold storeEnters inTcms at enters; omega
  obtain ⟨regs, logged, ended, keeps⟩ := endWait_eq s
  refine ⟨_, ⟨adr, adr, n, (gr d s).toNat % 2 ^ (8 * n), 2 * (s.now / 2 + 3)⟩, meaning, ?_⟩
  rw [storeInstr_enters ready room kind (accessCovered_low low n true s) direct, pushStore_outside (inSquare_low (by omega)), ended]
  exact ⟨rfl, rfl, rfl, rfl, rfl, rfl, fun _ => rfl, rfl, rfl, (keeps.mono (by simp)).trans ((retireTo_keeps _ 1 1 _).mono (by simp))⟩

theorem storeInstr_access_trapped (base : 0x40000000 ≤ adr) (top : adr + 4 ≤ 0x41000000) (below : s.seq.sys.lvl < 5) (narrow : n ≠ 4)
    {c : Instr} (meaning : exec c s = .next (storeInstr n d a imm s)) : ∃ t, exec c s = .next t ∧ coreTrapped 3 0 adr s.seq.pc s t :=
  precise_trapped below (meaning.trans (congrArg _
    (storeInstr_access ready (accessKind_narrow (seqRegion_reg base (by omega)) narrow true))))

end

/-! ## The drain of the store buffer (R347, R361, R363) -/

/-- The head store leaves the buffer; the next one may bring accesses to the Square. -/
theorem popStore_eq {s : State} {e : StoreEntry} {rest : List StoreEntry} (buffer : s.seq.buffer = e :: rest) :
    ∃ left acc, popStore s = { s with seq.buffer := left, memory.acc := acc } ∧ left.length = rest.length := by
  unfold popStore
  rw [buffer]
  cases rest with
  | nil => exact ⟨[], s.memory.acc, rfl, rfl⟩
  | cons next rest =>
    obtain ⟨acc, submitted⟩ := submitHead_eq { s with seq.buffer := { next with head := Nat.max next.head s.now } :: rest }
    exact ⟨_, acc, submitted, rfl⟩

section
variable {s : State} {e : StoreEntry} {rest : List StoreEntry}

theorem region40_direct {a : Nat} {r : SeqRegion} (core : a < 2 ^ 32) (region : seqRegion a = r) (direct : r ≠ .aper) : region40 a s = r := by
  rw [region40, if_pos core, if_neg (region ▸ direct), region]

theorem region40_unmapped {a : Nat} (base : 0x20000000 ≤ a) (top : a < 0x40000000) : region40 a s = .none :=
  region40_direct (by omega) (seqRegion_unmapped base top) (by decide)

theorem region40_reg {a : Nat} (base : 0x40000000 ≤ a) (top : a < 0x41000000) : region40 a s = .reg :=
  region40_direct (by omega) (seqRegion_reg base top) (by decide)

theorem region40_tcm {a k : Nat} (nonempty : 0 < k) (range : a + k ≤ 0x40000 ∨ (0x100000 ≤ a ∧ a + k ≤ 0x120000)) :
    region40 a s = .itcm ∨ region40 a s = .dtcm := by
  rcases range with top | ⟨base, top⟩
  · exact .inl (region40_direct (by omega) (seqRegion_itcm (by omega)) (by decide))
  · exact .inr (region40_direct (by omega) (seqRegion_dtcm base (by omega)) (by decide))

section
variable (buffer : s.seq.buffer = e :: rest) (time : e.head ≤ s.now)
include buffer time

theorem storeDrain_unmapped (region : region40 e.addr s = .none) :
    storeDrain s = popStore (refuseStore e.raw false (unmapped seqOwner e.addr s)) := by
  simp only [storeDrain, buffer, if_neg (Nat.not_lt.mpr time), region]

theorem storeDrain_tcm (region : region40 e.addr s = .itcm ∨ region40 e.addr s = .dtcm) (may : drainMay e s = true) :
    storeDrain s = drainTcm e s := by
  rcases region with region | region <;> simp only [storeDrain, buffer, if_neg (Nat.not_lt.mpr time), region, may, if_true]

theorem storeDrain_register (region : region40 e.addr s = .reg) (due : e.head + 12 ≤ s.now) (clean : groupClean s = true)
    (mapped : (busWrite seqOwner e.addr e.data s).1 = true) : storeDrain s = popStore (busWrite seqOwner e.addr e.data s).2 := by
  simp only [storeDrain, buffer, if_neg (Nat.not_lt.mpr time), region, if_neg (Nat.not_lt.mpr due), clean, mapped, Bool.not_true, if_true,
    Bool.false_eq_true, if_false]

theorem storeDrain_register_waits (region : region40 e.addr s = .reg) (early : s.now < e.head + 12) : storeDrain s = s := by
  simp only [storeDrain, buffer, if_neg (Nat.not_lt.mpr time), region, if_pos early]

end

theorem refuseStore_first {raw : Nat} {prot : Bool} (none : s.seq.storeErr = none) :
    refuseStore raw prot s = { s with seq.storeErr := some (raw, prot) } := if_neg (by simp [none])

theorem refuseStore_further {raw : Nat} {prot : Bool} (waiting : s.seq.storeErr ≠ none) :
    refuseStore raw prot s = { s with seq.sys.multi := true } := if_pos (Option.isSome_iff_ne_none.mpr waiting)

/-- A refused store leaves the buffer and changes no memory; it waits to be reported, or a further one sets MULTI. -/
theorem popStore_refused (buffer : s.seq.buffer = e :: rest) {u : State} (seq : u.seq = s.seq) (mem : u.mem = s.mem) :
    ∃ t, popStore (refuseStore e.raw false u) = t ∧ t.mem = s.mem ∧ t.seq.buffer.length = rest.length ∧ (∀ r, gr r t = gr r s) ∧
      (s.seq.storeErr = none → t.seq.storeErr = some (e.raw, false) ∧ t.seq.sys = s.seq.sys) ∧
      (s.seq.storeErr ≠ none → t.seq.storeErr = s.seq.storeErr ∧ t.seq.sys = { s.seq.sys with multi := true }) := by
  have regs (r : Fin 16) : gr r u = gr r s := gr_congr r (by rw [seq])
  have sys : u.seq.sys = s.seq.sys := by rw [seq]
  have err : u.seq.storeErr = s.seq.storeErr := by rw [seq]
  by_cases first : s.seq.storeErr = none
  · obtain ⟨left, acc, popped, length⟩ := popStore_eq (s := { u with seq.storeErr := some (e.raw, false) }) (by rw [← buffer, ← seq])
    refine ⟨_, rfl, ?_⟩
    rw [refuseStore_first (err.trans first), popped]
    exact ⟨mem, length, regs, fun _ => ⟨rfl, sys⟩, fun waiting => absurd first waiting⟩
  · obtain ⟨left, acc, popped, length⟩ := popStore_eq (s := { u with seq.sys.multi := true }) (by rw [← buffer, ← seq])
    refine ⟨_, rfl, ?_⟩
    rw [refuseStore_further (err ▸ first), popped]
    exact ⟨mem, length, regs, fun none => absurd none first, fun _ => ⟨err, by rw [← sys]⟩⟩

end

/-! ## The bytes that a store drains (R361, R363) -/

@[simp] theorem length_leBytes (n v : Nat) : (leBytes n v).length = n := by
  induction n generalizing v with
  | zero => rfl
  | succ n ih => simp [leBytes, ih]

theorem getD_leBytes {n i : Nat} (h : i < n) (v : Nat) : (leBytes n v).getD i 0 = v / 256 ^ i % 256 := by
  induction n generalizing i v with
  | zero => omega
  | succ n ih =>
    cases i with
    | zero => simp [leBytes]
    | succ i => rw [leBytes, List.getD_cons_succ, ih (by omega), Nat.div_div_eq_div_mul, Nat.pow_succ']

theorem readByte_congr {s t : State} (mem : t.mem = s.mem) (loss : lossOf t = lossOf s) (a : Nat) : readByte a t = readByte a s := by
  rw [readByte, readByte, mem, loss]

theorem upsetWrite_eq (w : Addr) (new : List (Option Nat)) (s : State) : ∃ upsets, upsetWrite w new s = { s with memory.upsets := upsets } := by
  unfold upsetWrite
  split
  · exact ⟨s.memory.upsets, rfl⟩
  · split
    · exact ⟨s.memory.upsets, rfl⟩
    · split
      · exact ⟨_, rfl⟩
      · exact ⟨_, rfl⟩

theorem writeBytes_eq (a : Nat) (b : List Nat) (s : State) : ∃ mem, writeBytes a b s = { s with mem := mem } := by
  induction b generalizing a s with
  | nil => exact ⟨s.mem, rfl⟩
  | cons x b ih =>
    obtain ⟨mem, written⟩ := ih (a + 1) (writeByte a (BitVec.ofNat 8 x) s)
    exact ⟨mem, written⟩

/-- A write into a TCM word writes its bytes and may end an error. -/
theorem tcmWrite_eq (a : Nat) (b : List Nat) (s : State) : ∃ mem upsets, tcmWrite a b s = { s with mem := mem, memory.upsets := upsets } := by
  obtain ⟨mem, written⟩ := writeBytes_eq a b s
  unfold tcmWrite
  obtain ⟨upsets, kept⟩ := upsetWrite_eq (a / 4 * 4)
    ((List.range 4).map (fun i => if a % 4 ≤ i && i < a % 4 + b.length then some (nth b (i - a % 4) 0) else none)) (writeBytes a b s)
  exact ⟨mem, upsets, kept.trans (by rw [written])⟩

theorem readByte_tcmWrite (a c : Nat) (b : List Nat) (s : State) : readByte c (tcmWrite a b s) = readByte c (writeBytes a b s) := by
  obtain ⟨mem, loss⟩ := upsetWrite_keeps (a / 4 * 4)
    ((List.range 4).map (fun i => if a % 4 ≤ i && i < a % 4 + b.length then some (nth b (i - a % 4) 0) else none)) (writeBytes a b s)
  exact readByte_congr mem loss c

/-- The bytes of one word that the head store drains. -/
def drainPart (e : StoreEntry) : Nat := Nat.min e.size (4 - e.addr % 4)

/-- The head store has written its bytes of one word. -/
def wordDrained (e : StoreEntry) (s : State) : State := tcmWrite e.addr (leBytes (drainPart e) e.data) (takePort e.addr 1 s)

/-- The rest of a store that crosses into another word. -/
def storeRest (e : StoreEntry) : StoreEntry :=
  { e with raw := e.raw + drainPart e, addr := e.addr + drainPart e, size := e.size - drainPart e, data := e.data / 2 ^ (8 * drainPart e) }

theorem drainTcm_eq (e : StoreEntry) (s : State) : drainTcm e s = if drainPart e = e.size then popStore (wordDrained e s)
    else { wordDrained e s with seq.buffer := storeRest e :: (wordDrained e s).seq.buffer.drop 1 } := rfl

/-- The drain of a word changes the port, memory and its errors; the bytes read back and every other byte keeps its value. -/
theorem wordDrained_eq (e : StoreEntry) (s : State) : ∃ port mem upsets,
    wordDrained e s = { s with seq.port := port, mem := mem, memory.upsets := upsets } ∧
      (∀ i < drainPart e, readByte (e.addr + i) (wordDrained e s) = BitVec.ofNat 8 (e.data / 256 ^ i)) ∧
      keepsMemBut e.addr (drainPart e) s (wordDrained e s) := by
  obtain ⟨port, taken⟩ := takePort_eq e.addr 1 s
  obtain ⟨mem, upsets, written⟩ := tcmWrite_eq e.addr (leBytes (drainPart e) e.data) { s with seq.port := port }
  refine ⟨port, mem, upsets, by rw [wordDrained, taken, written], fun i inside => ?_, fun c outside => ?_⟩
  · rw [wordDrained, readByte_tcmWrite, readByte_writeBytes_in _ _ _ _ (by rwa [length_leBytes]), getD_leBytes inside]
    apply BitVec.eq_of_toNat_eq
    simp
  · rw [wordDrained, readByte_tcmWrite, readByte_writeBytes_out _ _ _ _ (by rwa [length_leBytes]), taken]
    rfl

theorem exec_storeDrain (s : State) : exec .storeDrain s = .next (storeDrain s) := rfl

/-- The drain of a word: its bytes read back, every other byte keeps its value, and the store leaves the buffer or its rest stays the head. -/
theorem drainTcm_drains {s : State} {e : StoreEntry} {rest : List StoreEntry} (buffer : s.seq.buffer = e :: rest) :
    (∀ i < drainPart e, readByte (e.addr + i) (drainTcm e s) = BitVec.ofNat 8 (e.data / 256 ^ i)) ∧
      keepsMemBut e.addr (drainPart e) s (drainTcm e s) ∧ (drainPart e = e.size → (drainTcm e s).seq.buffer.length = rest.length) ∧
      (drainPart e < e.size → (drainTcm e s).seq.buffer = storeRest e :: rest) ∧ (∀ r, gr r (drainTcm e s) = gr r s) ∧
      (drainTcm e s).seq.pc = s.seq.pc ∧ (drainTcm e s).regs = s.regs := by
  obtain ⟨port, mem, upsets, drained, bytes, others⟩ := wordDrained_eq e s
  rw [drained] at bytes others
  rw [drainTcm_eq, drained]
  split
  case isTrue whole =>
    obtain ⟨left, acc, popped, length⟩ :=
      popStore_eq (s := { s with seq.port := port, mem := mem, memory.upsets := upsets }) (e := e) (rest := rest) buffer
    rw [popped]
    exact ⟨bytes, others, fun _ => length, fun part => absurd whole (Nat.ne_of_lt part), fun _ => rfl, rfl, rfl⟩
  case isFalse crosses =>
    exact ⟨bytes, others, fun whole => absurd whole crosses, fun _ => congrArg (fun l => storeRest e :: l.drop 1) buffer, fun _ => rfl, rfl, rfl⟩

/-- Settles O11: a store enters the buffer (`storeInstr_pushed`) and drains by the range of its address (`popStore_refused`,
`drainTcm_drains`). -/
theorem storesAreBufferedAndDrained : Obligations.StoresAreBufferedAndDrained := by
  refine ⟨fun s d a imm adr issues address => ?_, fun s e rest buffer time => ?_⟩
  · have ready : StoreReady d a imm adr s := ⟨issues, address.symm⟩
    refine ⟨fun range room => ?_, fun base top below => ?_⟩
    · have enters : storeEnters adr := or_assoc.mpr range
      simp only [List.forall_mem_cons, List.not_mem_nil, false_imp_iff, implies_true, and_true]
      exact ⟨storeInstr_pushed ready enters (by decide) room rfl, storeInstr_pushed ready enters (by decide) room rfl,
        storeInstr_pushed ready enters (by decide) room rfl⟩
    · simp only [List.forall_mem_cons, List.not_mem_nil, false_imp_iff, implies_true, and_true]
      exact ⟨storeInstr_access_trapped ready base top below (by decide) rfl, storeInstr_access_trapped ready base top below (by decide) rfl⟩
  · refine ⟨fun base top => ?unmapped, fun k size range may part => ?tcm, fun base top due clean mapped => ?register,
      fun base top early => ?waits⟩
    case unmapped =>
      obtain ⟨t, drained, facts⟩ := popStore_refused buffer (u := unmapped seqOwner e.addr s) (fault_seq' ..) (faultAddr_mem ..)
      exact ⟨t, (exec_storeDrain s).trans
        (congrArg _ ((storeDrain_unmapped buffer time (region40_unmapped base top)).trans drained)), facts⟩
    case tcm =>
      have nonempty : 0 < e.size := by
        simp only [List.mem_cons, List.not_mem_nil, or_false] at size
        omega
      subst part
      exact ⟨_, (exec_storeDrain s).trans (congrArg _ (storeDrain_tcm buffer time (region40_tcm nonempty range) may)),
        drainTcm_drains buffer⟩
    case register =>
      exact (exec_storeDrain s).trans (congrArg _ (storeDrain_register buffer time (region40_reg base top) due clean mapped))
    case waits => exact (exec_storeDrain s).trans (congrArg _ (storeDrain_register_waits buffer time (region40_reg base top) early))

end Sys2Proof.Machine
end
